-- ==== Sys2Proof/Word.lean ====
section
/-! DEFINITION. The word types of the PL3208 and the sparse table type its state is written with. -/
namespace Sys2Proof

/-- A 64-bit register value (R13, R257). -/
abbrev Word := BitVec 64

/-- A byte of memory or of a message. -/
abbrev Byte := BitVec 8

/-- A sparse table from numbers to values, keys rising; a key not listed holds the value the reader names. -/
abbrev Tab (α : Type) := List (Nat × α)

end Sys2Proof
end

