-- ==== Sys2Proof/Syntax.lean ====
section
/-! DEFINITION. The commands of the PL3208 block, one constructor per row of the table of operations and events, with
the operands each row's rules name. An operand that is no field of a register or message is what the outside world
decides at that moment: the outcome of a read of stored bits, a sensor's sample, a training result (log 17). -/
namespace Sys2Proof

/-- The rail groups of R28. -/
inductive RailGroup where
  | vcoreHp | vcoreLa | vcoreLb | vkaolA | vkaolB | vmarl (m : Nat) | vddq (c : Nat) | vserdes | vccio (b : Nat)
  | vaux | mvdd
  deriving DecidableEq, Repr

/-- Who writes a register: host software through PF0, a thread, a VF window, the debug port (R92, R140, R522). -/
inductive Master where | pf0 | thread (n : Nat) | vf (n : Nat) | debug
  deriving DecidableEq, Repr

/-- What a read of a range finds changed since it was written; whether that is an error follows from the codes (R338, R421). -/
inductive ReadOutcome where
  /-- nothing has changed since the range was last written or read -/
  | clean
  /-- stored bits of the range's codeword `word` have changed (R339) -/
  | upset (word : Nat) (changed : BitVec 80)
  /-- bits of the stored carry code of the range's 64-byte unit `unit` have changed (R423) -/
  | carry (unit : Nat) (changed : BitVec 32)
  /-- bits of a unit of the data have changed on its way from one check of its carry code to the next (R422, R425) -/
  | moved (changed : BitVec 512)
  /-- bits of the stored MAC of the range's line `line` have changed (R405) -/
  | mac (line : Nat) (changed : BitVec 64)
  /-- stored bits of a codeword of the MAC-area line of the range's line `line` have changed (R405) -/
  | macUpset (line : Nat) (changed : BitVec 80)
  /-- of the range's line `line`: a parent's entry for a counter block or node that is fetched differs by these bits (R397) -/
  | tree (line level node : Nat) (changed : BitVec 64)
  /-- of the range's line `line`: stored bits of a codeword of a counter block or node that is fetched have changed (R397) -/
  | treeUpset (line level node : Nat) (changed : BitVec 80)
  /-- stored bits of an entry of the counter cache or the MAC cache have changed (R398) -/
  | cache (mac : Bool) (entry : Nat) (changed : BitVec 80)
  /-- of the channel of the range's line `line`: bits of the root's three copies have changed (R417) -/
  | root (line : Nat) (x y z : BitVec 64)
  /-- an error or poisoned completion of the network: aborted, forced or bitten (R79, R453, R462) -/
  | abort
  deriving DecidableEq, Repr

/-- Where and how an instruction issues: its thread, and the outcome of its fetch (R260, R285). -/
structure Issue where
  /-- issuing thread, 0 to 64 -/
  thread : Nat
  /-- outcome of the fetch -/
  fetch : ReadOutcome
  deriving DecidableEq, Repr

/-- One module's serial presence data, as R349 checks it. -/
structure Module where
  /-- GiB -/
  gib : Nat
  /-- RDIMM or 3DS RDIMM -/
  rdimm : Bool
  /-- 3DS -/
  tds : Bool
  /-- 40 bits per subchannel -/
  wide : Bool
  /-- organisation, compared between the two modules -/
  org : Nat
  deriving DecidableEq, Repr

/-- A TLP from the host (R47 to R52). -/
inductive HostTlp where
  /-- read of a function's BAR: function, BAR, offset, bytes -/
  | read (fn bar off len : Nat)
  /-- write to a function's BAR -/
  | write (fn bar off : Nat) (bytes : List (BitVec 8))
  /-- configuration read of the function -/
  | cfgRead (fn : Nat)
  /-- configuration read of a function's AER uncorrectable error status -/
  | aerRead (fn : Nat)
  /-- configuration write of a function's AER uncorrectable error status: bits written 1 clear -/
  | aerClear (fn : Nat) (v : BitVec 32)
  /-- configuration read of a base address register, both halves: PF0's BAR of that number, or VF BAR0 of the SR-IOV capability -/
  | barRead (vf : Bool) (bar : Nat)
  /-- configuration write of a base address register, both halves -/
  | barWrite (vf : Bool) (bar : Nat) (v : BitVec 64)
  /-- configuration write of a function's Bus Master Enable -/
  | busMaster (fn : Nat) (v : Bool)
  /-- configuration write of the SR-IOV VF Memory Space Enable -/
  | vfMse (v : Bool)
  deriving DecidableEq, Repr

/-- A position a link-down is reported with (R53, R90). -/
inductive LinkDownCause where
  /-- loss of PCIE_REFCLK -/
  | refclk
  /-- a PLL unlock or failed retrain, with the LTSSM state -/
  | other (ltssm : BitVec 8)
  deriving DecidableEq, Repr

/-- A stored configuration word, latch or state slot: physical plot, context, clod, grain. A damaged state slot comes with
`true` where the parity of its next values disagrees (R152). -/
structure CfgLoc where
  /-- physical plot -/
  plot : Nat
  /-- context -/
  ctx : Nat
  /-- clod -/
  clod : Nat
  /-- grain -/
  grain : Nat
  deriving DecidableEq, Repr

/-- What a scrub pass finds at a codeword of a region's canary row (R551): further bits of it that have changed, and whether the unit reports
it as it reads. -/
structure CanaryHit where
  /-- region, as physical plot index -/
  region : Nat
  /-- codeword 0 to 127 of the row -/
  word : Nat
  /-- bits changed besides the two that the pass changed -/
  bits : BitVec 80
  /-- the unit reports the outcome of its read, and restores the pattern -/
  reported : Bool
  deriving DecidableEq, Repr

/-- What is the placer firmware's own in a search (R207, R209): the swaps of the improvement passes, as logical plots and the physical
plots they move to, and the routes of the nets in the order of routing, each as the transit plots and outbound positions after the
source. Routes stop short of the nets where the next net has none. -/
structure PlaceResult where
  /-- swaps of step 5 -/
  swaps : List (Nat × Nat)
  /-- routes of step 6 -/
  routes : List (List (Nat × Nat))
  deriving DecidableEq, Repr

/-- A Norak frame (R476). -/
structure Frame where
  /-- TYPE -/
  type : BitVec 8 := 0
  /-- EPOCH -/
  epoch : Bool := false
  /-- FAULT -/
  fault : Bool := false
  /-- LAST -/
  last : Bool := false
  /-- SRC -/
  src : Nat := 0
  /-- DST, 0xFF for every device -/
  dst : Nat := 0
  /-- HOPS -/
  hops : Nat := 0
  /-- GROUP -/
  group : BitVec 8 := 0
  /-- LFN -/
  lfn : Nat := 0
  /-- ROUND -/
  round : Nat := 0
  /-- GEN -/
  gen : BitVec 8 := 0
  /-- SEQ -/
  seq : BitVec 32 := 0
  /-- CYCLE -/
  cycle : BitVec 64 := 0
  /-- SPART -/
  spart : Nat := 0
  /-- DPART -/
  dpart : Nat := 0
  /-- FRAG -/
  frag : Nat := 0
  /-- payload; of a frame that arrives, as it is encrypted on the link (R429) -/
  data : List (BitVec 8) := []
  /-- carry codes of the 64-byte units of DATA while the frame is inside the device, none on a link (R422) -/
  codes : List (BitVec 32) := []
  /-- a RSVD field is non-zero -/
  rsvd : Bool := false
  deriving DecidableEq, Repr

/-- What comes with a frame on a link: the 16-byte GCM tag, and the FEC codewords of it that were corrected or could not be (R476, R477,
R501). -/
structure Arrival where
  /-- tag, its first byte lowest -/
  tag : BitVec 128
  /-- FEC codewords corrected -/
  corrected : Nat := 0
  /-- FEC codewords that could not be corrected -/
  broken : Nat := 0
  deriving DecidableEq, Repr

/-- An error of a ring sideband that a stop receives: the stop and how many bits changed (R442). -/
structure SidebandHit where
  /-- receiving stop -/
  stop : Nat
  /-- bits that changed -/
  bits : Nat
  deriving DecidableEq, Repr

/-- A HELLO message (R430). -/
structure Hello where
  /-- serial -/
  serial : BitVec 64
  /-- 32 random bytes -/
  random : BitVec 256
  /-- ephemeral ECDH public key -/
  ecdh : List (BitVec 8)
  /-- ML-KEM encapsulation key or ciphertext -/
  kem : List (BitVec 8)
  deriving DecidableEq, Repr

/-- An AUTH message (R430). -/
structure AuthMsg where
  /-- certificate chain -/
  chain : List (BitVec 8)
  /-- RSA-3072 signature -/
  rsa : List (BitVec 8)
  /-- SLH-DSA signature -/
  slh : List (BitVec 8)
  deriving DecidableEq, Repr

/-- The functions that R452 disables under R451. -/
inductive DrainFn where | dma (p : Nat) | vf (p : Nat) | icp (p : Nat) | ring (r : Nat) | stop (s : Nat)
  deriving DecidableEq, Repr

/-- Instructions of the test access port (R520). -/
inductive TapInstr where | idcode | sample | extest | extestPulse | extestTrain | dbgacc | bypass
  deriving DecidableEq, Repr

/-- What a patrol reads (R553). -/
inductive PatrolAt where
  /-- a block-memory row: physical plot, block, row -/
  | bram (plot block row : Nat)
  /-- a marl or DDR5 line at a system address -/
  | line (addr : Nat)
  /-- a line of the counter and tree areas of a channel -/
  | tree (channel off : Nat)
  deriving DecidableEq, Repr

/-- A repair found by training: its KIND and bits [27:0] (R556). -/
abbrev Repair := Nat × BitVec 28

/-- Requests to the SPDM responder (R426). -/
inductive SpdmReq where | version | certificate | measurement | session
  deriving DecidableEq, Repr

/-- What has changed as a dwell starts: transit switch positions whose parity disagrees, and bits of active latches (R151, R205). -/
structure DwellUpset where
  /-- physical plot and outbound position -/
  transit : List (Nat × Nat) := []
  /-- bits of active latches -/
  latch : List (CfgLoc × BitVec 256) := []
  deriving DecidableEq, Repr

/-- The end of a scrub of a partition's faulted plots, and the stored bits that it finds changed (R170). -/
structure ScrubEnd where
  /-- partition -/
  part : Nat
  /-- codewords and their changed bits -/
  stored : List (CfgLoc × Nat × BitVec 80) := []
  deriving DecidableEq, Repr

/-- The commands, one constructor per row of the table. -/
inductive Instr where
  | powerRailUndervoltage (g : RailGroup) (keepNew : Bool)
  | vddqUndervoltage (c : Nat)
  | vccioUndervoltage (b : Nat)
  | perstAssert
  | perstRelease (straps : BitVec 4)
  | pcieLinkUp
  | selftestDone (failed : Option (BitVec 16)) (us : BitVec 32)
  | bar2Write (off : Nat) (bytes : List (BitVec 8))
  | bootGo (m : Master) (length : BitVec 24)
  | firmwareVerifyDone
  | firmwareLoaded
  | downloadDeadlineExpiry
  | svnCommit (m : Master) (v : BitVec 7)
  | svnFuseDone
  | attestReq (m : Master)
  | attestDone
  | featuresOk (m : Master)
  | ddr5TrainingDone (c : Nat) (modules : List Module) (trained : Bool)
  | verifiedMetaInitDone (c : Nat)
  | vfEnableWrite (v : Bool)
  | pcieLinkDown (cause : LinkDownCause)
  | vfFlr (n : Nat)
  | hostTlpReceived (t : HostTlp) (stream : Option Nat) (ideOk : Bool) (rd : ReadOutcome)
  | ideKmQuery
  | ideKmKeyProg (stream sub : Nat) (rx set : Bool) (key : BitVec 256)
  | ideKmKSetGo (stream sub : Nat) (rx set : Bool)
  | ideKmKSetStop (stream sub : Nat) (rx set : Bool)
  | registerWrite (m : Master) (off size : Nat) (v : BitVec 64)
  | keepWrite (m : Master) (i : Nat) (v : BitVec 32)
  | keepPersisted (i : Nat)
  | keepRead (m : Master) (i : Nat) (bad : Bool)
  | rstCold (m : Master) (key : BitVec 8)
  | rstWarm (m : Master) (key : BitVec 8)
  | rstService (m : Master) (key : BitVec 8)
  | rstPartition (m : Master) (key : BitVec 8) (p : Nat)
  | serviceBoundaryWaitExpiry
  | serviceInflightTimeout (aborted : Nat)
  | serviceSelfRefreshEntered
  | serviceResetDone
  | partitionResetWaitExpiry (p : Nat)
  | partitionResetDone (p : Nat)
  | gclkTargetChange (target : Nat)
  | sparePllLocked
  | sparePllRelocked
  | gpllLossOfLock (pll : Bool)
  | gpllRestartLock (pll : Bool)
  | gpllRetryTimer (pll : Bool)
  | refclkLost
  | refclkFreezeTimeout
  | holdoverEnd
  | refclkRestored
  | userclkEdge (pin : Nat) (falling : Bool)
  | designCycleStart (p : Nat)
  | dwellStart (p : Nat) (upset : DwellUpset)
  | refillEnd (p : Nat) (stored : List (CfgLoc × Nat × BitVec 80)) (bonds : List (CfgLoc × Nat × Nat × BitVec 4))
  | dwellEnd (p : Nat) (latch : List (CfgLoc × BitVec 256)) (slots : List (CfgLoc × BitVec 6)) (rows : List (Nat × BitVec 80)) (norakExit : Option (Nat × BitVec 512))
  | vlaneContention (p n lane : Nat) (latch : List (CfgLoc × BitVec 256))
  | modelReadResponse (p port : Nat) (rd : ReadOutcome)
  | modelWriteAck (p : Nat) (rd : ReadOutcome)
  | designCycleBoundary (p : Nat) (pins : List (Nat × Bool)) (slots : List (CfgLoc × BitVec 6)) (ns : Nat) (room : Bool)
  | configFaultScrubDone (x : ScrubEnd)
  | autoRewindDone (p : Nat) (rd : ReadOutcome)
  | plotClearingDone (n : Nat)
  | verificationPassDone (stored : List (CfgLoc × Nat × BitVec 80))
  | configRefreshTick (n : Nat)
  | illegalOpcode (i : Issue) (w : BitVec 32)
  | add (i : Issue) (d a b : BitVec 5)
  | sub (i : Issue) (d a b : BitVec 5)
  | and (i : Issue) (d a b : BitVec 5)
  | or (i : Issue) (d a b : BitVec 5)
  | xor (i : Issue) (d a b : BitVec 5)
  | sll (i : Issue) (d a b : BitVec 5)
  | srl (i : Issue) (d a b : BitVec 5)
  | sra (i : Issue) (d a b : BitVec 5)
  | mul (i : Issue) (d a b : BitVec 5)
  | mulhu (i : Issue) (d a b : BitVec 5)
  | divu (i : Issue) (d a b : BitVec 5)
  | remu (i : Issue) (d a b : BitVec 5)
  | slt (i : Issue) (d a b : BitVec 5)
  | sltu (i : Issue) (d a b : BitVec 5)
  | popc (i : Issue) (d a : BitVec 5)
  | clz (i : Issue) (d a : BitVec 5)
  | ctz (i : Issue) (d a : BitVec 5)
  | addi (i : Issue) (d a : BitVec 5) (imm : BitVec 16)
  | andi (i : Issue) (d a : BitVec 5) (imm : BitVec 16)
  | ori (i : Issue) (d a : BitVec 5) (imm : BitVec 16)
  | xori (i : Issue) (d a : BitVec 5) (imm : BitVec 16)
  | slli (i : Issue) (d a : BitVec 5) (sh : BitVec 6)
  | srli (i : Issue) (d a : BitVec 5) (sh : BitVec 6)
  | srai (i : Issue) (d a : BitVec 5) (sh : BitVec 6)
  | slti (i : Issue) (d a : BitVec 5) (imm : BitVec 16)
  | sltiu (i : Issue) (d a : BitVec 5) (imm : BitVec 16)
  | lui (i : Issue) (d : BitVec 5) (imm : BitVec 16)
  | shin (i : Issue) (d : BitVec 5) (imm : BitVec 16)
  | ld (i : Issue) (d a : BitVec 5) (off : BitVec 16) (rd : ReadOutcome)
  | lw (i : Issue) (d a : BitVec 5) (off : BitVec 16) (rd : ReadOutcome)
  | lb (i : Issue) (d a : BitVec 5) (off : BitVec 16) (rd : ReadOutcome)
  | st (i : Issue) (d a : BitVec 5) (off : BitVec 16)
  | sw (i : Issue) (d a : BitVec 5) (off : BitVec 16) (rd : ReadOutcome)
  | sb (i : Issue) (d a : BitVec 5) (off : BitVec 16) (rd : ReadOutcome)
  | swap (i : Issue) (d a b : BitVec 5) (rd : ReadOutcome)
  | aadd (i : Issue) (d a b : BitVec 5) (rd : ReadOutcome)
  | aand (i : Issue) (d a b : BitVec 5) (rd : ReadOutcome)
  | aor (i : Issue) (d a b : BitVec 5) (rd : ReadOutcome)
  | cas (i : Issue) (d a b : BitVec 5) (rd : ReadOutcome)
  | lds (i : Issue) (d a : BitVec 5) (off : BitVec 16)
  | sts (i : Issue) (d a : BitVec 5) (off : BitVec 16)
  | systemAccessComplete (n : Nat) (rd : ReadOutcome)
  | beq (i : Issue) (a b : BitVec 5) (off : BitVec 16)
  | bne (i : Issue) (a b : BitVec 5) (off : BitVec 16)
  | blt (i : Issue) (a b : BitVec 5) (off : BitVec 16)
  | bge (i : Issue) (a b : BitVec 5) (off : BitVec 16)
  | bltu (i : Issue) (a b : BitVec 5) (off : BitVec 16)
  | bgeu (i : Issue) (a b : BitVec 5) (off : BitVec 16)
  | j (i : Issue) (off : BitVec 26)
  | call (i : Issue) (off : BitVec 26)
  | jalr (i : Issue) (d a : BitVec 5) (imm : BitVec 16)
  | yield (i : Issue)
  | halt (i : Issue)
  | trapret (i : Issue)
  | mfs (i : Issue) (d : BitVec 5) (spr : BitVec 16)
  | mts (i : Issue) (a : BitVec 5) (spr : BitVec 16)
  | waitt (i : Issue) (d a : BitVec 5) (imm : BitVec 16)
  | waittTimeout (n : Nat)
  | fence (i : Issue) (d : BitVec 5) (imm : BitVec 16)
  | fenceTimeout (n : Nat)
  | threadStart (m : Master) (n : Nat) (pc : BitVec 22)
  | threadResume (m : Master) (n : Nat)
  | threadStop (m : Master) (n : Nat)
  | seqWinWrite (m : Master) (n : Nat) (v : BitVec 64)
  | seqMemoryHostWrite (off : Nat) (bytes : List (BitVec 8)) (rd : ReadOutcome)
  | imgchk (i : Issue) (d a b : BitVec 5) (rd : ReadOutcome)
  | place (i : Issue) (d a b : BitVec 5)
  | placeSearchDone (res : PlaceResult) (us : Nat)
  | imgld (i : Issue) (d a b : BitVec 5) (rd : ReadOutcome)
  | imgldFrameGroup (p : Nat) (rd : ReadOutcome)
  | imgldDone (p : Nat) (rd : ReadOutcome)
  | migr (i : Issue) (d a b : BitVec 5)
  | migrCopyDone (p : Nat)
  | migrPeriod (p : Nat) (order : List (Nat × Nat))
  | act (i : Issue) (d a b : BitVec 5)
  | frz (i : Issue) (d a b : BitVec 5)
  | step (i : Issue) (d a b : BitVec 5)
  | run (i : Issue) (d a b : BitVec 5)
  | stop (i : Issue) (d a b : BitVec 5)
  | snap (i : Issue) (d a b : BitVec 5)
  | snapshotCaptureDone (p : Nat) (slots : List (CfgLoc × BitVec 6)) (rd : ReadOutcome) (us : BitVec 16)
  | rwnd (i : Issue) (d a b : BitVec 5)
  | rewindDone (p : Nat) (rd : ReadOutcome)
  | fill (i : Issue) (d a b : BitVec 5)
  | fillDone (n slot : Nat) (rd : ReadOutcome)
  | rmov (i : Issue) (d a b : BitVec 5)
  | rmovDone (n slot : Nat) (rd : ReadOutcome)
  | dma (i : Issue) (d a b : BitVec 5)
  | dmaDone (n slot : Nat) (host : List (BitVec 8)) (rd : ReadOutcome)
  | prb (i : Issue) (d a b : BitVec 5)
  | trig (i : Issue) (d a b : BitVec 5)
  | censRegister (i : Issue) (d a b : BitVec 5)
  | censRound (i : Issue) (d a b : BitVec 5)
  | donewHold (i : Issue) (d a b : BitVec 5)
  | donewRelease (i : Issue) (d a b : BitVec 5)
  | doneHoldRelease
  | doneNRise (th : Nat)
  | startFrameReceived (n : Nat) (f : Frame) (w : Arrival)
  | startTimeReached
  | donewTimeout
  | startFrameTimeout
  | keysetMemoryKey (i : Issue) (d a b : BitVec 5)
  | keysetImageKey (i : Issue) (d a b : BitVec 5)
  | keysetTenantHashes (i : Issue) (d a b : BitVec 5)
  | keyretRetire (i : Issue) (d a b : BitVec 5)
  | keyidDrained (k : Nat)
  | retireTimeout (k aborted : Nat)
  | keyidRetired (k : Nat)
  | keyretFree (i : Issue) (d a b : BitVec 5)
  | evt (i : Issue) (d a b : BitVec 5)
  | thrm (i : Issue) (d a b : BitVec 5)
  | mtrdRegisters (i : Issue) (d a b : BitVec 5)
  | mtrdSigned (i : Issue) (d a b : BitVec 5)
  | mtrdTimeout (n slot : Nat)
  | icpgGrant (i : Issue) (d a b : BitVec 5)
  | icpgRevoke (i : Issue) (d a b : BitVec 5)
  | partCreate (i : Issue) (d a b : BitVec 5)
  | partChange (i : Issue) (d a b : BitVec 5)
  | partRelease (i : Issue) (d a b : BitVec 5)
  | partDelete (i : Issue) (d a b : BitVec 5)
  | hotsw (i : Issue) (d a b : BitVec 5)
  | hotswChecksDone (rd : ReadOutcome)
  | hotswThreadsSuspended
  | hotswHoldTimeout
  | hotswAllHeld
  | hotswSectionsWritten
  | icpWriteRequest (p port : Nat) (msg : List (BitVec 8))
  | icpWriteDone (p : Nat) (tag : BitVec 8) (rd : ReadOutcome)
  | icpRejoinRequest (p port : Nat) (msg : List (BitVec 8))
  | sysfaultNFall
  | sysfaultNRise
  | sysfaultClear (m : Master)
  | sysfaultFwAssert (m : Master) (v : Bool)
  | iobankWrite (m : Master) (b : Nat) (v : BitVec 64)
  | retrainPause (u : Nat)
  | retrainPauseCut (u : Nat)
  | dramRefreshTick (u : Nat)
  | bucketLeak
  | sidebandUe (ring : Nat) (hit : SidebandHit)
  | sealForce (m : Master) (key : BitVec 8)
  | nocStopDisable (m : Master) (s : Nat)
  | nocStopOff (m : Master) (s : Nat)
  | nocStopOn (m : Master) (s : Nat)
  | drainComplete (f : DrainFn)
  | drainTimeout (f : DrainFn) (aborted : Nat)
  | fenceHandshakeDone (s : Nat)
  | arbWatchdogBite (i r : Nat)
  | arbReenable (m : Master) (i r : Nat)
  | arbPriorityWrite (m : Master) (i r : Nat) (high : Bool) (level : BitVec 3)
  | nocStatClear (m : Master)
  | nocStatFreeze (m : Master) (v : Bool)
  | norakPortTrained (n tx rx : Nat) (repairs : List Repair)
  | norakTrainingRetry (n : Nat)
  | norakLinkDrop (n : Nat) (pathLost : Bool)
  | helloI (n : Nat) (h : Hello)
  | helloR (n : Nat) (h : Hello)
  | auth (n : Nat) (m : AuthMsg)
  | finished (n : Nat) (mac : BitVec 384)
  | norakHandshakeTimeout (n : Nat)
  | norakHandshakeRetry (n : Nat)
  | norakKeyUpdate (n : Nat)
  | norakNak (n lfn : Nat)
  | norakAck (n lfn : Nat)
  | cutnet (n : Nat) (f : Frame) (w : Arrival) (moved : Option (Nat × BitVec 512))
  | gfreeze (n : Nat) (f : Frame) (w : Arrival)
  | census (n : Nat) (f : Frame) (w : Arrival)
  | censusTimeout
  | censusAutoPeriod
  | time (n : Nat) (offset : BitVec 32)
  | ringTimeLock (hops : BitVec 6)
  | ringDisable (m : Master) (r : Nat)
  | ringOff (m : Master) (r : Nat)
  | ringOn (m : Master) (r : Nat)
  | ringCutWrite (m : Master) (b : Nat) (v : BitVec 64)
  | ringGroupWrite (m : Master) (p : Nat) (v : BitVec 64)
  | traceAllocWrite (m : Master) (p : Nat) (v : BitVec 64)
  | obsTownWrite (m : Master) (p : Nat) (v : BitVec 64)
  | dbgaccUpdate (v : BitVec 128)
  | idcode
  | samplePreload (cells : BitVec 864)
  | extest
  | extestPulse
  | extestTrain
  | dbgacc
  | bypass (code : BitVec 8)
  | powerSample (mw : List (Option Nat))
  | thermalModelStep (samples : List (Option Int))
  | bandDownTimer (dom : Nat)
  | coldPlateFit
  | rateOfRiseCheck
  | sensorRecovery (n : Nat)
  | powerFaultRecovery (g : Nat)
  | tripWaitTimeout
  | tripFreezeComplete
  | tripEnd
  | gclkReqWrite (m : Master) (bandMax : Bool) (v : BitVec 64)
  | scrubPassStart (overrun : List Nat) (upset : List Nat)
  | scrubPassEnd (canary : List CanaryHit) (stored late : List (CfgLoc × Nat × BitVec 80)) (ms : BitVec 8)
  | fallbackSoftwarePass (stored late : List (CfgLoc × Nat × BitVec 80))
  | scrubRetry (m : Master) (n : Nat)
  | bondTest (m : Master) (n : Nat)
  | bondTestDone (bonds : List (Nat × Nat × Nat))
  | patrolRead (w : PatrolAt) (rd : ReadOutcome)
  | spareBankCopyDone (i : Nat) (upset : List (Nat × BitVec 80))
  | ddrVacate (m : Master) (c : Nat) (persist : Bool)
  | ddrVacateDone (c : Nat)
  | ddrRestore (m : Master) (c : Nat)
  | lifeCheck
  | evtConsWrite (m : Master) (v : BitVec 64)
  | vfEvtConsWrite (p : Nat) (v : BitVec 64)
  | meterPowerUp (railsUp calOk : Bool)
  | mvddPowerFail
  | meterSample (mw : Nat)
  | meterSecond
  | meterStore
  | meterMinute
  | meterTamper
  | crystalFault
  | crystalRecovered
  | mpulseImpulse
  | i3cPrivateWrite (ptr : BitVec 8) (data : List (BitVec 8))
  | req (nonce : List (BitVec 8))
  | logsel (data : List (BitVec 8))
  | i3cPrivateRead (len : Nat)
  | setdasa (addr : BitVec 7)
  | entdaa (addr : BitVec 7)
  | setnewda (addr : BitVec 7)
  | setmwl (v : BitVec 16)
  | setmrl (v : BitVec 16)
  | enec
  | valueFrame (upset : List (Nat × BitVec 8))
  | signedReadoutFrame (bytes : List (BitVec 8)) (crc : BitVec 32)
  | countFrameSend
  | countFrame (upset : BitVec 128)
  | meterLinkLost (s : BitVec 32)
  | powerRailRestored (g : RailGroup) (straps : BitVec 4)
  | vccioRestored (b volts : Nat)
  | doneNFall
  | marlTrainingDone (m : Nat) (repairs : List Repair) (ok : Bool)
  | debugAccessDone (rd : ReadOutcome)
  | spdmRequest (r : SpdmReq)
  | malformedFrame (n : Nat) (f : Frame)
  deriving DecidableEq, Repr

end Sys2Proof
end

