-- ==== Sys2Proof/Decode.lean ====
section
/-! DEFINITION. The command a word spells. The table gives no row any bits, so no word spells a command (log 16). -/
namespace Sys2Proof

/-- The command that a word of `nbits` bits spells by the table: none, as no row of the table has bits. -/
def decodeTableWord (nbits w : Nat) : Option Instr :=
  match nbits, w with
  | _, _ => none

end Sys2Proof
end

