-- ==== Sys2Proof/Config.lean ====
section
/-! DEFINITION. What the spec leaves to a standard, to the part's manufacture or to nobody: functions without a body, so
that nothing can be proved of their values. `freeWord`, `freeByte` and `freeBool` are the free values; State holds the
counter they are applied to (log 13). -/
namespace Sys2Proof

/-- Free value: a 64-bit value the spec does not give (log 13). -/
opaque Config.freeWord : Nat → Word
/-- Free value: a byte the spec does not give: a read of a word never written (R129, R375), a line read under another
key than the one that wrote it (R328) (log 13). -/
opaque Config.freeByte : Nat → Byte
/-- Free value: a yes or no that the spec does not give (log 13). -/
opaque Config.freeBool : Nat → Bool

/-- The key Kt of a channel's counter tree, from the device's random source, by metadata initialisation (R396; log 13). -/
opaque Config.treeKey : Nat → BitVec 256

/-- SHA-384 (R60, R63, R184, R224; log 14). -/
opaque Config.sha384 : List Byte → BitVec 384
/-- SHA-256 (R497, R547; log 14). -/
opaque Config.sha256 : List Byte → BitVec 256
/-- HMAC-SHA-384 of a message under a key (R196, R430; log 14). -/
opaque Config.hmac384 : BitVec 384 → List Byte → BitVec 384
/-- RSASSA-PSS verification: public key of 388 bytes, message, signature (R62; log 14). -/
opaque Config.rsaVerify : List Byte → List Byte → List Byte → Bool
/-- SLH-DSA-SHA2-192s verification: public key, message, signature (R62; log 14). -/
opaque Config.slhVerify : List Byte → List Byte → List Byte → Bool
/-- RSA-3072 signature of 384 bytes under an identity key, by signature number (R66, R430; log 14). -/
opaque Config.rsaSign : Nat → List Byte → List Byte
/-- SLH-DSA signature of 16,224 bytes under an identity key, by signature number (R66, R430; log 14). -/
opaque Config.slhSign : Nat → List Byte → List Byte
/-- The device identity certificates of BAR2 offset 0x0001_0000 and SPDM slot 0 (R65, R426; log 14). -/
opaque Config.deviceCert : List Byte
/-- The certificate chain of the meter's signing keys (R577; log 14). -/
opaque Config.meterCert : List Byte
/-- The meter's RSA-3072 and SLH-DSA signatures of a readout, 16,608 bytes (R580; log 14). -/
opaque Config.meterSign : List Byte → List Byte
/-- The device's random source and ephemeral keys: a HELLO's random bytes and public values, by draw (R430; log 14). -/
opaque Config.helloRandom : Nat → BitVec 256
/-- The ephemeral ECDH public key of a HELLO, by draw (R430; log 14). -/
opaque Config.helloEcdh : Nat → List Byte
/-- The ML-KEM encapsulation key of a HELLO_I, by draw (R430; log 14). -/
opaque Config.helloKem : Nat → List Byte
/-- The ML-KEM ciphertext for a received encapsulation key, by draw (R430; log 14). -/
opaque Config.helloCipher : Nat → List Byte → List Byte
/-- The certificate chain verifies to the Sundavo root key hashes (R430; log 14). -/
opaque Config.chainOk : BitVec 384 → BitVec 384 → List Byte → Bool
/-- The RSA public key of a certificate chain (R430; log 14). -/
opaque Config.chainRsa : List Byte → List Byte
/-- The SLH-DSA public key of a certificate chain (R430; log 14). -/
opaque Config.chainSlh : List Byte → List Byte
/-- The pseudo-random key of a handshake: HKDF-Extract with salt TH2 over both shared secrets, from the four messages
and the draw of this end's ephemeral keys (R431; log 14). -/
opaque Config.handshakePrk : Nat → List Byte → BitVec 384
/-- HKDF-Expand to 48 bytes under a secret and label (R431, R432; log 14). -/
opaque Config.hkdf : BitVec 384 → List Byte → BitVec 384
/-- The weight of a node in the spreading of its group's power over a step (R528): the grain-clock activity that the plot controllers of a
loam cell report, the refresh and streaming activity of a kaolin cell, the activate count of a marl die, from the step's draw; the
weight of a hardpan cell, from the model parameters (log 15). -/
opaque Config.activity : List (Nat × Byte) → Nat → Nat → Nat
/-- The power of a node in mW in a step in which no node of its group has a weight (R528; log 15). -/
opaque Config.idleShare : Nat → Nat → Nat
/-- The RC model: estimate of a node after a step, in 0.25 °C, from the parameters (empty for the built-in ones), the estimates
before, the powers of the nodes in mW and the cold-plate value (R527; log 15). -/
opaque Config.estimate : List (Nat × Byte) → List (Nat × Int) → List Nat → Int → Nat → Int
/-- The fixed pattern of a codeword of a region's canary row (R551; log 141). -/
opaque Config.canaryPattern : Nat → Nat → Word
/-- The location value of a codeword of a region's canary row, which lies outside the configuration rows (R336, R551; log 141). -/
opaque Config.canaryLoc : Nat → Nat → Nat
/-- The cold-plate value that makes the mean residual of the named sensors zero (R530; log 15). -/
opaque Config.plateFit : List (Nat × Byte) → List (Nat × Int) → List (Nat × Int) → Int
/-- The SECDED code of a ring sideband, from its other bits (R441; log 130). -/
opaque Config.sidebandCode : Nat → BitVec 8
/-- Set of the counter cache, of 4,096, or of the MAC cache, of 2,048, that holds a line, which R398 leaves to the design. -/
opaque Config.cacheSet : Bool → Nat → Nat
/-- Bank and row of a DDR5 channel's offset, as training code lays them out (R351, R352; log 130). -/
opaque Config.ddrPlace : Nat → Nat → Nat × Nat
/-- The IDCODE manufacturer identity of the BSDL file (R520; log 14). -/
opaque Config.manufacturer : BitVec 11

end Sys2Proof
end

