-- ==== Sys2Proof/Machine/State.lean ====
section
/-! DEFINITION. The state of the PL3208 block as plain data: every register, queue, counter, mode and pin the spec names,
each field with the rule that names it and its reset value, and the queue of waiting commands. -/
namespace Sys2Proof.Machine
open Host

/-- Boot phases, BOOT_STATUS.PHASE 0 to 7 in this order (R55). -/
inductive Phase where | selftest | waitImage | verify | loading | running | lowpwr | failed | sealed
  deriving DecidableEq, Repr

/-- Message classes of the rings, CLASS 0 to 3 in this order (R441, R443). -/
inductive MsgClass where | req | rsp | post | mgmt
  deriving DecidableEq, Repr

/-- Thread states, SEQ_THR_n.STATE 0 to 5 in this order (R258). -/
inductive TState where | idle | run | wait | trapped | suspended | held
  deriving DecidableEq, Repr

/-- What a thread in WAIT waits for (R258, R267, R279, R280). -/
inductive Wait where
  /-- WAITT of a slot, result to register `d`, and the longest wait in µs, 0xFFFF for no limit -/
  | waitt (slot d : Nat) (gen : BitVec 12) (us : Nat)
  /-- FENCE, result to register `d`, and the longest wait as for WAITT -/
  | fence (d us : Nat)
  /-- LDS of a system address, result to register `d` -/
  | lds (addr : BitVec 64) (d : Nat)
  /-- STS of a value to a system address -/
  | sts (addr v : BitVec 64)
  deriving DecidableEq, Repr

/-- Progress of a posted operation (R284, R300, R303). -/
inductive OpPhase where
  /-- posted and held by a SERVICE reset (R284) -/
  | held
  /-- waiting for its turn: a resource, an earlier overlapping operation, a channel -/
  | queued
  /-- carried out -/
  | run
  deriving DecidableEq, Repr

/-- Plot states, FAB_PLOT_n.STATE 0 to 6 in this order (R131). -/
inductive PlotState where | free | loading | ready | running | frozen | clearing | mappedOut
  deriving DecidableEq, Repr

/-- Partition states, FAB_PART_p.STATE 0 to 7 in this order (R225). -/
inductive PState where | none | blank | loading | placed | frozen | running | draining | halted
  deriving DecidableEq, Repr

/-- Freeze causes pending for the next boundary (R165, order 5). -/
inductive Freeze where
  /-- FRZ, its ticket -/
  | frz (thread slot : Nat)
  /-- STOP, its ticket -/
  | stop (thread slot : Nat)
  /-- a SERVICE reset (R79) -/
  | service
  /-- a PARTITION reset (R82) -/
  | partition
  /-- SYSFAULT_N (R253) -/
  | sysfault
  /-- loss of the reference clock (R45) -/
  | refclk
  /-- journal headroom (R372) -/
  | journal
  /-- a damaged plot (R549) -/
  | damage
  /-- a trigger unit (R512) -/
  | trigger
  deriving DecidableEq, Repr

/-- States of SYSREFCLK as the clock monitor sees it (R45). -/
inductive RefState where | good | holdover | stopped
  deriving DecidableEq, Repr

/-- How far a SERVICE reset has come (R79). -/
inductive SvcStep where
  /-- step 2: waiting for boundaries -/
  | waiting
  /-- steps 4 and 5: fenced, in-flight transfers may finish -/
  | fenced
  /-- step 7: write-back, bypasses closed, self-refresh being entered -/
  | quiet
  /-- steps 8 and 9: units reset, retraining -/
  | retraining
  deriving DecidableEq, Repr

/-- States of a memory unit, MEM_DDR_CH_c.STATE 0 to 6 in this order (R385). -/
inductive MState where | absent | training | active | selfRefresh | draining | off | failed
  deriving DecidableEq, Repr

/-- KeyID states, IME_KEYID_k.STATE 0 to 3 in this order (R412). -/
inductive KState where | free | active | retiring | retired
  deriving DecidableEq, Repr

/-- KeyID modes, IME_KEYID_k.MODE 0 to 2 in this order (R389). -/
inductive KMode where | plain | sealed | verified
  deriving DecidableEq, Repr

/-- Sealing states of a Norak port, IME_NK_PORT_n.STATE 0 to 4 in this order (R435). -/
inductive NkState where | down | handshake | sealed | bypass | retryWait
  deriving DecidableEq, Repr

/-- Link states of a Norak port, RING_PORT_n.STATE 0 to 4 in this order (R501). -/
inductive PortState where | down | training | sealing | up | bypass
  deriving DecidableEq, Repr

/-- An acknowledgement control block of a Norak link: of a frame, or negative with the last good link frame number (R477). -/
structure LinkCtl where
  /-- negative -/
  nak : Bool
  /-- link frame number -/
  lfn : Nat
  deriving DecidableEq, Repr

/-- States of a ring stop or a ring, NOC_STOP_s.STATE 0 to 5 in this order (R466). -/
inductive StopState where | absent | on | draining | drained | fenced | off
  deriving DecidableEq, Repr

/-- What a user pin's output does (R236). -/
inductive Drive where | hiz | pullup | pulldown | zero | one
  deriving DecidableEq, Repr

/-- Answers in the DOE mailbox (R426, R427). -/
inductive DoeReply where
  /-- IDE_KM QUERY: streams that may be programmed -/
  | query (link sel : Bool)
  /-- KEY_PROG accepted -/
  | keyOk
  /-- KEY_PROG refused with an error status -/
  | keyError
  /-- K_SET_GO or K_SET_STOP done -/
  | setDone
  /-- SPDM VERSION: 1.2 -/
  | version
  /-- SPDM CERTIFICATE of slot 0 -/
  | certificate (bytes : List (BitVec 8))
  /-- SPDM MEASUREMENTS: the firmware manifest digest -/
  | measurement (digest : BitVec 384)
  /-- SPDM session keys agreed -/
  | session
  deriving DecidableEq, Repr

/-- Completions to the host (R13, R47, R52, R55). -/
inductive Cpl where
  /-- a read's bytes -/
  | data (bytes : List (BitVec 8))
  /-- a write or configuration access done -/
  | done
  /-- Configuration Request Retry Status -/
  | crs
  /-- Unsupported Request -/
  | ur
  deriving DecidableEq, Repr

/-- A directory entry of a container (R182). -/
structure Sec where
  /-- TYPE -/
  type : Nat
  /-- COUNT -/
  count : Nat
  /-- OFFSET -/
  off : Nat
  /-- LENGTH -/
  len : Nat
  deriving DecidableEq, Repr

/-- A frame run of a manifest (R184). -/
structure Run where
  /-- PLOT -/
  plot : Nat
  /-- CTX -/
  ctx : Nat
  /-- FIRST -/
  first : Nat
  /-- COUNT -/
  count : Nat
  deriving DecidableEq, Repr

/-- A schedule entry (R157). -/
structure Entry where
  /-- CTX -/
  ctx : Nat := 0
  /-- STEPS -/
  steps : Nat := 4
  /-- MSYNC -/
  msync : Bool := false
  /-- XWAIT with WROUND -/
  xwait : Option Nat := none
  /-- XSEND with SROUND -/
  xsend : Option Nat := none
  /-- WROUND and SROUND as compiled, whatever XWAIT and XSEND say -/
  rounds : Nat × Nat := (0, 0)
  deriving DecidableEq, Repr

/-- A step schedule (R154 to R157). -/
structure Sched where
  /-- header word 0, the tick fields -/
  ticks : BitVec 64 := 0
  /-- header word 1 -/
  head : BitVec 64 := 0
  /-- entries -/
  entries : List Entry := []
  deriving DecidableEq, Repr

/-- A net record (R188). -/
structure Net where
  /-- SRC -/
  src : Nat
  /-- DST -/
  dst : Nat
  /-- SRC_PORT -/
  srcPort : BitVec 16
  /-- DST_PORT -/
  dstPort : BitVec 16
  /-- BUDGET -/
  budget : Nat
  /-- CTXMASK -/
  ctxMask : BitVec 8
  /-- HARD -/
  hard : Bool
  /-- CHAIN -/
  chain : Nat
  deriving DecidableEq, Repr

/-- A pairing (R191). -/
structure Pair where
  /-- PLOT_P -/
  p : Nat
  /-- PLOT_Q -/
  q : Nat
  /-- lane map bytes -/
  lanes : List (BitVec 8)
  deriving DecidableEq, Repr

/-- What the placer takes when a PLACE or MIGR starts (R199). -/
structure PlaceIn where
  /-- logical plots -/
  plots : Nat
  /-- contexts -/
  cc : Nat
  /-- plots that are FREE, by physical index -/
  free : List Nat
  /-- plots that each tier may still give (R138, R200) -/
  left : Nat × Nat
  /-- vertical-lane repairs in force -/
  lanes : List (BitVec 32)
  /-- model estimates of the cells of loam A, then of loam B, in 0.25 °C -/
  est : List Int
  /-- PLC_CTRL.W_THERM -/
  wTherm : Nat
  /-- PLC_CTRL.IMPROVE as it acts, 0 to 8 -/
  improve : Nat
  deriving DecidableEq, Repr

/-- A placer search in progress (R199, R210): a PLACE, or step 1 of a MIGR. -/
structure Search where
  /-- partition -/
  part : Nat
  /-- MIGR, with logical plot and a named destination -/
  migr : Option (Nat × Option Nat)
  /-- digest of the FULL head taken at the start -/
  head : BitVec 384
  /-- KeyID set taken at the start -/
  keys : List Nat
  /-- marl allocation taken at the start -/
  marl : Option (Nat × Nat)
  /-- DDR5 allocation taken at the start -/
  ddr : Option (Nat × Nat)
  /-- the other inputs taken at the start -/
  inp : PlaceIn
  /-- of a MIGR: the plot map at the start, with the partition's earlier migrations done -/
  base : List Nat := []
  /-- ticket -/
  thread : Nat
  /-- ticket -/
  slot : Nat
  deriving DecidableEq, Repr

/-- A migration between steps 2 and 6 (R217). -/
structure Mig where
  /-- partition -/
  part : Nat
  /-- moves: logical plot, source and destination physical index -/
  moves : List (Nat × Nat × Nat)
  /-- new transit switches by physical plot -/
  transit : List (Nat × List (Nat × Nat))
  /-- new route lengths -/
  lens : List Nat
  /-- the copy of step 2 is complete -/
  copied : Bool
  /-- step 5 is done; the sources are CLEARING -/
  moved : Bool
  /-- ticket -/
  thread : Nat
  /-- ticket -/
  slot : Nat
  deriving DecidableEq, Repr

/-- A block-memory write (R122, R125): bit offset, width in bits, data and byte enables. -/
structure BWrite where
  /-- first data bit -/
  bit : Nat
  /-- width -/
  width : Nat
  /-- data -/
  data : BitVec 64
  /-- byte write enables, used at ×64 -/
  bwe : BitVec 8
  /-- design clock that commits it (R124) -/
  dclk : Nat
  /-- ECC mode was in force when it was sampled (R128) -/
  ecc : Bool
  deriving DecidableEq, Repr

/-- A fault of a design cycle (R169, R170). -/
structure FaultRec where
  /-- event code -/
  code : BitVec 16
  /-- event detail -/
  detail : BitVec 32
  /-- event source -/
  src : Nat
  /-- physical plot where it was found -/
  plot : Option Nat
  deriving DecidableEq, Repr

/-- A model write in the order of R366: entry, port, order sampled, then bytes at an offset. -/
structure ModelWrite where
  /-- schedule entry -/
  entry : Nat
  /-- port number 4n + k -/
  port : Nat
  /-- offset in the model -/
  off : Nat
  /-- bytes -/
  bytes : List (BitVec 8)
  deriving DecidableEq, Repr

/-- A multi-beat model write under way (R363). -/
structure PartialWrite where
  /-- INDEX -/
  index : Nat
  /-- bytes of the beats sampled -/
  bytes : List (BitVec 8)
  /-- the write is dropped or discarded when complete -/
  drop : Bool
  deriving DecidableEq, Repr

/-- A cut-net frame held for presentation (R490). -/
structure CutFrame where
  /-- SRC position -/
  src : Nat
  /-- SPART -/
  spart : Nat
  /-- ROUND -/
  round : Nat
  /-- FRAG -/
  frag : Nat
  /-- CYCLE -/
  cycle : Nat
  /-- FAULT -/
  fault : Bool
  /-- R422 carry codes of its 64-byte units, computed where it arrived -/
  codes : List (BitVec 32)
  /-- Norak port it arrived on -/
  port : Nat
  /-- payload -/
  data : List (BitVec 8)
  deriving DecidableEq, Repr

/-- A PMU entry of a selection (R502, R504). -/
structure PmuEntry where
  /-- PLOT -/
  plot : Nat
  /-- PMU -/
  pmu : Nat
  /-- TRACE -/
  trace : Bool
  /-- the 64 lane words -/
  lanes : List (BitVec 32)
  deriving DecidableEq, Repr

/-- A trigger state (R511). -/
structure TrigState where
  /-- ENTRY -/
  entry : Nat
  /-- OPER -/
  oper : Nat
  /-- NEXT -/
  next : Nat
  /-- DISARM -/
  disarm : Bool
  /-- COUNT -/
  count : Nat
  /-- MASK -/
  mask : BitVec 64
  /-- VALUE -/
  value : BitVec 64
  /-- ACTION -/
  action : BitVec 4
  /-- POST -/
  post : Nat
  deriving DecidableEq, Repr

/-- A rewind in progress (R519): area, whether automatic, and the RWND ticket. -/
structure Rewind where
  /-- snapshot area -/
  addr : Nat
  /-- automatic (R170) -/
  auto : Bool
  /-- ticket -/
  thread : Nat
  /-- ticket -/
  slot : Nat
  deriving DecidableEq, Repr

/-- A count frame on the count link (R582). -/
structure CountFrame where
  /-- TYPE -/
  type : BitVec 8
  /-- PART -/
  part : BitVec 8
  /-- SEQ -/
  seq : BitVec 16
  /-- DCYC increment -/
  dcyc : BitVec 48
  /-- PLOTMS increment -/
  plotms : BitVec 32
  deriving DecidableEq, Repr

/-- The fuses read at reset (R91); they survive every reset class (R76). Values: DESIGN CHOICE (log 1). -/
structure Fuses where
  /-- R91 ID_PART.MAJOR_REV, 8 bits; reset fuse: DESIGN CHOICE 0 (log 1) -/
  majorRev : BitVec 8 := 0
  /-- R91 ID_PART.MINOR_REV, 8 bits; reset fuse: DESIGN CHOICE 0 (log 1) -/
  minorRev : BitVec 8 := 0
  /-- R91 R522 ID_PART.LIFECYCLE, 2 bits, 0 DEVELOP 1 PRODUCTION 2 SCRAP; reset fuse: DESIGN CHOICE 0 (log 1) -/
  lifecycle : BitVec 2 := 0
  /-- R66 R91 device serial number, 128 bits, low 64 in ID_SERIAL; reset fuse: DESIGN CHOICE 0 (log 1) -/
  serial : BitVec 128 := 0
  /-- R67 R69 ID_DEV_FEATURES0.OFFER, 64 bits; reset fuse: DESIGN CHOICE bits 0 to 17 offered (log 1) -/
  offer0 : BitVec 64 := 0x3FFFF
  /-- R67 R69 ID_DEV_FEATURES1.OFFER, 64 bits; reset fuse: DESIGN CHOICE 0 (log 1) -/
  offer1 : BitVec 64 := 0
  /-- R64 fused anti-rollback counter, thermometer 0 to 64, BOOT_SVN.FUSED; reset fuse: DESIGN CHOICE 0 (log 1) -/
  svnFused : Nat := 0
  /-- R55 R63 fused RSA key hash, 384 bits; reset fuse: DESIGN CHOICE 0 (log 1) -/
  rsaKeyHash : BitVec 384 := 0
  /-- R55 R63 fused SLH-DSA key hash, 384 bits; reset fuse: DESIGN CHOICE 0 (log 1) -/
  slhKeyHash : BitVec 384 := 0
  /-- R430 Sundavo root RSA key hash, 384 bits; reset fuse: DESIGN CHOICE 0 (log 1) -/
  rootRsaHash : BitVec 384 := 0
  /-- R430 Sundavo root SLH-DSA key hash, 384 bits; reset fuse: DESIGN CHOICE 0 (log 1) -/
  rootSlhHash : BitVec 384 := 0
  deriving DecidableEq, Repr

/-- One keep register (R71, R72, R75). -/
structure KeepReg where
  /-- R71 KEEP_DATA_n.VALUE, 32 bits; reset keep: DESIGN CHOICE 0 (log 2) -/
  value : BitVec 32 := 0
  /-- R71 KEEP_DATA_n.WCOUNT, 0 to 100,000; reset keep: DESIGN CHOICE 0 (log 2) -/
  wcount : Nat := 0
  /-- R72 KEEP_DATA_n.WORN; reset keep: DESIGN CHOICE 0 (log 2) -/
  worn : Bool := false
  deriving DecidableEq, Repr

/-- The 512 keep registers and their status (R71 to R75); the registers survive every reset class. -/
structure Keep where
  /-- R71 KEEP_DATA_n, n 0 to 511; an unlisted index holds the KeepReg defaults (log 2) -/
  regs : Tab KeepReg := []
  /-- R71 KEEP_STATUS.BUSY: writes still persisting, with the old value; reset 0 -/
  persisting : List (Nat × BitVec 32) := []
  /-- R75 KEEP_STATUS.READERR; reset 0 -/
  readErr : Bool := false
  deriving DecidableEq, Repr

/-- One MSI-X table entry (R89, PCIe base specification). -/
structure Msix where
  /-- R89 message address, 64 bits; reset: DESIGN CHOICE 0 (log 3) -/
  addr : BitVec 64 := 0
  /-- R89 message data, 32 bits; reset: DESIGN CHOICE 0 (log 3) -/
  data : BitVec 32 := 0
  /-- R89 vector mask bit; reset: PRESUMED 1, the PCIe base specification's value (log 4) -/
  masked : Bool := true
  deriving DecidableEq, Repr

/-- One 128-bit event record (R84). -/
structure EvtRec where
  /-- R84 TIME [127:72]; a slot never written reads zero (R86) -/
  time : BitVec 56 := 0
  /-- R84 SOURCE [71:64]; as time -/
  source : BitVec 8 := 0
  /-- R84 PARTITION [63:57]; as time -/
  part : BitVec 7 := 0
  /-- R84 CLASS [56:54]; as time -/
  cls : BitVec 3 := 0
  /-- R84 SEALED [49]; as time -/
  sealed : Bool := false
  /-- R84 OVF [48]; as time -/
  ovf : Bool := false
  /-- R84 CODE [47:32]; as time -/
  code : BitVec 16 := 0
  /-- R84 DETAIL [31:0]; as time -/
  detail : BitVec 32 := 0
  deriving DecidableEq, Repr

/-- An event queue: PF0's of 4,096 slots (R86) or a VF's of 256 (R88). -/
structure EvtQueue where
  /-- R86 R88 the record slots; unlisted slots read zero; reset 0 -/
  slots : Tab EvtRec := []
  /-- R86 EVT_PROD.INDEX, 12 bits (VF: 8); reset 0 -/
  prod : Nat := 0
  /-- R86 EVT_CONS.INDEX, 12 bits (VF: 8); reset 0 -/
  cons : Nat := 0
  /-- R87 EVT_LOST.COUNT, 32 bits (PF0 only); reset 0 -/
  lost : BitVec 32 := 0
  /-- R87 R89 an event has been lost since the last record written (overflow episode); reset 0 -/
  ovf : Bool := false
  deriving DecidableEq, Repr

/-- The EVT block and the MSI-X structures (R84 to R90); survives every class but COLD. -/
structure Evt where
  /-- R86 the PF0 queue, 4,096 slots; reset empty -/
  pf : EvtQueue := {}
  /-- R88 the VF queues by VF number, 256 slots each; reset empty -/
  vf : Tab EvtQueue := []
  /-- R89 EVT_CTRL.MASK, 8 bits, bits 5 and 6 read 0; reset 0 -/
  mask : BitVec 8 := 0
  /-- R89 MSI-X tables: key 64 × function + vector (function 0 PF0, n VF n); see Msix -/
  msix : Tab Msix := []
  /-- R89 pending bits, keys as msix; reset none -/
  pba : List Nat := []
  /-- R89 vectors delivered, by key, a count of messages sent to the host (the model's view of the link); reset 0 -/
  vectors : Tab Nat := []
  /-- R85 EVT_TIME.TIME, 56 bits, 4 ns units; reset 0 -/
  time : BitVec 56 := 0
  deriving DecidableEq, Repr

/-- The boot ROM's state and the BOOT block (R55 to R66). -/
structure Boot where
  /-- R55 BOOT_STATUS.PHASE, 4 bits; reset 0 SELFTEST -/
  phase : Phase := .selftest
  /-- R55 BOOT_STATUS.ERR, 16 bits; reset 0 -/
  err : BitVec 16 := 0
  /-- R55 BOOT_STATUS.FW_VERSION, 32 bits; reset 0 -/
  fwVersion : BitVec 32 := 0
  /-- R91 BOOT_CTRL.LENGTH, 24 bits; reset 0 -/
  length : BitVec 24 := 0
  /-- R56 BOOT_TIMEOUT.SECONDS, 12 bits; reset from keep 488, 30 when it holds 0 -/
  timeout : BitVec 12 := 30
  /-- R55 step 1 has run since the release of PERST#; reset 0 -/
  started : Bool := false
  /-- R55 R56 the download deadline is running; reset 0 -/
  deadlineOn : Bool := false
  /-- R56 it expired while an attempt was in VERIFY or LOADING; reset 0 -/
  deadlinePast : Bool := false
  /-- R57 the attempt in progress was started in LOWPWR; reset 0 -/
  fromLowPwr : Bool := false
  /-- R57 every PLL but the PCIe PLL and the HCLK source is stopped; reset 0 -/
  pllsStopped : Bool := false
  /-- R48 R58 BAR2, 8 MiB: bytes not listed read zero; reset zero (R58) -/
  bar2 : List Cell := []
  /-- R64 BOOT_SVN.IMAGE, 7 bits; reset 0 -/
  svnImage : Nat := 0
  /-- R64 BOOT_SVN.BUSY with the value being blown; reset not busy -/
  svnTarget : Option Nat := none
  /-- R65 BOOT_ATTEST.DONE; reset 0 -/
  attestDone : Bool := false
  /-- R65 a report is being built; reset 0 -/
  attestPending : Bool := false
  /-- R65 event time of the previous accepted REQ; reset none -/
  attestLast : Option (BitVec 56) := none
  /-- R65 BOOT_ATTEST_NONCE0 to 3, 256 bits, WO; reset: DESIGN CHOICE 0 (log 3) -/
  nonce : BitVec 256 := 0
  /-- R66 SHA-384 of the running header and manifest, 384 bits; reset: DESIGN CHOICE 0 (log 3) -/
  imageDigest : BitVec 384 := 0
  /-- R61 root core memory as loaded from the type 1 section; reset: none loaded (log 3) -/
  rootCode : List Cell := []
  /-- R61 placer firmware, type 3 section; reset: none loaded (log 3) -/
  placerCode : List Cell := []
  /-- R61 R527 thermal model parameters, type 4 section; reset: none loaded, built-in used -/
  thermParams : List Cell := []
  /-- R61 memory PHY training code, type 5 section; reset: none loaded (log 3) -/
  phyCode : List Cell := []
  /-- R291 digest of the running type 1 section; reset: DESIGN CHOICE 0 (log 3) -/
  digest1 : BitVec 384 := 0
  /-- R291 digests of the running type 5 sections; reset none -/
  digest5 : List (BitVec 384) := []
  /-- R603 ID_STRAPS, 4 bits; reset strap: DESIGN CHOICE 0 until sampled at the release of PERST# (log 3) -/
  straps : BitVec 4 := 0
  /-- R67 ID_DRV_FEATURES0.ACCEPT, 64 bits; reset 0 -/
  drv0 : BitVec 64 := 0
  /-- R67 ID_DRV_FEATURES1.ACCEPT, 64 bits; reset 0 -/
  drv1 : BitVec 64 := 0
  /-- R67 ID_FEATURES_CTRL.LOCKED; reset 0 -/
  locked : Bool := false
  /-- R67 ID_FEATURES_CTRL.REJECTED; reset 0 -/
  rejected : Bool := false
  /-- R68 ID_FEATURES_CTRL.REJECT_BIT, 8 bits; reset 0 -/
  rejectBit : BitVec 8 := 0
  /-- R68 ID_FEATURES_CTRL.REJECT_CAUSE; reset 0 -/
  rejectCause : Bool := false
  /-- R418 the identity private keys are present in the key store; reset: DESIGN CHOICE present (log 1) -/
  idKeys : Bool := true
  deriving DecidableEq, Repr

/-- One IDE key slot (R426, R427): stream, sub-stream, direction and key set. -/
structure IdeKey where
  /-- R426 stream 0 (link) or 1 to 4 (selective) -/
  stream : Nat := 0
  /-- R426 sub-stream: 0 PR, 1 NPR, 2 CPL -/
  sub : Nat := 0
  /-- direction (PCIe base specification) -/
  rx : Bool := false
  /-- R426 key set 0 or 1 -/
  set : Bool := false
  /-- R426 the AES-GCM key, 256 bits -/
  key : BitVec 256 := 0
  /-- R426 K_SET_GO has made it the key set in use -/
  active : Bool := false
  deriving DecidableEq, Repr

/-- The PCIe endpoint (R47 to R54, R426 to R428). -/
structure Pcie where
  /-- R55 the link is up; reset down -/
  linkUp : Bool := false
  /-- R55 step 2: PF0 answers configuration requests with CRS; reset until step 3 ends -/
  crs : Bool := true
  /-- R52 SR-IOV VF Enable; reset 0 -/
  vfEnable : Bool := false
  /-- R52 SR-IOV VF Memory Space Enable; reset PRESUMED 0 (log 4) -/
  vfMse : Bool := false
  /-- R320 functions whose Bus Master Enable is set; reset PRESUMED none (log 4) -/
  busMaster : List Nat := []
  /-- R426 R427 programmed IDE keys; reset none -/
  ide : List IdeKey := []
  /-- R428 IDE streams that are secure; reset none -/
  ideSecure : List Nat := []
  /-- R428 streams in Insecure after a failed check; reset none -/
  ideInsecure : List Nat := []
  /-- R426 the last answer in the DOE mailbox; reset none -/
  doe : Option DoeReply := none
  /-- R13 R47 the last completion sent to the host; reset none -/
  cpl : Option Cpl := none
  /-- R47 R90 AER uncorrectable error status by function, cleared by writing 1 (log 4); reset none -/
  aer : List (Nat × BitVec 32) := []
  /-- R48 base addresses written: key 0 PF0 BAR0, 2 PF0 BAR2, 16 VF BAR0 of the SR-IOV capability (log 4); reset 0 -/
  bars : Tab (BitVec 64) := []
  /-- R320 R321 PVF_DMA_STATUS.HALTED by channel; reset 0 -/
  dmaHalt : List Nat := []
  /-- R321 PVF_DMA_STATUS.LAST_CODE by channel; reset 0 -/
  dmaCode : Tab (BitVec 16) := []
  /-- R321 PVF_DMA_STATUS.BYTES by channel, 38 bits; reset 0 -/
  dmaBytes : Tab Nat := []
  /-- R320 host memory written by device-to-host DMA (the model's view of the host); reset none -/
  hostMem : List Cell := []
  /-- R380 host lines that received poisoned TLPs (as hostMem); reset none -/
  hostPoison : List Nat := []
  /-- R426 SPDM sessions established through the DOE mailbox; reset 0 -/
  session : Nat := 0
  deriving DecidableEq, Repr

/-- A PARTITION reset or FLR in progress (R78, R82). -/
structure PartReset where
  /-- R82 the partition -/
  part : Nat := 0
  /-- R76 it is an FLR (class 5) -/
  flr : Bool := false
  /-- R82 step 1 still waits for the boundary -/
  waiting : Bool := true
  /-- R78 a SERVICE reset has suspended it -/
  suspended : Bool := false
  deriving DecidableEq, Repr

/-- The RST block and resets in progress (R76 to R83), and the reset pins. -/
structure Rst where
  /-- R76 R471 PERST# is asserted; reset: DESIGN CHOICE asserted, the state before the first PERST_RELEASE (log 5) -/
  perst : Bool := true
  /-- R591 monitored groups now below their minimum; reset none -/
  railLow : List RailGroup := []
  /-- R91 RST_STATUS.LAST, 3 bits; reset 1 -/
  last : BitVec 3 := 1
  /-- R79 RST_STATUS.BUSY with the step reached; reset not busy -/
  svc : Option SvcStep := none
  /-- R91 RST_SVC_WAIT.MICROSECONDS, 16 bits; reset 0x03E8 -/
  svcWait : BitVec 16 := 0x3E8
  /-- R82 PARTITION resets in progress; reset none -/
  parts : List PartReset := []
  /-- R78 PARTITION requests held behind a SERVICE reset; reset none -/
  held : List (Nat × Bool) := []
  deriving DecidableEq, Repr

/-- One grain-clock PLL (R34 to R37). -/
structure Pll where
  /-- R34 frequency locked to or being acquired, 6.25 MHz units; reset: DESIGN CHOICE 160, the reset request (log 6) -/
  freq : Nat := 160
  /-- R35 the PLL is locked; reset: DESIGN CHOICE locked, self-test checks the lock (log 6) -/
  locked : Bool := true
  deriving DecidableEq, Repr

/-- Clock sources and domains (R32 to R46). -/
structure Clk where
  /-- R34 GPLL0 -/
  g0 : Pll := {}
  /-- R34 GPLL1 -/
  g1 : Pll := {}
  /-- R34 the PLL that drives the spines, false GPLL0; reset: DESIGN CHOICE GPLL0 (log 6) -/
  active : Bool := false
  /-- R35 THM_GCLK.DIVIDED; reset 0 -/
  divided : Bool := false
  /-- R34 current grain-clock target, 6.25 MHz units; reset: DESIGN CHOICE 160 (log 6) -/
  target : Nat := 160
  /-- R35 a sequence is between steps 1 and 3; reset 0 -/
  switching : Bool := false
  /-- R37 the grain clock is stopped; reset 0 after R57 PLL start (log 6) -/
  stopped : Bool := false
  /-- R37 both grain-clock PLLs have lost lock; reset 0 -/
  bothLost : Bool := false
  /-- R37 item 4 event time of the last repeated 0x0A14; reset none -/
  lastLoss : Option (BitVec 56) := none
  /-- R45 state of SYSREFCLK and holdover; reset good -/
  ref : RefState := .good
  /-- R39 HCLK runs from the monitor oscillator; reset 0 -/
  monitor : Bool := false
  /-- R276 SCYC, SCLK cycles since COLD reset, 64 bits; reset 0 -/
  scyc : BitVec 64 := 0
  /-- R178 a verification pass is running, ACT is refused; reset 0 -/
  verify : Bool := false
  deriving DecidableEq, Repr

/-- One ticket slot of a thread (R278). -/
structure Slot where
  /-- R278 generation count, 12 bits; reset: DESIGN CHOICE 0 (log 3) -/
  gen : BitVec 12 := 0
  /-- R278 the slot is occupied; reset 0 -/
  busy : Bool := false
  /-- R281 the completion status once the operation has completed; reset none -/
  done : Option (BitVec 64) := none
  /-- R280 post order; reset 0 -/
  order : Nat := 0
  deriving DecidableEq, Repr

/-- One Vezer thread (R257 to R263). -/
structure Thread where
  /-- R258 SEQ_THR_n.STATE; reset 5 HELD -/
  state : TState := .held
  /-- R257 g1 to g31, 64 bits each, zero while HELD (R258); g0 is not stored and reads zero -/
  regs : Tab (BitVec 64) := []
  /-- R257 program counter, SEQ_THR_n.PC; reset 0 -/
  pc : BitVec 64 := 0
  /-- R257 R278 the 16 ticket slots; reset free -/
  slots : Tab Slot := []
  /-- R258 what a WAIT thread waits for; reset none -/
  wait : Option Wait := none
  /-- R259 R291 the state a live swap suspended it from; reset: DESIGN CHOICE HELD (log 3) -/
  suspFrom : TState := .held
  /-- R263 SEQ_WIN_n of this thread, 64 bits; reset 0 (SEQ_WIN_0 is wired: see Ops) -/
  win : BitVec 64 := 0
  /-- R263 a window write that takes effect at the next instruction boundary; reset none -/
  winNext : Option (BitVec 64) := none
  deriving DecidableEq, Repr

/-- A trap as taken or queued (R285, R286). -/
structure Trap where
  /-- R285 code -/
  code : BitVec 16 := 0
  /-- R286 TTHR -/
  thread : Nat := 0
  /-- R286 TPC -/
  pc : BitVec 64 := 0
  /-- R285 TVAL -/
  tval : BitVec 64 := 0
  deriving DecidableEq, Repr

/-- The Vezer sequencer (R257 to R293). -/
structure Seq where
  /-- R257 T0 to T64; an unlisted thread holds the Thread defaults -/
  threads : Tab Thread := []
  /-- R276 TVEC, 64 bits; reset: DESIGN CHOICE 0 (log 3) -/
  tvec : BitVec 64 := 0
  /-- R276 TCAUSE, 64 bits; reset: DESIGN CHOICE 0 (log 3) -/
  tcause : BitVec 64 := 0
  /-- R276 TTHR, 64 bits; reset: DESIGN CHOICE 0 (log 3) -/
  tthr : BitVec 64 := 0
  /-- R276 TPC, 64 bits; reset: DESIGN CHOICE 0 (log 3) -/
  tpc : BitVec 64 := 0
  /-- R276 TVAL, 64 bits; reset: DESIGN CHOICE 0 (log 3) -/
  tval : BitVec 64 := 0
  /-- R276 TRET, 64 bits; reset: DESIGN CHOICE 0 (log 3) -/
  tret : BitVec 64 := 0
  /-- R276 TSAVE0 to TSAVE3, 64 bits each; reset: DESIGN CHOICE 0 (log 3) -/
  tsave : Tab (BitVec 64) := []
  /-- R286 SEQ_STATUS.TRAPMODE; reset 0 -/
  trapMode : Bool := false
  /-- R287 SEQ_STATUS.DOUBLE; reset 0 -/
  double : Bool := false
  /-- R286 trap queue, SEQ_STATUS.QUEUED its length; reset empty -/
  queue : List Trap := []
  /-- R286 SEQ_TRAP_LAST and SEQ_TRAP_VAL; reset 0 -/
  last : Trap := {}
  /-- R291 SEQ_STATUS.SWAP, 4 bits; reset 0 -/
  swap : BitVec 4 := 0
  /-- R291 T0's HOTSW slot; reset 0 -/
  swapSlot : Nat := 0
  /-- R290 container address of the swap; reset 0 -/
  swapAddr : BitVec 64 := 0
  /-- R293 SEQ_HOTSW.LAST_CODE, 16 bits; reset 0 -/
  hotCode : BitVec 16 := 0
  /-- R293 SEQ_HOTSW.LAST_CAUSE, 8 bits; reset 0 -/
  hotCause : BitVec 8 := 0
  /-- R293 SEQ_HOTSW.WAIT_US, 16 bits; reset 0x03E8 -/
  hotWait : BitVec 16 := 0x3E8
  /-- R280 R302 issue order of the next DEV; reset 0 -/
  nextOrder : Nat := 0
  deriving DecidableEq, Repr

/-- One posted operation that has not completed (R277 to R282). -/
structure Op where
  /-- R278 issuing thread -/
  thread : Nat := 0
  /-- R278 ticket slot -/
  slot : Nat := 0
  /-- R294 operation number DOP -/
  dop : Nat := 0
  /-- R294 value of gA at issue -/
  a : BitVec 64 := 0
  /-- R294 value of gB at issue -/
  b : BitVec 64 := 0
  /-- R295 named partition, 0 for none -/
  part : Nat := 0
  /-- R302 issue order -/
  order : Nat := 0
  /-- R284 R300 held, waiting for a resource, or running -/
  phase : OpPhase := .run
  /-- progress: bytes, rows, frames or target of the operation -/
  x : Nat := 0
  /-- further progress of the operation -/
  y : Nat := 0
  deriving DecidableEq, Repr

/-- An ICP grant (R240, R331). -/
structure Grant where
  /-- R331 FIRST_PLOT -/
  first : Nat := 0
  /-- R331 LAST_PLOT -/
  last : Nat := 0
  /-- R331 CTXMASK -/
  ctxMask : BitVec 8 := 0
  /-- R331 KEYSLOT -/
  keySlot : Nat := 0
  /-- R331 WBASE -/
  base : Nat := 0
  /-- R331 WLEN -/
  len : Nat := 0
  deriving DecidableEq, Repr

/-- An ICP WRITE in progress (R241 to R243). -/
structure IcpReq where
  /-- R241 partition -/
  part : Nat := 0
  /-- R241 issuing loam port stop -/
  port : Nat := 0
  /-- R241 TAG -/
  tag : BitVec 8 := 0
  /-- R241 logical PLOT -/
  plot : Nat := 0
  /-- R241 CTX -/
  ctx : Nat := 0
  /-- R241 FIRST -/
  first : Nat := 0
  /-- R241 COUNT -/
  count : Nat := 0
  /-- R242 system address of the first frame, with KeyID -/
  addr : Nat := 0
  deriving DecidableEq, Repr

/-- One physical plot and its controller (R130 to R137). -/
structure Plot where
  /-- R130 FAB_PLOT_n.PARTITION, 0 to 64; reset 0 -/
  part : Nat := 0
  /-- R130 FAB_PLOT_n.LOGICAL, 9 bits; reset 0 -/
  logical : Nat := 0
  /-- R131 FAB_PLOT_n.STATE, 3 bits; reset FREE, or MAPPED_OUT from the repair map -/
  state : PlotState := .free
  /-- R136 FAB_PLOT_n.REWIND; reset 0 -/
  rewind : Bool := false
  /-- R118 FAB_PLOT_n.VLDIS, 13 bits; reset 0 -/
  vldis : BitVec 13 := 0
  /-- R118 vertical lanes of this plot disabled by contention; reset none -/
  lanesOff : List Nat := []
  /-- R119 lanes re-enabled by a rewind, watched for its first design cycle; reset none -/
  lanesRearmed : List Nat := []
  /-- R119 lanes the device treats as failed; reset none -/
  lanesFailed : List Nat := []
  /-- R202 transit switch: outbound position 64 × side + 32 × track + position ↦ 1 + inbound position, absent = own edge wire; reset none -/
  transit : Tab Nat := []
  /-- R137 rows not listed hold zero codewords (else unwritten, R129); reset 0 -/
  bmemZero : Bool := false
  /-- R243 the plot leaves the design at the next boundary; reset 0 -/
  icpLeave : Bool := false
  /-- R243 R245 the plot is being reloaded through the ICP; reset 0 -/
  icpLoading : Bool := false
  /-- R243 a REJOIN waits for the boundary hold; reset 0 -/
  icpRejoin : Bool := false
  /-- R243 (context, clod) of frames written since step 1; reset none -/
  icpFrames : List (Nat × Nat) := []
  deriving DecidableEq, Repr

/-- One block-memory row (R120, R128). -/
structure BRow where
  /-- R120 the 80 bits stored: 64 data bits, then 16 check bits C, P and F as the device code has them (R128, R335) -/
  word : BitVec 80 := 0
  deriving DecidableEq, Repr

/-- The fabric: plots, configuration tiers, state slots, block memories (R93 to R153) and the FAB registers. -/
structure Fab where
  /-- R93 R131 the 512 plots; an unlisted plot holds the Plot defaults -/
  plots : Tab Plot := []
  /-- R141 configuration words, key ((n × 8 + context) × 1,024 + clod) × 64 + grain; unlisted zero: after reset PRESUMED zero, as R137 leaves plots (log 7) -/
  kaolin : Tab (BitVec 256) := []
  /-- R141 R339 stored bits of a configuration codeword that have changed since it was written, key 4 × the word's + quarter; reset none -/
  kupsets : Tab (BitVec 80) := []
  /-- R144 active latches, key (n × 1,024 + clod) × 64 + grain; unlisted zero; reset: DESIGN CHOICE 0 (log 3) -/
  active : Tab (BitVec 256) := []
  /-- R144 shadow latches, keys as active; reset: DESIGN CHOICE 0 (log 3) -/
  shadow : Tab (BitVec 256) := []
  /-- R98 R152 state slots, key as kaolin with the slot for the context: bit 0 FFA committed, 1 FFA next, 2 FFB committed, 3 FFB next, 4 parity of the committed values, 5 parity of the next values; reset PRESUMED 0 (log 7) -/
  slots : Tab (BitVec 6) := []
  /-- R120 block-memory rows, key (n × 32 + block) × 1,024 + row; reset unwritten (R129) -/
  bram : Tab BRow := []
  /-- R241 the last response delivered to each issuing loam port, 16 bytes (the model's view of the ports); reset none -/
  icpOut : Tab (List (BitVec 8)) := []
  /-- R134 FAB_GATE_CTRL.GATE_FREE; reset 1 -/
  gateFree : Bool := true
  /-- R134 FAB_GATE_CTRL.GATE_FROZEN; reset 1 -/
  gateFrozen : Bool := true
  /-- R118 FAB_VL_LOG.VALID; reset 0 -/
  vlValid : Bool := false
  /-- R118 FAB_VL_LOG.CONTEXT; reset 0 -/
  vlCtx : BitVec 3 := 0
  /-- R118 FAB_VL_LOG.PLOT; reset 0 -/
  vlPlot : BitVec 9 := 0
  /-- R118 FAB_VL_LOG.LANE; reset 0 -/
  vlLane : BitVec 12 := 0
  /-- R118 FAB_VL_LOG.COUNT; reset 0 -/
  vlCount : BitVec 32 := 0
  /-- R600 FAB_IOBANK_b without VSENSE, 64 bits; unlisted 0x1; reset 0x1 -/
  iobank : Tab (BitVec 64) := []
  /-- R591 R600 FAB_IOBANK_b.VSENSE, 2 bits; unlisted 3; reset sensed: DESIGN CHOICE 3, 1.8 V (log 8) -/
  vccio : Tab Nat := []
  /-- R591 banks whose VCCIO is below its minimum; reset none -/
  vccioLow : List Nat := []
  /-- R174 next row of each region's refresh pass, 0 to 16,383, unlisted 0; reset: DESIGN CHOICE 0 (log 3) -/
  refreshRow : Tab Nat := []
  /-- R176 8-bit refresh tick count of each region; reset: DESIGN CHOICE 0 (log 3) -/
  refreshTicks : Tab (BitVec 8) := []
  /-- R176 tick count, gray-coded through the synchroniser, that each region has seen; reset: DESIGN CHOICE 0 (log 3) -/
  refreshSeen : Tab (BitVec 8) := []
  /-- R176 regions in a catch-up pass; reset none -/
  catchUp : List Nat := []
  /-- R174 R176 band whose tick period governs each region, 0 A to 3 trip; reset: DESIGN CHOICE A (log 3) -/
  refreshBand : Tab Nat := []
  deriving DecidableEq, Repr

/-- DONE_N, SYSFAULT_N and start rounds (R247 to R254). -/
structure Start where
  /-- R247 FAB_START.HOLD; reset 1 -/
  hold : Bool := true
  /-- R249 FAB_START.LINE, filtered level; reset 0 -/
  line : Bool := false
  /-- R249 FAB_START.WAITING; reset 0 -/
  waiting : Bool := false
  /-- R250 FAB_START.FAILED; reset 0 -/
  failed : Bool := false
  /-- R249 FAB_START.STARTS, 8 bits; reset 0 -/
  starts : BitVec 8 := 0
  /-- R249 FAB_START.T_START, 32 bits; reset 0 -/
  tStart : BitVec 32 := 0
  /-- R249 TH, ring time at which the line had been high 1 µs; reset none -/
  th : Option Nat := none
  /-- R249 TS, the agreed start time; reset none -/
  ts : Option Nat := none
  /-- R250 start-group partitions PLACED at step 2; reset none -/
  group : List Nat := []
  /-- R253 FAB_SYSFAULT.LINE, filtered level of SYSFAULT_N; reset 0 -/
  sfLine : Bool := false
  /-- R253 FAB_SYSFAULT.SEEN; reset 0 -/
  sfSeen : Bool := false
  /-- R252 FAB_SYSFAULT.FW_ASSERT and bit 15 of DRIVE; reset 0 -/
  sfFw : Bool := false
  /-- R252 FAB_SYSFAULT.SCRUB_EN; reset 0 -/
  sfScrubEn : Bool := false
  /-- R252 FAB_SYSFAULT.CENSUS_EN; reset 0 -/
  sfCensusEn : Bool := false
  /-- R252 census cause in force, bit 13 of DRIVE; reset 0 -/
  sfCensus : Bool := false
  /-- R252 scrubber-fallback cause in force, bit 14 of DRIVE; reset 0 -/
  sfScrub : Bool := false
  deriving DecidableEq, Repr

/-- PLC_MIGR_CTRL as a partition's period took it (R215, R220). -/
structure MigrSet where
  /-- EN -/
  en : Bool := true
  /-- PERIOD -/
  period : BitVec 16 := 0x400
  /-- MAX_PAGES -/
  maxPages : BitVec 8 := 8
  /-- HOT -/
  hot : BitVec 16 := 0x40
  deriving DecidableEq, Repr

/-- The placer and the PLC block (R199 to R220). -/
structure Plc where
  /-- R208 PLC_CTRL.W_THERM; reset 0x04 -/
  wTherm : BitVec 8 := 4
  /-- R207 PLC_CTRL.IMPROVE; reset 0x04 -/
  improve : BitVec 8 := 4
  /-- R220 PLC_STATUS.LAST_PART; reset 0 -/
  lastPart : Nat := 0
  /-- R220 PLC_STATUS.LAST_CODE; reset 0 -/
  lastCode : BitVec 16 := 0
  /-- R220 PLC_STATUS.LAST_TIME_US; reset 0 -/
  lastTime : BitVec 32 := 0
  /-- R210 PLC_STATUS.BUSY with the running search; reset idle -/
  search : Option Search := none
  /-- R215 PLC_MIGR_CTRL.EN; reset 1 -/
  migrEn : Bool := true
  /-- R215 PLC_MIGR_CTRL.PERIOD; reset 0x0400 -/
  period : BitVec 16 := 0x400
  /-- R215 PLC_MIGR_CTRL.MAX_PAGES; reset 0x08 -/
  maxPages : BitVec 8 := 8
  /-- R215 PLC_MIGR_CTRL.HOT; reset 0x0040 -/
  hot : BitVec 16 := 0x40
  /-- R220 PLC_MIGR_STATUS.PROMOTED; reset 0 -/
  promoted : BitVec 32 := 0
  /-- R220 PLC_MIGR_STATUS.DEMOTED; reset 0 -/
  demoted : BitVec 32 := 0
  /-- R220 PLC_MOVE.PART; reset 0 -/
  movePart : Nat := 0
  /-- R220 PLC_MOVE.LOGICAL; reset 0 -/
  moveLogical : Nat := 0
  /-- R220 PLC_MOVE.FROM; reset 0 -/
  moveFrom : Nat := 0
  /-- R220 PLC_MOVE.TO; reset 0 -/
  moveTo : Nat := 0
  /-- R220 PLC_MOVE.HOLD_US; reset 0 -/
  moveHold : BitVec 21 := 0
  /-- R217 migrations between steps 1 and 6, PLC_MOVE.BUSY; reset none -/
  migs : List Mig := []
  /-- R215 accesses of each DDR5 front end since its last sample, 0 to 15; reset: DESIGN CHOICE 0 (log 3) -/
  sampled : Tab Nat := []
  /-- R215 page tables of the DDR5 front ends: page number and count, key 4,096 × channel + 16 × set + entry; an unlisted entry is empty; reset none -/
  pages : Tab (Nat × Nat) := []
  deriving DecidableEq, Repr

/-- An accepted head (R224) and the head tables it bound (R187 to R192). -/
structure Head where
  /-- R224 SHA-384 of the authenticated message -/
  digest : BitVec 384 := 0
  /-- R179 container address it was accepted from -/
  addr : Nat := 0
  /-- R181 PLOTS -/
  plots : Nat := 0
  /-- R181 CTX, 2-bit code -/
  ctx : Nat := 0
  /-- R184 frame runs -/
  runs : List Run := []
  /-- R184 FRAMES_DIGEST -/
  framesDigest : BitVec 384 := 0
  /-- R182 directory -/
  secs : List Sec := []
  /-- R184 digest entries: directory index and digest -/
  secDigests : List (Nat × BitVec 384) := []
  /-- R199 head tables 3 to 7 by directory index, as hashed at order 9 -/
  tables : List (Nat × List (BitVec 8)) := []
  /-- R187 pin table: pin and SAFE -/
  pins : List (Nat × Nat) := []
  deriving DecidableEq, Repr

/-- Where a memory model lies (R211, R214). -/
structure ModelAt where
  /-- R192 model number -/
  model : Nat := 0
  /-- R192 PORTS -/
  ports : Nat := 1
  /-- R192 bytes per access -/
  width : Nat := 8
  /-- R192 FLAGS.RDONLY -/
  rdonly : Bool := false
  /-- R192 FLAGS.JOURNAL -/
  journal : Bool := false
  /-- R192 FLAGS.NOMIGR -/
  nomigr : Bool := false
  /-- R192 KeyID of KEYSLOT -/
  keyid : Nat := 0
  /-- R192 SIZE -/
  size : Nat := 0
  /-- R211 1 block memory, 2 marl, 3 DDR5 -/
  tier : Nat := 0
  /-- R211 BASE -/
  base : Nat := 0
  /-- R361 carrier block of each port: (logical plot, block) -/
  carriers : List (Nat × Nat) := []
  /-- R211 blocks of a block-memory-resident model -/
  blocks : List (Nat × Nat) := []
  /-- R215 promoted pages: page of the model ↦ system address in marl -/
  pages : Tab Nat := []
  deriving DecidableEq, Repr

/-- A committed placement (R207, R223). -/
structure Placement where
  /-- R223 digest of the FULL head placed -/
  head : BitVec 384 := 0
  /-- R211 physical index of each logical plot -/
  map : List Nat := []
  /-- R154 schedule as installed -/
  sched : Sched := {}
  /-- R218 compiled STEPS of each entry -/
  compiled : List Nat := []
  /-- R214 models placed -/
  models : List ModelAt := []
  /-- R191 pairings with their lane maps -/
  pairs : List Pair := []
  /-- R192 free-block masks by logical plot -/
  freeMask : List Nat := []
  /-- R188 nets -/
  nets : List Net := []
  /-- R211 route length d of each net -/
  netLens : List Nat := []
  /-- R369 journal base and size -/
  jrnl : Option (Nat × Nat) := none
  deriving DecidableEq, Repr

/-- An IMGLD in progress (R231). -/
structure Load where
  /-- R230 KIND -/
  partial_ : Bool := false
  /-- R226 the partition state the load was entered from -/
  prior : Nat := 1
  /-- R229 container address -/
  addr : Nat := 0
  /-- R231 next frame run -/
  run : Nat := 0
  /-- R231 bytes of the FRAMES section read so far -/
  hash : List (BitVec 8) := []
  /-- R231 frames written -/
  frames : Nat := 0
  /-- R232 block-memory row keys written -/
  rows : List Nat := []
  /-- R305 ticket of the load -/
  thread : Nat := 0
  /-- R305 ticket of the load -/
  slot : Nat := 0
  deriving DecidableEq, Repr

/-- Port state of one block memory within a design cycle (R125 to R127). -/
structure Bram2 where
  /-- R125 read data presented at port A -/
  qa : BitVec 64 := 0
  /-- R125 read data presented at port B -/
  qb : BitVec 64 := 0
  /-- R125 read of the last microcycle, delivered at m + 2, port A -/
  da : Option (BitVec 64) := none
  /-- as da, port B -/
  db : Option (BitVec 64) := none
  /-- R127 pending DESIGN write of port A -/
  pa : Option BWrite := none
  /-- R127 pending DESIGN write of port B -/
  pb : Option BWrite := none
  /-- R126 MICRO write of port A sampled in the last microcycle -/
  ma : Option BWrite := none
  /-- R126 MICRO write of port B sampled in the last microcycle -/
  mb : Option BWrite := none
  deriving DecidableEq, Repr

/-- One memory-model port within a design cycle (R362 to R365). -/
structure MPort where
  /-- R364 response presented -/
  resp : List (BitVec 8) := []
  /-- R161 response arrived and held for presentation -/
  next : Option (List (BitVec 8)) := none
  /-- R161 read requested and not yet answered: INDEX -/
  req : Option Nat := none
  /-- R364 POISON of the presented response -/
  poison : Bool := false
  /-- R364 POISON of the held response -/
  nextPoison : Bool := false
  /-- R364 RANGE -/
  range : Bool := false
  /-- R365 DROPPED, 8 bits -/
  dropped : Nat := 0
  /-- R365 R384 accesses dropped in this design cycle that event 0x0320 reports -/
  lost : Nat := 0
  /-- R365 reads in this design cycle -/
  reads : Nat := 0
  /-- R365 writes in this design cycle -/
  writes : Nat := 0
  /-- R364 BEAT sampled last microcycle -/
  beat : Nat := 0
  /-- R364 BEAT sampled in the microcycle before -/
  beat1 : Nat := 0
  /-- R363 write whose later beats are still to come -/
  cur : Option PartialWrite := none
  deriving DecidableEq, Repr

/-- The schedule engine of a partition and its design cycle in progress (R154 to R167). -/
structure Engine where
  /-- R160 a design cycle is in progress -/
  running : Bool := false
  /-- R160 entry e next to start or in its dwell -/
  entry : Nat := 0
  /-- R160 the dwell of entry e has started and not ended -/
  inDwell : Bool := false
  /-- R170 faults found in the design cycle, the first found first; not empty: the cycle is faulted -/
  faults : List FaultRec := []
  /-- R169 faults found in the refill of entry 0, for the next design cycle -/
  nextFaults : List FaultRec := []
  /-- R147 the shadow latches hold the context of the next dwell to start -/
  filled : Bool := false
  /-- R119 R380 a fault of the cycle allows no automatic rewind -/
  noAuto : Bool := false
  /-- R163 USERCLK edges since the previous boundary: pin and falling -/
  edges : List (Nat × Bool) := []
  /-- R160 an edge on PACE_PIN since the start of the previous design cycle -/
  paceEdge : Bool := false
  /-- R125 block-memory ports, key logical plot × 32 + block -/
  brams : Tab Bram2 := []
  /-- R127 block-memory rows that MICRO writes of this design cycle changed, as they stood at its start; keys as bram -/
  rowStart : Tab (Option BRow) := []
  /-- R362 model ports, key 4 × model + port -/
  ports : Tab MPort := []
  /-- R366 model writes of this design cycle, as sampled -/
  writes : List ModelWrite := []
  /-- R366 model writes being applied in order 1 -/
  applied : List ModelWrite := []
  /-- R487 presented IN value by binding -/
  cutIn : Tab (BitVec 128) := []
  /-- R490 inbound frames accepted for this and the next design cycle -/
  cutBuf : List CutFrame := []
  /-- R503 X and Y lane samples of this design cycle, key 64 × entry + lane -/
  probes : Tab Bool := []
  /-- R367 a read-only write was discarded in this design cycle -/
  roDrop : Bool := false
  /-- R291 the partition is held at order 7 for a live swap -/
  held : Bool := false
  deriving DecidableEq, Repr

/-- A probe selection in force (R504). -/
structure Selection where
  /-- R504 TMODE -/
  tmode : Nat := 0
  /-- R504 TKEYSLOT -/
  keySlot : Nat := 0
  /-- R504 TSTART -/
  tstart : Bool := false
  /-- R504 PODIV -/
  podiv : Nat := 0
  /-- R504 POMASK -/
  pomask : BitVec 32 := 0
  /-- R504 POMAP: entry, lane, STROBE -/
  pomap : List (Nat × Nat × Bool) := []
  /-- R504 PMU entries -/
  entries : List PmuEntry := []
  deriving DecidableEq, Repr

/-- Trace of a partition (R508 to R510). -/
structure Trace where
  /-- R510 OBS_TSTAT_p.TSTATE: 0 OFF, 1 WAIT, 2 ON, 3 POST; reset 0 -/
  state : Nat := 0
  /-- R510 OBS_TSTAT_p.WRAPPED; reset 0 -/
  wrapped : Bool := false
  /-- R510 OBS_TSTAT_p.LOST; reset 0 -/
  lost : BitVec 16 := 0
  /-- R510 OBS_TSTAT_p.WPTR; reset 0 -/
  wptr : Nat := 0
  /-- R510 bytes written since trace started; reset 0 -/
  written : Nat := 0
  /-- R509 the next record carries START; reset 0 -/
  first : Bool := false
  /-- R510 records lost since the last record written; reset 0 -/
  lostNow : Nat := 0
  /-- R523 records lost since the last 0x0C02; reset 0 -/
  lostEvt : Nat := 0
  /-- R510 event time of the last 0x0C02; reset none -/
  lostTime : Option (BitVec 56) := none
  /-- R510 high-water mark HW; reset 0 -/
  hw : Nat := 0
  /-- R513 records still to write in POST; reset 0 -/
  post : Nat := 0
  deriving DecidableEq, Repr

/-- A completed or running capture (R314 to R316, R515 to R518). -/
structure Snap where
  /-- R314 area address with KeyID -/
  addr : Nat := 0
  /-- R515 SEQ -/
  seq : Nat := 0
  /-- R515 CYCLE -/
  cycle : Nat := 0
  /-- R314 SNAP ticket, 65 for a trip capture -/
  thread : Nat := 0
  /-- R314 SNAP ticket -/
  slot : Nat := 0
  /-- R514 area size in bytes -/
  size : Nat := 0
  /-- R376, R384 line of the area whose partial write was discarded -/
  bad : Option Nat := none
  deriving DecidableEq, Repr

/-- One partition (R221 to R256) with everything it owns. -/
structure Part where
  /-- R225 FAB_PART_p.STATE, 3 bits; reset NONE -/
  state : PState := .none
  /-- R221 FAB_PART_p.PLOTS; reset 0 -/
  plots : Nat := 0
  /-- R221 FAB_PART_p.CTX, 2-bit code; reset 0 -/
  ctx : Nat := 0
  /-- R221 KeyID set by slot, 0 empty; reset empty -/
  keys : List Nat := []
  /-- R221 marl allocation: base and bytes; reset none -/
  marl : Option (Nat × Nat) := none
  /-- R221 DDR5 allocation: base and bytes; reset none -/
  ddr : Option (Nat × Nat) := none
  /-- R221 FAB_PART_p.BANKS; reset 0 -/
  banks : BitVec 18 := 0
  /-- R221 FAB_PART_p.REQSIG; reset 0 -/
  reqSig : Bool := false
  /-- R221 FAB_PART_p.START; reset 0 -/
  startGrp : Bool := false
  /-- R221 FAB_PART_p.EXEMPT; reset 0 -/
  exempt : Bool := false
  /-- R228 HALTED by a seal halt; reset 0 -/
  sealHalted : Bool := false
  /-- R226 what DRAINING leads to: 1 PARTITION reset, 2 PART release; reset 0 -/
  drainTo : Nat := 0
  /-- R308 automatic rewind; reset 0 -/
  autoRw : Bool := false
  /-- R224 accepted FULL head, FAB_PART_p.HEAD_FULL; reset none -/
  headFull : Option Head := none
  /-- R224 accepted PARTIAL head, FAB_PART_p.HEAD_PART; reset none -/
  headPart : Option Head := none
  /-- R236 FAB_PART_p.PINS_KNOWN; reset 0 -/
  pinsKnown : Bool := false
  /-- R235 the pins are in their safe states; reset 0 -/
  safe : Bool := false
  /-- R223 the placement held, FAB_PART_p.PLACEMENT; reset none -/
  placement : Option Placement := none
  /-- R240 the ICP grant, FAB_PART_p.ICP_GRANT; reset none -/
  grant : Option Grant := none
  /-- R240 the grant is being revoked; reset 0 -/
  grantDrain : Bool := false
  /-- R325 image key; reset none -/
  imageKey : Option (BitVec 384) := none
  /-- R325 tenant key hashes, RSA then SLH-DSA; reset none -/
  hashes : Option (BitVec 384 × BitVec 384) := none
  /-- R231 the IMGLD in progress, PVF_LOAD.ACTIVE; reset none -/
  load : Option Load := none
  /-- R256 PVF_LOAD.LAST_CODE; reset 0 -/
  loadCode : BitVec 16 := 0
  /-- R256 PVF_LOAD.FRAMES; reset 0 -/
  loadFrames : BitVec 32 := 0
  /-- R256 PVF_ICP.LAST_STATUS; reset 0 -/
  icpStatus : BitVec 8 := 0
  /-- R256 PVF_ICP.LAST_TAG; reset 0 -/
  icpTag : BitVec 8 := 0
  /-- R256 PVF_ICP.FRAMES; reset 0 -/
  icpFrames : BitVec 32 := 0
  /-- R548 recorded digest of each logical plot; reset none -/
  digests : Tab (BitVec 256) := []
  /-- R497 PVF_DIGEST_n, the current digest root; reset 0 -/
  root : BitVec 256 := 0
  /-- R548 the root is comparable for census; reset 0 -/
  rooted : Bool := false
  /-- R154 the schedule engine -/
  eng : Engine := {}
  /-- R164 PVF_CYCLE.CYCLE, design cycle number; reset 0 -/
  cycle : BitVec 64 := 0
  /-- R165 pending freeze causes; reset none -/
  freeze : List Freeze := []
  /-- R309 target of the count in force; reset none -/
  count : Option Nat := none
  /-- R309 ticket of the STEP in force; reset none -/
  stepOp : Option (Nat × Nat) := none
  /-- R314 snapshots requested and not captured; reset none -/
  snapReq : List Snap := []
  /-- R517 captures in progress; reset none -/
  capture : List Snap := []
  /-- R315 R514 the last two completed captures, latest first; reset none -/
  snaps : List Snap := []
  /-- R315 the last valid snapshot; reset none -/
  lastSnap : Option Snap := none
  /-- R515 capture count; reset 0 -/
  capSeq : Nat := 0
  /-- R516 capture count at the last invalidating event; reset 0 -/
  invSeq : Nat := 0
  /-- R517 OBS_SNAP_p.LAST_US; reset 0 -/
  snapUs : BitVec 16 := 0
  /-- R519 a rewind in progress; reset none -/
  rewinding : Option Rewind := none
  /-- R170 R171 plots where the configuration faults were found that froze the partition last -/
  faultPlots : List Nat := []
  /-- R119 R170 plots that the scrubber checks before a rewind -/
  scrubPlots : List Nat := []
  /-- R171 physical plots whose fault led to an automatic rewind, with the design cycles left in which a second fault ends that; reset none -/
  lastAuto : Tab Nat := []
  /-- R170 step 4 scrub of the faulted plot is running; reset 0 -/
  scrubbing : Bool := false
  /-- R170 an automatic rewind returns it to the run it was making; reset 0 -/
  resume : Bool := false
  /-- R504 the selection in force; reset none -/
  sel : Option Selection := none
  /-- R322 selections waiting for the boundary, with their tickets; reset none -/
  selNext : List (Selection × Nat × Nat) := []
  /-- R322 trigger programs waiting for the boundary, with their tickets; reset none -/
  trigNext : List (List (Nat × List TrigState) × Nat × Nat) := []
  /-- R510 trace state -/
  trace : Trace := {}
  /-- R385 MEM_JSTAT_p.USED_KIB as bytes; reset 0 -/
  jUsed : Nat := 0
  /-- R372 MEM_JSTAT_p.FULL; reset 0 -/
  jFull : Bool := false
  /-- R370 lines recorded in this epoch: (model, line); reset none -/
  jLines : List (Nat × Nat) := []
  /-- R385 MEM_JRNL_p.SIZE_MIB; reset 0 -/
  jSize : BitVec 16 := 0
  /-- R220 page migration settings of the partition's period; reset: those of PLC_MIGR_CTRL -/
  migr : MigrSet := {}
  /-- R215 design cycles of the period so far; reset 0 -/
  migrCycles : Nat := 0
  /-- R215 pages waiting for promotion: (model, page); reset none -/
  promote : List (Nat × Nat) := []
  /-- R215 counts read in the last period: (model, page, count); reset none -/
  pageCounts : List (Nat × Nat × Nat) := []
  /-- R569 DCYC increment not yet sent; reset 0 -/
  dcycInc : Nat := 0
  /-- R569 PLOTMS increment not yet sent; reset 0 -/
  plotmsInc : Nat := 0
  /-- R553 REL_PART_p.PATROL; reset 0 -/
  patrol : Bool := false
  /-- R549 damaged logical plots, REL_PART_p.DAMAGED and DPLOT; reset none -/
  damaged : List Nat := []
  /-- R548 REL_PART_p.CLEAN_CYCLE; reset 0 -/
  cleanCycle : BitVec 48 := 0
  /-- R508 OBS_TALLOC_p, 64 bits; reset 0 -/
  talloc : BitVec 64 := 0
  /-- R506 OBS_TOWN_p.POUT; reset 0 -/
  pout : BitVec 32 := 0
  /-- R511 OBS_TOWN_p.TRIGS; reset 0 -/
  trigs : BitVec 16 := 0
  /-- R540 THM_TSNAP_p, 64 bits; reset 0 -/
  tsnap : BitVec 64 := 0
  /-- R498 RING_EXP_p_n, the expected root, 0 = none; reset 0 -/
  exp : BitVec 256 := 0
  /-- R482 RING_GROUP_p.CUT; reset 0 -/
  cut : Bool := false
  /-- R482 RING_GROUP_p.GROUP; reset 0 -/
  group : BitVec 8 := 0
  /-- R482 RING_GROUP_p.GEN; reset 0 -/
  gen : BitVec 8 := 0
  /-- R490 RING_GROUP_p.STALE; reset 0 -/
  stale : BitVec 16 := 0
  /-- R490 event time of the last 0x0614; reset none -/
  staleTime : Option (BitVec 56) := none
  deriving DecidableEq, Repr

/-- Drive of one user pin (R222, R236). -/
structure PinOut where
  /-- R222 R236 what the output does; reset weak pull-down (R222) -/
  drive : Drive := .pulldown
  /-- R236 the design has driven the pin (HOLD rule); reset 0 -/
  driven : Bool := false
  deriving DecidableEq, Repr

/-- The error bucket of one class (R378, R379). -/
structure Bucket where
  /-- R379 MEM_BUCKET_n.CORRECTED; reset 0 -/
  corrected : BitVec 32 := 0
  /-- R379 MEM_BUCKET_n.LATCH; reset 0 -/
  latch : Bool := false
  /-- R379 MEM_BUCKET_n.OVERFLOWS; reset 0 -/
  overflows : BitVec 15 := 0
  /-- R379 MEM_BUCKET_n.LEVEL; reset 0 -/
  level : BitVec 16 := 0
  /-- R379 locations counted in the current leak interval, at most 16; reset none -/
  recent : List Nat := []
  deriving DecidableEq, Repr

/-- One DDR5 channel (R349 to R351, R385, R410). -/
structure Chan where
  /-- R385 MEM_DDR_CH_c.STATE; reset 0 ABSENT -/
  state : MState := .absent
  /-- R385 RATE, 1 = 5600 MT/s; reset 0 -/
  rate : Bool := false
  /-- R385 TDS; reset 0 -/
  tds : Bool := false
  /-- R385 DIMMS; reset 0 -/
  dimms : Nat := 0
  /-- R385 INSTALLED in GiB; reset 0 -/
  gib : Nat := 0
  /-- R385 R410 USER in 64 MiB units, IME_LAYOUT_c.USER; reset 0 -/
  user : Nat := 0
  /-- R351 BASE in 64 MiB units; reset 0 -/
  base : Nat := 0
  /-- R351 the channel is mapped; reset 0 -/
  mapped : Bool := false
  /-- R410 IME_LAYOUT_c.VERIFIED; reset 0 -/
  verified : Bool := false
  /-- R396 R410 IME_LAYOUT_c.LEVELS; reset 0 -/
  levels : Nat := 0
  /-- R410 IME_LAYOUT_c.CARVE; reset 0 -/
  carve : Nat := 0
  /-- R400 IME_STATUS.META_READY bit c; reset 0 -/
  metaReady : Bool := false
  /-- R396 Kt, drawn when the metadata is initialised and zeroised by a seal halt (R418); reset none: DESIGN CHOICE 0 (log 3) -/
  treeKey : BitVec 256 := 0
  /-- R562 a RESTORE is training the channel; reset 0 -/
  restoring : Bool := false
  /-- R562 PERSIST of the VACATE in progress; reset 0 -/
  persist : Bool := false
  /-- R358 a retraining pause holds its requests; reset 0 -/
  pause : Bool := false
  /-- R358 training left to complete at the next pause; reset 0 -/
  cutTrain : Bool := false
  deriving DecidableEq, Repr

/-- A hardpan row buffer: 1 KiB of plaintext with its carry codes (R346). -/
structure RowBuf where
  /-- the row -/
  data : List (BitVec 8) := []
  /-- the carry codes of its 64-byte units -/
  codes : List (BitVec 32) := []
  deriving DecidableEq, Repr

/-- One marl tower (R341 to R346, R385). -/
structure Tower where
  /-- R385 MARL_TOWER_m.STATE, 3 bits; reset 0, not used (log 9) -/
  state : MState := .absent
  /-- R385 MARL_TOWER_m.BAND; reset 0 -/
  band : Nat := 0
  /-- R385 MARL_TOWER_m.DIES_OUT; reset from the repair map -/
  diesOut : BitVec 12 := 0
  /-- R385 MARL_STAT_m.NREF; reset 0 -/
  nref : BitVec 32 := 0
  /-- R385 MARL_STAT_m.ROWMOVES; reset 0 -/
  rowMoves : BitVec 32 := 0
  /-- R346 row buffers, four to a pseudo-channel, key 4 × pseudo-channel + buffer; reset: DESIGN CHOICE empty (log 3) -/
  rowBufs : Tab RowBuf := []
  /-- R358 a retraining pause holds its requests; reset 0 -/
  pause : Bool := false
  /-- R358 training left to complete at the next pause; reset 0 -/
  cutTrain : Bool := false
  deriving DecidableEq, Repr

/-- Marl, DDR5 and sequencer memory with the MEM and MARL blocks (R335 to R385). -/
structure Mem where
  /-- R261 R342 R351 bytes by system address (sequencer memory from 0x0310_0000_0000), strictly rising; an unlisted byte has no value (R375; log 10) -/
  cells : List Cell := []
  /-- R377 lines (address ÷ 64) stored as poisoned; reset none -/
  poison : List Nat := []
  /-- R335 R339 stored bits of a codeword that have changed since it was written, by system address ÷ 8; reset none -/
  upsets : Tab (BitVec 80) := []
  /-- R423 bits of a stored carry code that have changed since it was written, by line (address ÷ 64); reset none -/
  ccUpsets : Tab (BitVec 32) := []
  /-- R390 R393 key under which each 64-byte line was written: KeyID × 2^32 + generation, absent = PLAIN (log 11); reset none -/
  tags : Tab Nat := []
  /-- R380 MEM_UE_POLICY.POL, 18 bits; reset from keep 480 -/
  uePolicy : BitVec 18 := 0
  /-- R379 MEM_BUCKET_CFG.CAPACITY; reset from keep 481, 64 when 0 -/
  capacity : BitVec 16 := 64
  /-- R379 MEM_BUCKET_CFG.LEAK_MS; reset from keep 481, 1,000 when 0 -/
  leakMs : BitVec 16 := 1000
  /-- R382 MEM_UE_LOG.VALID; reset 0 -/
  ueValid : Bool := false
  /-- R382 MEM_UE_LOG.CLASS; reset 0 -/
  ueClass : BitVec 5 := 0
  /-- R382 MEM_UE_LOG.KIND; reset 0 -/
  ueKind : BitVec 2 := 0
  /-- R382 MEM_UE_LOG.ADDR; reset 0 -/
  ueAddr : BitVec 48 := 0
  /-- R355 MEM_NREF.K_DDR5; reset from keep 482, 9 when 0 -/
  kDdr : BitVec 4 := 9
  /-- R355 MEM_NREF.K_MARL; reset from keep 482, 9 when 0 -/
  kMarl : BitVec 4 := 9
  /-- R358 MEM_RETRAIN.MAX_NS; reset 0 -/
  maxNs : BitVec 16 := 0
  /-- R358 MEM_RETRAIN.INTERVAL_MS; reset from keep 482, 128 when 0 -/
  retrainMs : BitVec 16 := 128
  /-- R379 MEM_BUCKET_n, n 0 to 17; see Bucket -/
  buckets : Tab Bucket := []
  /-- R349 the eight channels; see Chan -/
  chans : Tab Chan := []
  /-- R341 the four towers; see Tower -/
  towers : Tab Tower := []
  /-- R359 marl and DDR5 are in self-refresh; reset 0 -/
  selfRefresh : Bool := false
  /-- R357 refresh commands issued by unit 0 to 11, a count of this model; reset 0 -/
  refreshes : Tab Nat := []
  deriving DecidableEq, Repr

/-- One KeyID (R388, R389, R412). -/
structure KeyId where
  /-- R412 IME_KEYID_k.STATE; reset FREE, KeyID 0 ACTIVE -/
  state : KState := .free
  /-- R389 IME_KEYID_k.MODE; reset 0 PLAIN -/
  mode : KMode := .plain
  /-- R325 the 64 bytes of key material; reset none: zero after zeroising (R413) -/
  key : BitVec 512 := 0
  /-- keys installed so far, naming the key that wrote a line (log 11); reset 0 -/
  gen : Nat := 0
  /-- R413 step 4 has begun; reset 0 -/
  drained : Bool := false
  /-- R327 ticket of the retirement -/
  thread : Nat := 0
  /-- R327 ticket of the retirement -/
  slot : Nat := 0
  /-- R413 accesses aborted by the drain timeout -/
  aborted : Nat := 0
  deriving DecidableEq, Repr

/-- The counter block of one 4 KiB page (R394). -/
structure Counter where
  /-- R394 MAJOR, 64 bits; written zero by the initialisation (R400) -/
  major : Nat := 0
  /-- R394 the 64 minor counters, 7 bits each; zero by the initialisation -/
  minors : Tab Nat := []
  deriving DecidableEq, Repr

/-- The sealing state of one Norak port (R429 to R433). -/
structure NkPort where
  /-- R435 IME_NK_PORT_n.STATE; reset 0 DOWN -/
  state : NkState := .down
  /-- R435 IME_NK_PORT_n.EPOCH; reset 0 -/
  epoch : BitVec 8 := 0
  /-- R435 IME_NK_PORT_n.TAGFAIL; reset 0 -/
  tagFail : BitVec 16 := 0
  /-- R435 IME_NK_PORT_n.HANDSHAKES; reset 0 -/
  handshakes : BitVec 16 := 0
  /-- R433 IME_NK_PEER_n.SERIAL; reset 0, loaded from keep 258 + 2n -/
  peer : BitVec 64 := 0
  /-- R435 IME_NK_SEEN_n; reset 0 -/
  seen : BitVec 64 := 0
  /-- R430 HELLO_I held; reset none -/
  helloI : Option Hello := none
  /-- R430 HELLO_R held; reset none -/
  helloR : Option Hello := none
  /-- R430 own AUTH sent; reset 0 -/
  authOwn : Bool := false
  /-- R430 peer AUTH verified; reset none -/
  authPeer : Option AuthMsg := none
  /-- R431 traffic secret of sent frames; reset none -/
  tx : Option (BitVec 384) := none
  /-- R431 traffic secret of received frames; reset none -/
  rx : Option (BitVec 384) := none
  /-- R432 epoch bit of the frames received; reset: DESIGN CHOICE 0 (log 3) -/
  rxEpoch : Bool := false
  /-- R432 previous receive secret, kept 1 ms; reset none -/
  rxOld : Option (BitVec 384) := none
  /-- R432 event time at which that secret was replaced; reset 0 -/
  rxOldTime : BitVec 56 := 0
  /-- R432 next sequence number sent; reset 0 -/
  txSeq : Nat := 0
  /-- R432 next sequence number expected; reset 0 -/
  rxSeq : Nat := 0
  /-- R433 event times of recent tag failures; reset none -/
  fails : List (BitVec 56) := []
  deriving DecidableEq, Repr

/-- The inline memory encryption engines and the IME block (R386 to R435). -/
structure Ime where
  /-- R417 IME_STATUS.SEALED, a seal halt stands; reset 0 -/
  sealed : Bool := false
  /-- R419 IME_SEAL.CAUSE; reset 0 -/
  cause : BitVec 16 := 0
  /-- R419 IME_SEAL.EXTRA; reset 0 -/
  extra : BitVec 16 := 0
  /-- R432 IME_CTRL.REKEY_S; reset 0x0258 -/
  rekeyS : BitVec 16 := 0x258
  /-- R413 IME_CTRL.RETIRE_US; reset 0x03E8 -/
  retireUs : BitVec 16 := 0x3E8
  /-- R435 IME_BIND.GRANULE; reset 0 -/
  bindSel : BitVec 15 := 0
  /-- R401 granule ↦ VERIFIED KeyID bound; reset unbound -/
  granules : Tab Nat := []
  /-- R435 IME_CCACHE.HITS; reset 0 -/
  ccHits : BitVec 32 := 0
  /-- R435 IME_CCACHE.MISSES; reset 0 -/
  ccMisses : BitVec 32 := 0
  /-- R435 IME_MCACHE.HITS; reset 0 -/
  mcHits : BitVec 32 := 0
  /-- R435 IME_MCACHE.MISSES; reset 0 -/
  mcMisses : BitVec 32 := 0
  /-- R395 IME_REENC.PAGES; reset 0 -/
  reenc : BitVec 32 := 0
  /-- R425 IME_CC_STAT.PCIE; reset 0 -/
  ccPcie : BitVec 12 := 0
  /-- R425 IME_CC_STAT.NORAK; reset 0 -/
  ccNorak : BitVec 12 := 0
  /-- R425 IME_CC_STAT.FABRIC; reset 0 -/
  ccFabric : BitVec 12 := 0
  /-- R425 IME_CC_STAT.SEQ; reset 0 -/
  ccSeq : BitVec 12 := 0
  /-- R425 IME_CC_STAT.MEMORY; reset 0 -/
  ccMemory : BitVec 12 := 0
  /-- R388 IME_KEYID_k for k 1 to 63; KeyID 0 is wired ACTIVE PLAIN -/
  keyids : Tab KeyId := []
  /-- R394 counter blocks by physical page: channel × 2^32 + page; zero by R400 -/
  counters : Tab Counter := []
  /-- R398 counter cache: entry ↦ counter block or tree node held, as nodeKey names it; reset empty -/
  ccLines : Tab Nat := []
  /-- R398 MAC cache: entry ↦ MAC-area line held, as macKey names it; reset empty -/
  mcLines : Tab Nat := []
  /-- R398 dirty MAC-area lines of the MAC cache; reset empty -/
  mcDirty : List Nat := []
  /-- R398 dirty counter blocks and tree nodes ↦ their 64 bytes in DDR5, not yet written back; reset none -/
  lagging : Tab (List Byte) := []
  /-- R396 metadata initialisations so far, naming the tree keys Kt drawn; reset 0 -/
  treeSeed : Nat := 0
  /-- R415 IME_RIGHTS_RD_n, n 1 to 66, as written; reset 0x1 for n = 2, 0 otherwise; entry 0 wired to ones -/
  rightsRd : Tab (BitVec 64) := []
  /-- R415 IME_RIGHTS_WR_n, as rightsRd -/
  rightsWr : Tab (BitVec 64) := []
  /-- R429 the four Norak ports' sealing; see NkPort -/
  ports : Tab NkPort := []
  /-- R412 event time of the last 0x0411 by (KeyID × 128 + master); reset none -/
  lastInactive : Tab (BitVec 56) := []
  deriving DecidableEq, Repr

/-- One ring stop (R436, R451 to R456). -/
structure NocStop where
  /-- R466 NOC_STOP_s.STATE; reset ON for 0 to 36, ABSENT for 37 to 39 -/
  state : StopState := .on
  /-- R466 NOC_STOP_s.FORCED; reset 0 -/
  forced : Bool := false
  /-- R466 NOC_STOP_s.ABORTED; reset 0 -/
  aborted : BitVec 16 := 0
  /-- R454 CMD OFF was accepted and its fence handshake runs (R451 step 4); reset 0 -/
  offReq : Bool := false
  deriving DecidableEq, Repr

/-- One arbiter instance (R457 to R462). -/
structure ArbCfg where
  /-- R462 NOC_ARB_CFG_i.WD_CYCLES; reset 0x01_0000 -/
  wd : BitVec 24 := 0x10000
  /-- R460 NOC_ARB_CFG_i.WINDOW; reset 0x0100 -/
  window : BitVec 16 := 0x100
  /-- R460 NOC_ARB_CFG_i.QUOTA; reset 0x00C0 -/
  quota : BitVec 16 := 0xC0
  /-- R460 grants in the current window; reset 0 -/
  grants : Nat := 0
  /-- R460 WINDOW in force in the current window; reset 0x0100 -/
  winNow : BitVec 16 := 0x100
  /-- R460 QUOTA in force in the current window; reset 0x00C0 -/
  quotaNow : BitVec 16 := 0xC0
  /-- R459 requester last granted; reset: DESIGN CHOICE 0 (log 3) -/
  lastReq : Nat := 0
  /-- R458 requester that holds the grant; reset none -/
  holder : Option Nat := none
  deriving DecidableEq, Repr

/-- One requester of an arbiter instance (R457 to R462). -/
structure ArbPri where
  /-- R462 NOC_ARB_PRI_i_r.QUAR; reset 0 -/
  quar : Bool := false
  /-- R460 NOC_ARB_PRI_i_r.MASKED; reset 0 -/
  masked : Bool := false
  /-- R460 NOC_ARB_PRI_i_r.COUNT; reset 0 -/
  count : BitVec 16 := 0
  /-- R457 NOC_ARB_PRI_i_r.CLASS as written; none = the instance table's default -/
  high : Option Bool := none
  /-- R459 NOC_ARB_PRI_i_r.LEVEL; reset 0 -/
  level : BitVec 3 := 0
  /-- R462 event time of the last 0x0522; reset none -/
  refused : Option (BitVec 56) := none
  deriving DecidableEq, Repr

/-- The header of a packet on the rings (R440, R441); its layout is internal to the device. -/
structure Header where
  /-- R443 message class -/
  cls : MsgClass := .req
  /-- R441 SRC stop -/
  src : Nat := 0
  /-- R441 DST stop -/
  dst : Nat := 0
  /-- R457 requester of the stop's injection arbiter -/
  who : Nat := 0
  /-- R448 injected for a requester of class HIGH -/
  high : Bool := false
  /-- R438 tag that a response carries back -/
  tag : Nat := 0
  /-- system address or channel offset of a memory request -/
  addr : Nat := 0
  /-- R443 the request writes -/
  write : Bool := false
  /-- R450 payload bytes -/
  bytes : Nat := 0
  deriving DecidableEq, Repr

/-- A flit with its sideband (R440, R441). -/
structure Flit where
  /-- R440 packet header, in a head flit -/
  hdr : Option Header := none
  /-- R440 the 64-byte units of the payload: one in a head flit, two in a data flit -/
  units : List (BitVec 8) := []
  /-- R441 CLASS -/
  cls : MsgClass := .req
  /-- R441 R444 VC -/
  vc : Nat := 0
  /-- R441 HEAD -/
  head : Bool := true
  /-- R441 TAIL -/
  tail : Bool := true
  /-- R441 SRC -/
  src : Nat := 0
  /-- R441 DST -/
  dst : Nat := 0
  /-- R441 URG: urgency at the last stop passed -/
  urg : Nat := 0
  /-- R441 AGED -/
  aged : Bool := false
  /-- R441 STAMP -/
  stamp : BitVec 12 := 0
  /-- R441 CC0: carry code of the first unit -/
  cc0 : BitVec 32 := 0
  /-- R441 CC1: carry code of the second unit -/
  cc1 : BitVec 32 := 0
  /-- R441 PZ0 -/
  pz0 : Bool := false
  /-- R441 PZ1 -/
  pz1 : Bool := false
  /-- R439 NCLK cycle from which it may leave its queue -/
  due : Nat := 0
  deriving DecidableEq, Repr

/-- What a hop of a ring carries in an NCLK cycle (R439, R441). -/
structure RingSlot where
  /-- the flit, none in an empty slot -/
  flit : Option Flit := none
  /-- R441 CREDIT: stop in [5:0], class in [7:6], count in [15:8]; count 0 returns nothing -/
  credit : BitVec 16 := 0
  /-- R441 ECC of the other sideband bits -/
  ecc : BitVec 8 := 0
  /-- R446 target that returns the credit (the field has room for one stop; log 130) -/
  giver : Nat := 0
  deriving DecidableEq, Repr

/-- A packet in progress on a virtual channel of a hop (R445, R449). -/
structure VcLock where
  /-- where its flits come from: 0 and 1 the input queues of VC 0 and VC 1, 2 the injection queue -/
  lane : Nat := 0
  /-- R449 urgency of its head flit -/
  urg : Nat := 0
  /-- R448 AGED of its head flit -/
  aged : Bool := false
  deriving DecidableEq, Repr

/-- A request in a DDR5 bank queue (R352). -/
structure BankReq where
  /-- row it needs -/
  row : Nat := 0
  /-- it writes -/
  write : Bool := false
  /-- times it has been passed over -/
  passed : Nat := 0
  deriving DecidableEq, Repr

/-- The rings, their stops and the arbiters (R436 to R466). -/
structure Noc where
  /-- R442 NOC_STATUS.FATAL; reset 0 -/
  fatal : Bool := false
  /-- R442 NOC_STATUS.SB_CORRECTED; reset 0 -/
  sbCorrected : BitVec 32 := 0
  /-- R448 NOC_URG.QUANTUM; reset 0x020 -/
  quantum : BitVec 10 := 0x20
  /-- R448 NOC_URG.BASE_MGMT; reset 0x4 -/
  baseMgmt : BitVec 3 := 4
  /-- R448 NOC_URG.BASE_RSP; reset 0x2 -/
  baseRsp : BitVec 3 := 2
  /-- R448 NOC_URG.BASE_POST; reset 0 -/
  basePost : BitVec 3 := 0
  /-- R448 NOC_URG.BASE_REQ; reset 0 -/
  baseReq : BitVec 3 := 0
  /-- R451 NOC_DRAIN.TIMEOUT_US; reset 0x03E8 -/
  drainUs : BitVec 16 := 0x3E8
  /-- R450 NOC_STAT_CTRL.FREEZE; reset 0 -/
  frozen : Bool := false
  /-- R436 the 40 stops; unlisted 0 to 36 ON -/
  stops : Tab NocStop := []
  /-- R457 NOC_ARB_CFG_i; see ArbCfg -/
  cfg : Tab ArbCfg := []
  /-- R457 NOC_ARB_PRI_i_r, key 256 × i + r; see ArbPri -/
  pri : Tab ArbPri := []
  /-- R450 NOC_STAT_s_k, key 16 × s + k; reset 0 -/
  stats : Tab (BitVec 64) := []
  /-- R456 forced disables whose timeout fell within a SERVICE reset, with their counts; reset none -/
  late : List (DrainFn × Nat) := []
  /-- R451 functions whose drain has not ended (DMA channels, VFs, ICP grants); reset none -/
  draining : List DrainFn := []
  /-- R441 NCLK cycles counted, for STAMP and latencies; reset: DESIGN CHOICE 0 (log 3) -/
  cycle : Nat := 0
  /-- R457 packets that wait for their stop's injection arbiter; reset none -/
  waits : List (Header × List Flit) := []
  /-- R458 flits of the granted packet still to enter its injection queue, by stop; reset none -/
  entering : Tab (List Flit) := []
  /-- R446 injection queues, key 4 × stop + class; reset empty -/
  inject : Tab (List Flit) := []
  /-- R445 input queues, key ((ring × 40 + stop) × 4 + class) × 2 + VC; reset empty -/
  queues : Tab (List Flit) := []
  /-- R439 what leaves each stop, key ring × 40 + stop; reset empty -/
  slots : Tab RingSlot := []
  /-- R445 packets in progress on each hop, keyed as the queues; reset none -/
  locks : Tab VcLock := []
  /-- R449 ties that an injection queue has lost in a row, key 4 × stop + class; reset 0 -/
  ties : Tab Nat := []
  /-- R446 end-to-end credits in use, key (initiator × 40 + target) × 4 + class; reset 0 -/
  used : Tab Nat := []
  /-- R446 credits that a target still has to send back, by its stop: (initiator, class); reset none -/
  returns : Tab (List (Nat × Nat)) := []
  /-- R439 flits on their way out at a stop: (cycle when done, stop, flit); reset none -/
  ejecting : List (Nat × Nat × Flit) := []
  /-- R440 header of the packet being taken out, key (stop × 40 + source) × 4 + class; reset none -/
  incoming : Tab Header := []
  /-- R450 requests without their response: (initiator, target, tag, cycle of entry); reset none -/
  trips : List (Nat × Nat × Nat × Nat) := []
  /-- R438 requests that have reached their target and are not answered; reset none -/
  asked : List Header := []
  /-- R438 answers whose request is still on its way; reset none -/
  owed : List (Header × List (BitVec 8)) := []
  /-- R354 requests at the DDR5 front ends: (channel, header, flits); reset none -/
  front : List (Nat × Header × Nat) := []
  /-- R458 the request that holds each front end's grant, with the flits still to place; reset none -/
  frontLeft : Tab (Header × Nat) := []
  /-- R352 bank queues, key channel × 4,096 + bank, oldest request first; reset empty -/
  banks : Tab (List BankReq) := []
  /-- R352 open row of each bank, + 1, 0 for none; reset none -/
  openRow : Tab Nat := []
  /-- R352 bank from which a channel's rotation looks next; reset: DESIGN CHOICE 0 (log 3) -/
  bankPtr : Tab Nat := []
  deriving DecidableEq, Repr

/-- One Norak port's link (R467 to R478). -/
structure RingPort where
  /-- R501 RING_PORT_n.STATE; reset 0 DOWN -/
  state : PortState := .down
  /-- R501 TX_LANES; reset 0 -/
  txLanes : Nat := 0
  /-- R501 RX_LANES; reset 0 -/
  rxLanes : Nat := 0
  /-- R501 TX_SPARES; reset 0 -/
  txSpares : Nat := 0
  /-- R501 RX_SPARES; reset 0 -/
  rxSpares : Nat := 0
  /-- R501 DEGRADED; reset 0 -/
  degraded : Bool := false
  /-- R501 PEER and PEER_VALID; reset not valid -/
  peerPos : Option Nat := none
  /-- R501 REPLAYS; reset 0 -/
  replays : BitVec 32 := 0
  /-- R501 RING_FEC_n.CORRECTED; reset 0 -/
  fecOk : BitVec 32 := 0
  /-- R501 RING_FEC_n.UNCORRECTED; reset 0 -/
  fecBad : BitVec 32 := 0
  /-- R475 frames waiting in the port queue; reset empty -/
  txq : List Frame := []
  /-- R477 retry buffer, at most 256 frames not acknowledged; reset empty -/
  retry : List Frame := []
  /-- R477 next link frame number sent; reset: DESIGN CHOICE 0 (log 3) -/
  txLfn : Nat := 0
  /-- R477 next link frame number expected; reset: DESIGN CHOICE 0 (log 3) -/
  rxLfn : Nat := 0
  /-- R500 start of the millisecond of the replay count; reset 0 -/
  rpTime : BitVec 56 := 0
  /-- R500 replays in that millisecond; reset 0 -/
  rpCount : Nat := 0
  /-- R476 frames discarded as malformed; reset 0 -/
  malformed : Nat := 0
  /-- R429 R476 last frame sent, as it stands on the link: header, encrypted payload and tag; reset none -/
  wire : List Byte := []
  /-- R477 last acknowledgement control block sent; reset none -/
  ctl : Option LinkCtl := none
  deriving DecidableEq, Repr

/-- One ring's control (R496, R501). -/
structure RingCtl where
  /-- R501 RING_CTRL_r.STATE; reset ON when enabled in keep 256, else OFF -/
  state : StopState := .off
  /-- R501 FORCED; reset 0 -/
  forced : Bool := false
  /-- R501 ABORTED; reset 0 -/
  aborted : BitVec 16 := 0
  deriving DecidableEq, Repr

/-- Norak links, ring time, cut nets and census (R467 to R501). -/
structure Ring where
  /-- R474 RING_CONFIG.SYSTEM_ID; reset from keep 256 -/
  systemId : BitVec 16 := 0
  /-- R474 RING_CONFIG.SIZE; reset from keep 256 -/
  size : Nat := 0
  /-- R474 RING_CONFIG.POSITION; reset from keep 256 -/
  position : Nat := 0
  /-- R474 RING_CONFIG.RING_A; reset from keep 256 -/
  enA : Bool := false
  /-- R474 RING_CONFIG.RING_B; reset from keep 256 -/
  enB : Bool := false
  /-- R467 ports N0 to N3; see RingPort -/
  ports : Tab RingPort := []
  /-- R501 RING_CTRL_0 -/
  ctlA : RingCtl := {}
  /-- R501 RING_CTRL_1 -/
  ctlB : RingCtl := {}
  /-- R471 a device-wide cause closes both bypass pairs (PERST#, SERVICE steps 7 to 9, reference loss, seal halt); reset closed -/
  bypassed : Bool := true
  /-- R479 RING_TIME.NOW in ns; reset 0 -/
  time : BitVec 64 := 0
  /-- R480 RING_TSTAT.LOCKED; reset 0 -/
  locked : Bool := false
  /-- R501 RING_TSTAT.HOPS; reset 0 -/
  hops : BitVec 6 := 0
  /-- R501 RING_TSTAT.OFFSET; reset 0 -/
  offset : BitVec 32 := 0
  /-- R499 RING_CENSUS_CTRL.AUTO; reset 1 -/
  auto : Bool := true
  /-- R499 RING_CENSUS_CTRL.PERIOD_MS; reset from keep 257, 100 when 0 -/
  periodMs : BitVec 16 := 100
  /-- R501 RING_CENSUS_STAT.ROUND; reset 0 -/
  round : BitVec 8 := 0
  /-- R501 RING_CENSUS_STAT.ORIGIN; reset 0 -/
  origin : BitVec 8 := 0
  /-- R501 RING_CENSUS_STAT.DIFFER; reset 0 -/
  differ : BitVec 8 := 0
  /-- R501 RING_CENSUS_STAT.PRESENT; reset 0 -/
  present : BitVec 8 := 0
  /-- R501 RING_CENSUS_STAT.ROUNDS; reset 0 -/
  rounds : BitVec 32 := 0
  /-- R498 RING_CENSUS_RES_d_0 and _1; reset 0 -/
  results : Tab (BitVec 128) := []
  /-- R498 a round of this device is circulating; reset 0 -/
  circulating : Bool := false
  /-- R323 CENS tickets of the circulating round: thread, slot, partition; reset none -/
  waiters : List (Nat × Nat × Nat) := []
  /-- R323 CENS tickets waiting for the next round; reset none -/
  waitNext : List (Nat × Nat × Nat) := []
  /-- R483 RING_CUT_b, 64 bits; reset 0 -/
  cuts : Tab (BitVec 64) := []
  deriving DecidableEq, Repr

/-- One trigger unit (R511 to R513). -/
structure TrigUnit where
  /-- R524 OBS_TRIG_u.ARMED; reset 0 -/
  armed : Bool := false
  /-- R524 OBS_TRIG_u.STATE; reset 0 -/
  state : Nat := 0
  /-- R524 OBS_TRIG_u.COUNT; reset 0 -/
  count : BitVec 32 := 0
  /-- R511 the eight states armed; reset none -/
  prog : List TrigState := []
  /-- R511 previous design cycle's samples by entry; none in the first one evaluated -/
  prev : Option (List (BitVec 64)) := none
  deriving DecidableEq, Repr

/-- The OBS block and PROBE_OUT pins (R502 to R524). -/
structure Obs where
  /-- R507 OBS_TRACE_CFG.GIB; reset 0x10 -/
  gib : BitVec 7 := 0x10
  /-- R521 OBS_DBG.REFUSED; reset 0 -/
  refused : BitVec 32 := 0
  /-- R521 OBS_DBG.EN; reset 0 -/
  en : Bool := false
  /-- R506 OBS_POUT.SKIPPED; reset 0 -/
  skipped : BitVec 32 := 0
  /-- R506 OBS_POUT.LEVEL; reset 0 -/
  level : BitVec 32 := 0
  /-- R511 trigger units 0 to 15; see TrigUnit -/
  units : Tab TrigUnit := []
  deriving DecidableEq, Repr

/-- The debug access port (R520 to R522). -/
structure Tap where
  /-- R520 instruction register, 8 bits; reset PRESUMED IDCODE, IEEE 1149.1's Test-Logic-Reset (log 4) -/
  ir : TapInstr := .idcode
  /-- R521 the DBGACC register, 128 bits; reset: DESIGN CHOICE 0 (log 3) -/
  dbg : BitVec 128 := 0
  /-- R521 OBS_DBG.ACTIVE, an access is in progress; reset 0 -/
  busy : Bool := false
  /-- R520 boundary register cells of the user pins; reset: DESIGN CHOICE 0 (log 3) -/
  boundary : BitVec 864 := 0
  /-- R520 R521 what the selected data register last captured: IDCODE, DBGACC, or 0 for BYPASS; reset: DESIGN CHOICE 0 (log 3) -/
  dr : BitVec 128 := 0
  deriving DecidableEq, Repr

/-- One diode sensor (R525, R531 to R534). -/
structure Sensor where
  /-- R544 THM_SENSOR_n.READING, 12 bits signed, 0.25 °C; reset 0 -/
  reading : Int := 0
  /-- R544 INVALID; reset 0 -/
  invalid : Bool := false
  /-- R544 SUSPECT; reset 0 -/
  suspect : Bool := false
  /-- R544 GUARDED; reset 0 -/
  guarded : Bool := false
  /-- R544 CONTROL, 12 bits signed; reset 0 -/
  control : Int := 0
  /-- R532 consecutive steps in which both checks failed; reset 0 -/
  fails : Nat := 0
  /-- R532 consecutive steps of the rising-neighbour rule; reset 0 -/
  rises : Nat := 0
  deriving DecidableEq, Repr

/-- The thermal controller and the THM block (R525 to R544); survives every class but COLD. -/
structure Thm where
  /-- R525 the 368 sensors; see Sensor -/
  sensors : Tab Sensor := []
  /-- R527 estimates of the 368 nodes, THM_SENSOR_n.ESTIMATE, 0.25 °C units; reset 0 -/
  est : Tab Int := []
  /-- R530 THM_MODEL.PLATE, 12 bits signed; reset 0 -/
  plate : Int := 0
  /-- R527 THM_MODEL.BUILTIN; reset 0 -/
  builtin : Bool := false
  /-- R529 THM_MODEL.PFAULTS; reset 0 -/
  pfaults : BitVec 16 := 0
  /-- R532 R538 sensor readings and estimates of the last 101 steps, latest first; reset none -/
  hist : List (Tab Int × Tab Int) := []
  /-- R527 model steps since the last COLD reset; reset 0 -/
  steps : Nat := 0
  /-- R542 event time of the last model step; reset 0 -/
  stepTime : BitVec 56 := 0
  /-- R535 THM_STATUS.BAND: 0 A, 1 B, 2 C, 3 trip; reset 0 -/
  band : Nat := 0
  /-- R536 THM_STATUS.BAND_KA; reset 0 -/
  bandKA : Nat := 0
  /-- R536 THM_STATUS.BAND_KB; reset 0 -/
  bandKB : Nat := 0
  /-- R535 R536 bands set on control values alone: 0 device, 1 kaolin A, 2 kaolin B, 4 to 7 towers; reset 0 -/
  cellBand : Tab Nat := []
  /-- R538 domains with a rate-of-rise action in force; reset none -/
  acts : List Nat := []
  /-- R542 a rate warning in the last 10 ms; reset 0 -/
  warn : Bool := false
  /-- R538 event time of the last 0x0702 (2 × domain) and 0x0703 (2 × domain + 1); reset none -/
  rateEvt : Tab (BitVec 56) := []
  /-- R538 event time of the last check that found a rise of 10 °C or more, by domain; reset none -/
  rateLast : Tab (BitVec 56) := []
  /-- R540 THM_STATUS.TRIP; reset 0 -/
  trip : Bool := false
  /-- R544 THM_TRIP.TRIPS; reset 0 -/
  trips : BitVec 16 := 0
  /-- R540 THM_TRIP.WAIT_US; reset 0x00C8 -/
  tripWait : BitVec 16 := 0xC8
  /-- R540 step 5 has set the target to 100 MHz; reset 0 -/
  tripCold : Bool := false
  /-- R539 towers in trip; reset none -/
  towerTrip : List Nat := []
  /-- R544 THM_POWER_g.NOW in mW; reset 0 -/
  power : Tab Nat := []
  /-- R544 THM_POWER_g.PEAK in mW; reset 0 -/
  peak : Tab Nat := []
  /-- R528 power samples since the last step; reset none -/
  samples : List (List (Option Nat)) := []
  /-- R529 groups whose fault is in force; reset none -/
  pfault : List Nat := []
  /-- R537 THM_GCLK.REQ; reset 0xA0 -/
  req : BitVec 8 := 0xA0
  /-- R537 THM_BAND_MAX.MAX_A; reset 0xA0 -/
  maxA : BitVec 8 := 0xA0
  /-- R537 THM_BAND_MAX.MAX_B; reset 0x90 -/
  maxB : BitVec 8 := 0x90
  /-- R537 THM_BAND_MAX.MAX_C; reset 0x78 -/
  maxC : BitVec 8 := 0x78
  deriving DecidableEq, Repr

/-- Scrubbing, repair and service life (R545 to R565). -/
structure Rel where
  /-- R550 REL_SCRUB.PASS_MS, three copies; reset 0x40 -/
  passMs : List (BitVec 8) := [0x40, 0x40, 0x40]
  /-- R550 REL_SCRUB.DIGEST, three copies; reset 1 -/
  digest : List Bool := [true, true, true]
  /-- R550 REL_SCRUB.VOTEFIX; reset 0 -/
  votefix : BitVec 16 := 0
  /-- R545 REL_SCRUB.LAST_MS; reset 0 -/
  lastMs : BitVec 8 := 0
  /-- R552 regions in fallback, REL_FALLBACK_w and REL_SCRUB.FALLBACK; reset none -/
  fallback : List Nat := []
  /-- R552 regions in retry with consecutive good passes; reset none -/
  retry : Tab Nat := []
  /-- R545 a scrub pass is in progress; reset 0 -/
  passOn : Bool := false
  /-- R551 the draw that gives the positions of the canary bits changed in the pass; reset none -/
  canary : Option Nat := none
  /-- R548 design cycle number of each partition when the pass began; reset none -/
  passCycles : Tab (BitVec 64) := []
  /-- R552 as passCycles, when the readback service's pass began; reset none -/
  softCycles : Tab (BitVec 64) := []
  /-- R560 REL_DIAG.PLOT; reset 0 -/
  diagPlot : BitVec 9 := 0
  /-- R560 the plot that a running bond test tests; reset 0 -/
  diagNow : Nat := 0
  /-- R560 REL_DIAG.BUSY; reset 0 -/
  diagBusy : Bool := false
  /-- R560 REL_DIAG.FAILED; reset 0 -/
  diagFailed : BitVec 16 := 0
  /-- R555 REL_PATROL.HOURS; reset 0x18 -/
  hours : BitVec 8 := 0x18
  /-- R554 REL_PATROL.CORRECTED; reset 0 -/
  pCorrected : BitVec 32 := 0
  /-- R554 REL_PATROL.UE; reset 0 -/
  pUe : BitVec 16 := 0
  /-- R562 REL_DDR_CTRL.RESULT; reset 0 -/
  ddrResult : BitVec 4 := 0
  /-- R563 REL_LIFE_0 powered seconds; reset 0 -/
  lifePowered : Nat := 0
  /-- R563 REL_LIFE_0 seconds in band B; reset 0 -/
  lifeB : Nat := 0
  /-- R563 REL_LIFE_1 seconds in band C; reset 0 -/
  lifeC : Nat := 0
  /-- R563 REL_LIFE_1 seconds in trip; reset 0 -/
  lifeTrip : Nat := 0
  /-- R563 REL_LIFE_2 sum of the hottest control value; reset 0 -/
  lifeSum : BitVec 64 := 0
  /-- R563 powered seconds at the last 0x0818; reset none -/
  lifeEvt : Option Nat := none
  /-- R557 repairs used until the next COLD reset without a free entry; reset none -/
  unrecorded : List (BitVec 32) := []
  /-- R561 KIND 5 entries whose bank copy is in progress, by keep index; reset none -/
  copies : List Nat := []
  /-- R558 repair-map entries in force; reset from the repair map -/
  applied : List (BitVec 32) := []
  deriving DecidableEq, Repr

/-- The hardpan side of the meter bridge and the MTR block (R581 to R587). -/
structure Mtr where
  /-- R581 MTR_STATUS.BADFRAMES; reset 0 -/
  badFrames : BitVec 32 := 0
  /-- R586 MTR_STATUS.LINK; reset 0 -/
  link : Bool := false
  /-- R585 0x0B01 has been posted and the link not restored; reset 0 -/
  lost : Bool := false
  /-- R586 MTR_STATUS.FLAGS; reset 0 -/
  flags : BitVec 4 := 0
  /-- R586 MTR_SECONDS; reset 0 -/
  seconds : BitVec 64 := 0
  /-- R586 MTR_ENERGY; reset 0 -/
  energy : BitVec 64 := 0
  /-- R586 MTR_OPTIME; reset 0 -/
  optime : BitVec 64 := 0
  /-- R586 MTR_WRCOUNT; reset 0 -/
  wrcount : BitVec 64 := 0
  /-- R585 WRCOUNT reported by the last 0x0B07; reset 0 -/
  wrPosted : BitVec 64 := 0
  /-- R585 event time of the last 0x0B07; reset none -/
  wrTime : Option (BitVec 56) := none
  /-- R586 MTR_LOG.LOGSEQ; reset 0 -/
  logseq : BitVec 32 := 0
  /-- R586 MTR_LOG.LOGWRAPS; reset 0 -/
  logwraps : BitVec 32 := 0
  /-- R586 MTR_RX_TIME; none until a frame arrived, reads 0 -/
  rxTime : Option (BitVec 56) := none
  /-- R586 MTR_DCYC_p; reset 0 -/
  dcyc : Tab (BitVec 64) := []
  /-- R586 MTR_PLOTMS_p; reset 0 -/
  plotms : Tab (BitVec 64) := []
  /-- R582 SEQ of the next count frame; reset: DESIGN CHOICE 0 (log 3) -/
  seqNo : BitVec 16 := 0
  /-- R582 count frames sent and not yet received by the meter; reset none -/
  sent : List CountFrame := []
  /-- R584 event time at which the last form 1 completed; reset none -/
  form1 : Option (BitVec 56) := none
  deriving DecidableEq, Repr

/-- One meter log entry (R576). -/
structure LogEntry where
  /-- R576 SEQ -/
  seq : BitVec 32 := 0
  /-- R576 SECONDS low 32 -/
  seconds : BitVec 32 := 0
  /-- R576 ENERGY low 48 -/
  energy : BitVec 48 := 0
  /-- R576 TYPE -/
  type : BitVec 8 := 0
  /-- R576 DATA -/
  data : BitVec 8 := 0
  deriving DecidableEq, Repr

/-- The meter's registers (R568), as kept in its working and non-volatile stores. -/
structure MeterRegs where
  /-- R568 ENERGY, mWh; from manufacture: DESIGN CHOICE 0 (log 12) -/
  energy : BitVec 64 := 0
  /-- R566 energy below 1 mWh, in mW × 0.25 ms; DESIGN CHOICE 0 (log 12) -/
  energyFrac : Nat := 0
  /-- R568 OPTIME; DESIGN CHOICE 0 (log 12) -/
  optime : BitVec 64 := 0
  /-- R568 SECONDS; DESIGN CHOICE 0 (log 12) -/
  seconds : BitVec 64 := 0
  /-- R568 WRCOUNT; DESIGN CHOICE 0 (log 12) -/
  wrcount : BitVec 64 := 0
  /-- R571 FLAGS.TAMPER; DESIGN CHOICE 0 (log 12) -/
  tamper : Bool := false
  /-- R573 FLAGS.CAL_FAULT; DESIGN CHOICE 0 (log 12) -/
  calFault : Bool := false
  /-- R574 FLAGS.CLOCK_FAULT; DESIGN CHOICE 0 (log 12) -/
  clockFault : Bool := false
  /-- R570 FLAGS.UNMETERED; DESIGN CHOICE 0 (log 12) -/
  unmetered : Bool := false
  /-- R568 LOGSEQ; DESIGN CHOICE 0 (log 12) -/
  logseq : BitVec 32 := 0
  /-- R568 LOGWRAPS; DESIGN CHOICE 0 (log 12) -/
  logwraps : BitVec 32 := 0
  /-- R568 DCYC_p; DESIGN CHOICE 0 (log 12) -/
  dcyc : Tab (BitVec 64) := []
  /-- R568 PLOTMS_p; DESIGN CHOICE 0 (log 12) -/
  plotms : Tab (BitVec 64) := []
  /-- R580 RSEQ; DESIGN CHOICE 0 (log 12) -/
  rseq : BitVec 64 := 0
  /-- R576 the log, oldest first, at most 1,024 entries; DESIGN CHOICE empty (log 12) -/
  log : List LogEntry := []
  deriving DecidableEq, Repr

/-- The sealed meter die (R26, R566 to R580): its own supply, clock, store and I3C port; no reset class reaches it. -/
structure MeterDie where
  /-- R570 MVDD is within range; reset: DESIGN CHOICE powered, R592 step 1 (log 12) -/
  powered : Bool := true
  /-- R568 the registers -/
  regs : MeterRegs := {}
  /-- R570 the non-volatile store -/
  store : MeterRegs := {}
  /-- R573 the calibration record passes its check; DESIGN CHOICE (log 12) -/
  calOk : Bool := true
  /-- R566 total metered power of the last sample, mW; DESIGN CHOICE 0 (log 12) -/
  power : Nat := 0
  /-- R574 counting from the internal oscillator; DESIGN CHOICE 0 (log 12) -/
  internal : Bool := false
  /-- R575 ENERGY in mWh not yet emitted as impulses; DESIGN CHOICE 0 (log 12) -/
  pulse : Nat := 0
  /-- R575 MPULSE impulses emitted, a count of this model; DESIGN CHOICE 0 (log 12) -/
  pulses : Nat := 0
  /-- R577 meter serial, 16 bytes; DESIGN CHOICE 0 (log 12) -/
  serial : BitVec 128 := 0
  /-- R572 ROM digest; DESIGN CHOICE 0 (log 12) -/
  romDigest : BitVec 384 := 0
  /-- R573 calibration digest; DESIGN CHOICE 0 (log 12) -/
  calDigest : BitVec 384 := 0
  /-- R577 register pointer; DESIGN CHOICE 0 (log 12) -/
  ptr : BitVec 8 := 0
  /-- R579 pending REQ nonce; none -/
  nonce : Option (BitVec 256) := none
  /-- R577 RSTAT; 0 idle -/
  rstat : BitVec 8 := 0
  /-- R577 last signed readout served to the port; none -/
  readout : List (BitVec 8) := []
  /-- R577 LOGSEL; DESIGN CHOICE 0 (log 12) -/
  logsel : Nat := 0
  /-- R577 dynamic address; none -/
  dynAddr : Option (BitVec 7) := none
  /-- R578 maximum write length; PRESUMED 0 (log 4) -/
  mwl : BitVec 16 := 0
  /-- R578 maximum read length; PRESUMED 0 (log 4) -/
  mrl : BitVec 16 := 0
  /-- R578 in-band interrupt enabled by ENEC; DESIGN CHOICE 0 (log 12) -/
  ibiEn : Bool := false
  /-- R578 in-band interrupts raised, a count of this model; 0 -/
  ibi : Nat := 0
  /-- R577 bytes answered to the last private read (the model's view of the bus); none -/
  bus : List (BitVec 8) := []
  /-- R582 SEQ of the previous count frame; none -/
  cntSeq : Option (BitVec 16) := none
  /-- R582 count frames discarded in this minute; DESIGN CHOICE 0 (log 12) -/
  badCounts : Nat := 0
  /-- R576 write-capable accesses in this minute; DESIGN CHOICE 0 (log 12) -/
  wrMinute : Nat := 0
  deriving DecidableEq, Repr

/-- Everything in the package but the fuses and the meter die. -/
structure Dev where
  /-- R71 keep registers -/
  keep : Keep := {}
  /-- R55 boot, ID block and features -/
  boot : Boot := {}
  /-- R47 host link -/
  pcie : Pcie := {}
  /-- R76 resets -/
  rst : Rst := {}
  /-- R84 events -/
  evt : Evt := {}
  /-- R32 clocks -/
  clk : Clk := {}
  /-- R257 sequencer -/
  seq : Seq := {}
  /-- R277 outstanding operations in issue order -/
  ops : List Op := []
  /-- R241 ICP writes in progress -/
  icp : List IcpReq := []
  /-- R93 fabric -/
  fab : Fab := {}
  /-- R247 system lines -/
  start : Start := {}
  /-- R199 placer -/
  plc : Plc := {}
  /-- R221 partitions 1 to 64; an unlisted partition is NONE -/
  parts : Tab Part := []
  /-- R222 user output pins 0 to 863; unlisted weak pull-down -/
  pins : Tab PinOut := []
  /-- R335 memory -/
  mem : Mem := {}
  /-- R386 inline encryption -/
  ime : Ime := {}
  /-- R436 rings and arbiters -/
  noc : Noc := {}
  /-- R467 Norak and ring time -/
  ring : Ring := {}
  /-- R502 observation -/
  obs : Obs := {}
  /-- R520 debug port -/
  tap : Tap := {}
  /-- R525 thermal -/
  thm : Thm := {}
  /-- R545 reliability -/
  rel : Rel := {}
  /-- R581 meter bridge -/
  mtr : Mtr := {}
  /-- the model's own counter of free values, no state of the spec; DESIGN CHOICE 0 (log 13), no statement rests on it -/
  free : Nat := 0
  deriving DecidableEq, Repr

/-- The whole machine: fuses, meter die, everything else in the package, and the commands waiting, first in, first out.
-/
structure State where
  /-- R91 the fuses -/
  fuse : Fuses := {}
  /-- R26 the meter die -/
  die : MeterDie := {}
  /-- everything else in the package -/
  dev : Dev := {}
  /-- the commands waiting; reset empty -/
  pending : List Instr := []
  deriving DecidableEq, Repr

/-- Faults of a step. -/
inductive Fault where
  /-- R1: an obligation of the board or host is broken and the manual states no response. No meaning raises it: every
  command has an effect or none. Safe. -/
  | notDefined
  deriving DecidableEq, Repr

/-- Refusals of a step. -/
inductive Refusal where
  /-- raised by the dispatcher for a row that has no meaning yet. Safe. -/
  | notModelled (mnemonic : String)
  deriving DecidableEq, Repr

/-- The machine right after reset: the values of the Reset columns, power good and PERST# asserted (R18, R55; log 5),
every register without a stated reset value at the value of its log entry, memory with nothing listed, no command
waiting. -/
def State.reset : State := {}

end Sys2Proof.Machine
end

