-- ==== Sys2Proof/Machine/Ops.lean ====
section
/-! DEFINITION. The named operations over the state: tables, memory cells, the parts of Dev by number, free values. -/
namespace Sys2Proof.Machine
open Host

/-- Value of a table at a key, `d` where the key is not listed. -/
def tget {α : Type} : Tab α → Nat → α → α
  | [], _, d => d
  | (i, x) :: r, k, d => if i = k then x else tget r k d

/-- A table with a key's value set, keys kept rising. -/
def tset {α : Type} : Tab α → Nat → α → Tab α
  | [], k, v => [(k, v)]
  | (i, x) :: r, k, v =>
    if k < i then (k, v) :: (i, x) :: r else if i = k then (k, v) :: r else (i, x) :: tset r k v

/-- A table with a key no longer listed. -/
def tdel {α : Type} : Tab α → Nat → Tab α
  | [], _ => []
  | (i, x) :: r, k => if i = k then tdel r k else (i, x) :: tdel r k

/-- A table with a key's value changed. -/
def tupd {α : Type} (t : Tab α) (k : Nat) (d : α) (f : α → α) : Tab α := tset t k (f (tget t k d))

/-- The byte listed at an address. -/
def cget : List Cell → Nat → Option Byte
  | [], _ => none
  | (i, x) :: r, a => if i = a then some x else cget r a

/-- Cells with a byte listed at an address, addresses kept rising. -/
def cset : List Cell → Nat → Byte → List Cell
  | [], a, b => [(a, b)]
  | (i, x) :: r, a, b =>
    if a < i then (a, b) :: (i, x) :: r else if i = a then (a, b) :: r else (i, x) :: cset r a b

/-- Cells with no byte listed at an address. -/
def cdel : List Cell → Nat → List Cell
  | [], _ => []
  | (i, x) :: r, a => if i = a then cdel r a else (i, x) :: cdel r a

/-- Cells whose unlisted bytes read zero, with a byte written: a zero is not listed (R58). -/
def zset (m : List Cell) (a : Nat) (b : Byte) : List Cell := if b = 0 then cdel m a else cset m a b

/-- A byte of cells whose unlisted bytes read zero (R58). -/
def zget (m : List Cell) (a : Nat) : Byte := (cget m a).getD 0

/-- Addresses of the list rise strictly. -/
def cellsRise : List Cell → Bool
  | [] => true
  | [_] => true
  | (i, _) :: (j, y) :: r => decide (i < j) && cellsRise ((j, y) :: r)

/-- The canonical form of memory: addresses rise strictly. An unlisted byte has no value, so no entry can equal it. -/
def Mem.wf (m : Mem) : Bool := cellsRise m.cells

/-- A little-endian number's bytes (R12). -/
def leBytes (n : Nat) (w : Nat) : List Byte :=
  match n with
  | 0 => []
  | k + 1 => BitVec.ofNat 8 w :: leBytes k (w / 256)

/-- The number of little-endian bytes (R12). -/
def leNat : List Byte → Nat
  | [] => 0
  | b :: r => b.toNat + 256 * leNat r

/-- The 64-bit word of little-endian bytes (R12). -/
def leWord (l : List Byte) : Word := BitVec.ofNat 64 (leNat l)

/-- Bytes written at an address and above. -/
def csetBytes (m : List Cell) (a : Nat) : List Byte → List Cell
  | [] => m
  | b :: r => csetBytes (cset m a b) (a + 1) r

/-- Bytes written at an address and above in cells whose unlisted bytes read zero. -/
def zsetBytes (m : List Cell) (a : Nat) : List Byte → List Cell
  | [] => m
  | b :: r => zsetBytes (zset m a b) (a + 1) r

/-- `n` bytes from an address in cells whose unlisted bytes read zero. -/
def zgetBytes (m : List Cell) (a : Nat) : Nat → List Byte
  | 0 => []
  | n + 1 => zget m a :: zgetBytes m (a + 1) n

/-- `n` bytes from an address, all of them listed. -/
def cgetBytes (m : List Cell) (a : Nat) : Nat → Option (List Byte)
  | 0 => some []
  | n + 1 => do
    let b ← cget m a
    let r ← cgetBytes m (a + 1) n
    some (b :: r)

/-- `n` bytes from an address, a free value for each that nothing has written (R375), counted from `k`. -/
def cgetFree (m : List Cell) (k a : Nat) : Nat → List Byte
  | 0 => []
  | n + 1 => (cget m a).getD (Config.freeByte k) :: cgetFree m (k + 1) (a + 1) n

/-- `n` bytes, each a free value, counted from `k` (R328). -/
def freeBytes (k : Nat) : Nat → List Byte
  | 0 => []
  | n + 1 => Config.freeByte k :: freeBytes (k + 1) n

/-- A field of a number: bits from `lo`, `n` of them. -/
def bits (w lo n : Nat) : Nat := w / 2 ^ lo % 2 ^ n

/-- A bit of a number. -/
def bit (w i : Nat) : Bool := bits w i 1 = 1

/-- Bool as a number. -/
def b2n (b : Bool) : Nat := if b then 1 else 0

/-- A saturating count of a register field. -/
def satAdd {w : Nat} (x : BitVec w) (n : Nat) : BitVec w := BitVec.ofNat w (min (2 ^ w - 1) (x.toNat + n))

/-- One more, saturating. -/
def sat1 {w : Nat} (x : BitVec w) : BitVec w := satAdd x 1

/-- The smallest multiple of `m` not below `n`. -/
def roundUp (n m : Nat) : Nat := (n + m - 1) / m * m

/-- Numbers `a` to `a + n - 1`. -/
def span (a : Nat) : Nat → List Nat
  | 0 => []
  | n + 1 => a :: span (a + 1) n

/-- Two half-open ranges meet. -/
def meets (a n b m : Nat) : Bool := decide (a < b + m) && decide (b < a + n) && decide (0 < n) && decide (0 < m)

/-- A half-open range lies within another. -/
def within (a n b m : Nat) : Bool := decide (b ≤ a) && decide (a + n ≤ b + m)

/-- Number of contexts of a 2-bit code (R156). -/
def ctxCount (code : Nat) : Nat := 2 ^ code

/-! ## The parts of Dev by number -/

/-- Thread n (R257). -/
def Dev.thr (d : Dev) (n : Nat) : Thread := tget d.seq.threads n {}
/-- Thread n changed. -/
def Dev.updThr (d : Dev) (n : Nat) (f : Thread → Thread) : Dev :=
  { d with seq := { d.seq with threads := tupd d.seq.threads n {} f } }
/-- Partition p (R221). -/
def Dev.part (d : Dev) (p : Nat) : Part := tget d.parts p {}
/-- Partition p changed. -/
def Dev.updPart (d : Dev) (p : Nat) (f : Part → Part) : Dev := { d with parts := tupd d.parts p {} f }
/-- Partition p's schedule engine changed (R154). -/
def Dev.updEng (d : Dev) (p : Nat) (f : Engine → Engine) : Dev := d.updPart p fun q => { q with eng := f q.eng }
/-- Physical plot n (R93). -/
def Dev.plot (d : Dev) (n : Nat) : Plot := tget d.fab.plots n {}
/-- Physical plot n changed. -/
def Dev.updPlot (d : Dev) (n : Nat) (f : Plot → Plot) : Dev :=
  { d with fab := { d.fab with plots := tupd d.fab.plots n {} f } }
/-- Keep register i (R71). -/
def Dev.keepReg (d : Dev) (i : Nat) : KeepReg := tget d.keep.regs i {}
/-- Value of keep register i, as a number. -/
def Dev.keepVal (d : Dev) (i : Nat) : Nat := (d.keepReg i).value.toNat
/-- KeyID k; KeyID 0 is ACTIVE in PLAIN mode and stays so (R388). -/
def Dev.keyid (d : Dev) (k : Nat) : KeyId := if k = 0 then { state := .active } else tget d.ime.keyids k {}
/-- KeyID k changed; KeyID 0 never is (R388). -/
def Dev.updKey (d : Dev) (k : Nat) (f : KeyId → KeyId) : Dev :=
  if k = 0 then d else { d with ime := { d.ime with keyids := tupd d.ime.keyids k {} f } }
/-- DDR5 channel c (R349). -/
def Dev.chan (d : Dev) (c : Nat) : Chan := tget d.mem.chans c {}
/-- DDR5 channel c changed. -/
def Dev.updChan (d : Dev) (c : Nat) (f : Chan → Chan) : Dev :=
  { d with mem := { d.mem with chans := tupd d.mem.chans c {} f } }
/-- Marl tower m (R341). -/
def Dev.tower (d : Dev) (m : Nat) : Tower := tget d.mem.towers m {}
/-- Marl tower m changed. -/
def Dev.updTower (d : Dev) (m : Nat) (f : Tower → Tower) : Dev :=
  { d with mem := { d.mem with towers := tupd d.mem.towers m {} f } }
/-- Link of Norak port n (R467). -/
def Dev.rport (d : Dev) (n : Nat) : RingPort := tget d.ring.ports n {}
/-- Link of Norak port n changed. -/
def Dev.updRport (d : Dev) (n : Nat) (f : RingPort → RingPort) : Dev :=
  { d with ring := { d.ring with ports := tupd d.ring.ports n {} f } }
/-- Sealing of Norak port n (R429). -/
def Dev.nk (d : Dev) (n : Nat) : NkPort := tget d.ime.ports n {}
/-- Sealing of Norak port n changed. -/
def Dev.updNk (d : Dev) (n : Nat) (f : NkPort → NkPort) : Dev :=
  { d with ime := { d.ime with ports := tupd d.ime.ports n {} f } }
/-- Control of ring r: 0 is A, 1 is B (R501). -/
def Dev.rctl (d : Dev) (r : Nat) : RingCtl := if r = 0 then d.ring.ctlA else d.ring.ctlB
/-- Control of ring r changed. -/
def Dev.updRctl (d : Dev) (r : Nat) (f : RingCtl → RingCtl) : Dev :=
  if r = 0 then { d with ring := { d.ring with ctlA := f d.ring.ctlA } }
  else { d with ring := { d.ring with ctlB := f d.ring.ctlB } }
/-- Ring stop s; stops 37 to 39 have no agent (R436). -/
def Dev.stop (d : Dev) (s : Nat) : NocStop :=
  if s < 37 then tget d.noc.stops s {} else { state := .absent }
/-- Ring stop s changed. -/
def Dev.updStop (d : Dev) (s : Nat) (f : NocStop → NocStop) : Dev :=
  { d with noc := { d.noc with stops := tupd d.noc.stops s {} f } }
/-- Trigger unit u (R511). -/
def Dev.trig (d : Dev) (u : Nat) : TrigUnit := tget d.obs.units u {}
/-- Trigger unit u changed. -/
def Dev.updTrig (d : Dev) (u : Nat) (f : TrigUnit → TrigUnit) : Dev :=
  { d with obs := { d.obs with units := tupd d.obs.units u {} f } }
/-- Sensor n (R525). -/
def Dev.sensor (d : Dev) (n : Nat) : Sensor := tget d.thm.sensors n {}
/-- Partition numbers 1 to 64 (R221). -/
def allParts : List Nat := span 1 64
/-- Threads 0 to 64 (R257). -/
def allThreads : List Nat := span 0 65
/-- Physical plots 0 to 511 (R93). -/
def allPlots : List Nat := span 0 512

/-- Dev changed for every number of a list, in order. -/
def forAll (l : List Nat) (d : Dev) (f : Dev → Nat → Dev) : Dev := l.foldl f d

/-- A free value is drawn: the counter advances (log 13). -/
def Dev.draw (d : Dev) (n : Nat) : Dev := { d with free := d.free + n }

/-- A feature bit is accepted: the set is locked with the bit set (R69, R70). -/
def Dev.feat (d : Dev) (k : Nat) : Bool := d.boot.locked && d.boot.drv0.getLsbD k

/-- Physical plots that belong to partition p (R130). -/
def Dev.plotsOf (d : Dev) (p : Nat) : List Nat :=
  (d.fab.plots.filter fun e => decide (e.2.part = p) && decide (p ≠ 0)).map (·.1)

/-- The device is held in reset: PERST# asserted, or a monitored rail group below its minimum (R591). -/
def Dev.heldInReset (d : Dev) : Bool := d.rst.perst || !d.rst.railLow.isEmpty

/-- The clocks fed by SYSREFCLK run: the reference is present or held over, and the PLLs are not stopped in LOWPWR. PCLK, HCLK, TCK
and the meter's clock run always (R32, R38, R45 step 3, R57). -/
def Dev.sysClocked (d : Dev) : Bool := decide (d.clk.ref ≠ RefState.stopped) && !d.boot.pllsStopped

/-- A SERVICE reset has reached step 7: the units it resets do no work until step 9 (R79). -/
def Dev.svcCut (d : Dev) : Bool :=
  match d.rst.svc with
  | some .quiet => true
  | some .retraining => true
  | _ => false

/-! ## The outcome of a command -/

/-- A command that changes Dev only; while the device is held in reset it has no effect (R591; log 18). -/
def State.run (s : State) (f : Dev → Dev) : Outcome State Fault Refusal :=
  if s.dev.heldInReset then .next s else .next { s with dev := f s.dev }

/-- A command of logic whose clock SYSREFCLK feeds: without that clock it has no effect (R38, R45 step 3, R57). -/
def State.work (s : State) (f : Dev → Dev) : Outcome State Fault Refusal := s.run fun d => if d.sysClocked then f d else d

/-- A command of the power rails, PERST# or the test access port, which reach the device in reset too. -/
def State.always (s : State) (f : Dev → Dev) : Outcome State Fault Refusal := .next { s with dev := f s.dev }

/-- A command of the meter die, which no reset reaches (R26). -/
def State.meter (s : State) (f : MeterDie → MeterDie) : Outcome State Fault Refusal := .next { s with die := f s.die }

end Sys2Proof.Machine
end

