-- ==== Sys2Proof/Machine/Code.lean ====
section
/-! DEFINITION. The device code (R335 to R340): location values, the check bits of a write and the outcome of a read, the signals
that carry a codeword (R344, R350), and the CRC-32C of the carry code (R421). -/
namespace Sys2Proof.Machine

/-! ## Location values (R336) -/

/-- L of the codeword at a byte offset of marl tower m. -/
def locMarl (m off : Nat) : Nat := m * 2 ^ 56 + off / 8
/-- L of the codeword at a byte offset of DDR5 channel c's physical space. -/
def locDdr (c off : Nat) : Nat := (8 + c) * 2 ^ 56 + off / 8
/-- L of quarter q of a grain word in the configuration tier of physical plot n. -/
def locKaolin (n k c g q : Nat) : Nat :=
  (0x10 + n / 256) * 2 ^ 56 + n % 256 * 2 ^ 21 + k * 2 ^ 18 + c * 2 ^ 8 + g * 2 ^ 2 + q
/-- L of a row of block memory j of physical plot n. -/
def locBlock (n j row : Nat) : Nat := 0x12 * 2 ^ 56 + n * 2 ^ 15 + j * 2 ^ 10 + row
/-- L of the codeword at a byte offset of sequencer memory. -/
def locSeq (off : Nat) : Nat := 0x13 * 2 ^ 56 + off / 8
/-- L of an entry of the counter cache, or of the MAC cache. -/
def locCache (mac : Bool) (entry : Nat) : Nat := (0x14 + b2n mac) * 2 ^ 56 + entry

/-! ## Writing a codeword (R337) -/

/-- Exclusive OR of the low `n` bits of a number. -/
def parity (w : Nat) : Nat → Bool
  | 0 => false
  | n + 1 => xor (bit w n) (parity w n)

/-- The tag T. -/
def tagOf (loc : Nat) : Nat := bits loc 0 16 ^^^ bits loc 16 16 ^^^ bits loc 32 16 ^^^ bits loc 48 16

/-- The fold bit F. -/
def foldOf (loc : Nat) : Bool := parity loc 64

/-- The generator: the minimal polynomials of α and of α^3 multiplied, α a root of x^7 + x^3 + 1. -/
def bchGen : Nat :=
  let m3 := 0b10001111
  (span 0 8).foldl (fun g i => if bit 0b10001001 i then g ^^^ (m3 * 2 ^ i) else g) 0

/-- Remainder of a polynomial by the generator, its terms from `x^(n + 13)` down. -/
def bchRem (w : Nat) : Nat → Nat
  | 0 => w
  | n + 1 => bchRem (if bit w (n + 14) then w ^^^ (bchGen * 2 ^ n) else w) n

/-- The 95 positions of the shortened code: C in 0 to 13, D in 14 to 77, T in 78 to 93, F in 94 (log 120). -/
def bchWord (check data tag : Nat) (fold : Bool) : Nat := check + data * 2 ^ 14 + tag * 2 ^ 78 + b2n fold * 2 ^ 94

/-- The check bits C of data at a location. -/
def checkOf (loc : Nat) (data : BitVec 64) : Nat := bchRem (bchWord 0 data.toNat (tagOf loc) (foldOf loc)) 81

/-- A stored codeword of 80 bits: D in [63:0], C in [77:64], P at 78 and F at 79 (R335). -/
def packWord (data check : Nat) (p f : Bool) : BitVec 80 := BitVec.ofNat 80 (data + check * 2 ^ 64 + b2n p * 2 ^ 78 + b2n f * 2 ^ 79)

/-- The codeword that a write of data at a location stores. -/
def codeword (loc : Nat) (data : BitVec 64) : BitVec 80 :=
  let c := checkOf loc data
  let f := foldOf loc
  packWord data.toNat c (xor (xor (parity data.toNat 64) (parity c 14)) f) f

/-! ## Reading a codeword (R338) -/

/-- The outcome of reading a codeword. -/
inductive Verdict where
  /-- order 1 -/
  | clean
  /-- order 2 -/
  | fold
  /-- order 3 -/
  | corrected
  /-- order 4 -/
  | uncorrectable
  deriving DecidableEq, Repr

/-- A field element times α in GF(2^7). -/
def timesAlpha (x : Nat) : Nat := if 64 ≤ x then (2 * x) ^^^ 0b10001001 else 2 * x

/-- Position, power of α and power of α^3 of each position from `i` on. -/
def alphaRows : Nat → Nat → Nat → Nat → List (Nat × Nat × Nat)
  | 0, _, _, _ => []
  | n + 1, i, a, b => (i, a, b) :: alphaRows n (i + 1) (timesAlpha a) (timesAlpha (timesAlpha (timesAlpha b)))

/-- The 95 positions. -/
def bchRows : List (Nat × Nat × Nat) := alphaRows 95 0 1 1

/-- The two syndromes of a received word. -/
def syndromes (w : Nat) : Nat × Nat :=
  bchRows.foldl (fun s x => if bit w x.1 then (s.1 ^^^ x.2.1, s.2 ^^^ x.2.2) else s) (0, 0)

/-- Two positions whose errors give the syndromes. -/
def twoErrors (s : Nat × Nat) : List (Nat × Nat × Nat) → Option (List Nat)
  | [] => none
  | x :: r => match r.find? fun y => decide ((x.2.1 ^^^ y.2.1, x.2.2 ^^^ y.2.2) = s) with
    | some y => some [x.1, y.1]
    | none => twoErrors s r

/-- The positions at which the decoder places errors, at most two; `none` where no such errors give the syndromes. -/
def placeErrors (s : Nat × Nat) : Option (List Nat) :=
  if s = (0, 0) then some []
  else match bchRows.find? fun x => decide (x.2 = s) with
    | some x => some [x.1]
    | none => twoErrors s bchRows

/-- A word with some of its bits changed. -/
def flipBits (w : Nat) (l : List Nat) : Nat := l.foldl (fun w i => w ^^^ 2 ^ i) w

/-- What a read of a stored codeword at a location comes to, and the data bits it gives: corrected ones where that is clean or
corrected, else those stored. Errors that the decoder finds beside a wrong P count P among them; P alone is the mark of a poisoned line
(R377). A word that it cannot decode is a fold mismatch where F differs with P agreeing (log 120). -/
def readCode (loc : Nat) (w : BitVec 80) : Verdict × BitVec 64 :=
  let d := bits w.toNat 0 64
  let c := bits w.toNat 64 14
  let p := bit w.toNat 78
  let f := bit w.toNat 79
  let agrees := p == xor (xor (parity d 64) (parity c 14)) f
  let rx := bchWord c d (tagOf loc) f
  let raw := BitVec.ofNat 64 d
  match placeErrors (syndromes rx) with
  | none => (if f ≠ foldOf loc ∧ agrees then .fold else .uncorrectable, raw)
  | some l =>
    let fixed := flipBits rx l
    let errors := l.length + b2n (agrees == decide (l.length % 2 = 1))
    if l.any (fun i => decide (78 ≤ i) && decide (i ≤ 93)) ∨ bit fixed 94 ≠ foldOf loc then (.fold, raw)
    else if errors = 0 then (.clean, raw)
    else if l.isEmpty ∨ 2 < errors then (.uncorrectable, raw)
    else (.corrected, BitVec.ofNat 64 (bits fixed 14 64))

/-- The outcome of reading data written at a location after stored bits have changed. -/
def readChanged (loc : Nat) (data : BitVec 64) (changed : BitVec 80) : Verdict × BitVec 64 :=
  readCode loc (codeword loc data ^^^ changed)

/-! ## Signals -/

/-- One transfer of a pseudo-channel: 64 data signals, and 16 check signals with C in [13:0], P and F (R344). -/
structure Transfer where
  /-- data signals -/
  data : BitVec 64
  /-- check signals -/
  check : BitVec 16
  deriving DecidableEq, Repr

/-- The transfer that carries a codeword. -/
def transferOf (w : BitVec 80) : Transfer := { data := w.setWidth 64, check := (w >>> 64).setWidth 16 }

/-- The eight transfers of a 64-byte unit (R344). -/
def transfersOf (unit : List (BitVec 80)) : List Transfer := unit.map transferOf

/-- One beat of a DDR5 subchannel: 32 data signals and 8 check signals (R349, R350). -/
structure Beat where
  /-- data signals -/
  data : BitVec 32
  /-- check signals -/
  check : BitVec 8
  deriving DecidableEq, Repr

/-- Beats 2i and 2i + 1 of codeword i (R350). -/
def beatsOf (w : BitVec 80) : List Beat :=
  [{ data := w.setWidth 32, check := (w >>> 64).setWidth 8 }, { data := (w >>> 32).setWidth 32, check := (w >>> 72).setWidth 8 }]

/-- The BL16 burst of a 64-byte unit and its check bytes (R350). -/
def burstOf (unit : List (BitVec 80)) : List Beat := unit.flatMap beatsOf

/-- The codeword of two beats (R350). -/
def ofBeats (x y : Beat) : BitVec 80 :=
  x.data.setWidth 80 ||| (y.data.setWidth 80 <<< 32) ||| (x.check.setWidth 80 <<< 64) ||| (y.check.setWidth 80 <<< 72)

/-- The subchannel of a channel that carries the unit at a physical byte offset: consecutive units alternate (R350). -/
def subchannel (off : Nat) : Nat := off / 64 % 2

/-! ## The carry code (R421) -/

/-- A bit of the reflected CRC-32C register. -/
def crcBit (r : BitVec 32) : BitVec 32 := if r.getLsbD 0 then (r >>> 1) ^^^ 0x82F63B78 else r >>> 1

/-- A byte into the register. -/
def crcByte (r : BitVec 32) (b : Byte) : BitVec 32 :=
  crcBit (crcBit (crcBit (crcBit (crcBit (crcBit (crcBit (crcBit (r ^^^ b.setWidth 32))))))))

/-- The CRC-32C of bytes: polynomial 0x1EDC_6F41 reflected, register first and last inverted. -/
def crc32c (l : List Byte) : BitVec 32 := ~~~(l.foldl crcByte 0xFFFFFFFF)

/-- The carry code of a unit of at most 64 bytes, padded with zeros (R421). -/
def carryCode (l : List Byte) : BitVec 32 := crc32c (l ++ List.replicate (64 - l.length) 0)

/-! ## The check of a count frame (R582) -/

/-- A bit of the CRC-16 register: polynomial 0x1021. -/
def crc16Bit (r : BitVec 16) : BitVec 16 := if r.getLsbD 15 then (r <<< 1) ^^^ 0x1021 else r <<< 1

/-- A byte into the register, its most significant bit first (log 140). -/
def crc16Byte (r : BitVec 16) (b : Byte) : BitVec 16 :=
  crc16Bit (crc16Bit (crc16Bit (crc16Bit (crc16Bit (crc16Bit (crc16Bit (crc16Bit (r ^^^ (b.setWidth 16 <<< 8)))))))))

/-- The CRC-16 of bytes: initial value 0xFFFF (R582; log 140). -/
def crc16 (l : List Byte) : BitVec 16 := l.foldl crc16Byte 0xFFFF

/-! ## Changes of carried bytes -/

/-- Bytes some of whose bits change on their way: each position with the bits. -/
def changeBytes (l : List Byte) (u : List (Nat × Byte)) : List Byte :=
  u.foldl (fun l x => (span 0 l.length).zip l |>.map fun y => if y.1 = x.1 then y.2 ^^^ x.2 else y.2) l

/-- Bytes that have changed since their carry code was computed disagree with it: the CRC is linear, so that the change alone decides
(R421). -/
def carryWrong (changed : BitVec 512) : Bool := decide ((leBytes 64 changed.toNat).foldl crcByte 0 ≠ 0)

end Sys2Proof.Machine
end

