-- ==== Sys2Proof/Machine/Cipher.lean ====
section
/-! DEFINITION. The ciphers of the IME (R389 to R392, R396, R423): AES-256, XTS over a 64-byte line, counter mode, GHASH, and the MACs
and carry-code masks made of them; and AES-256-GCM, which seals frames (R429). A block is its 16 bytes, the first byte at the lowest address; a 128-bit value is a block's bytes in
little-endian order (R12; log 121). -/
namespace Sys2Proof.Machine

/-- Byte-wise exclusive OR. -/
def xorBytes (a b : List Byte) : List Byte := (a.zip b).map fun x => x.1 ^^^ x.2

/-! ## AES-256 -/

/-- A byte times x in AES's field. -/
def xtime (b : Byte) : Byte := if b.getLsbD 7 then (b <<< 1) ^^^ 0x1B else b <<< 1

/-- A product in AES's field. -/
def gfMul (a b : Byte) : Byte := (span 0 8).foldr (fun i r => xtime r ^^^ (if b.getLsbD i then a else 0)) 0

/-- A byte's square, `n` times over. -/
def gfSquares (b : Byte) : Nat → Byte
  | 0 => b
  | n + 1 => let c := gfSquares b n; gfMul c c

/-- The inverse of a byte, 0 for 0: its 254th power. -/
def gfInv (b : Byte) : Byte := (span 1 7).foldl (fun r n => gfMul r (gfSquares b n)) 1

/-- AES's substitution of a byte. -/
def subByte (b : Byte) : Byte :=
  let x := gfInv b
  x ^^^ x.rotateLeft 1 ^^^ x.rotateLeft 2 ^^^ x.rotateLeft 3 ^^^ x.rotateLeft 4 ^^^ 0x63

/-- Row `r` of every column moves `r` columns left. -/
def shiftRows (s : List Byte) : List Byte := (span 0 16).map fun i => s.getD ((i + 4 * (i % 4)) % 16) 0

/-- One column mixed. -/
def mixColumn (c : List Byte) : List Byte :=
  (span 0 4).map fun i =>
    xtime (c.getD i 0) ^^^ xtime (c.getD ((i + 1) % 4) 0) ^^^ c.getD ((i + 1) % 4) 0 ^^^ c.getD ((i + 2) % 4) 0 ^^^ c.getD ((i + 3) % 4) 0

/-- Every column mixed. -/
def mixColumns (s : List Byte) : List Byte := (span 0 4).flatMap fun c => mixColumn ((s.drop (4 * c)).take 4)

/-- Words of AES-256's key schedule, the latest first, until `n` more are made. -/
def keyWords : Nat → Byte → List (List Byte) → List (List Byte)
  | 0, _, l => l
  | n + 1, rc, l =>
    let i := l.length
    let t := l.headD []
    let u := if i % 8 = 0 then xorBytes ((t.drop 1 ++ t.take 1).map subByte) [rc, 0, 0, 0]
      else if i % 8 = 4 then t.map subByte else t
    keyWords n (if i % 8 = 0 then xtime rc else rc) (xorBytes (l.getD 7 []) u :: l)

/-- The 15 round keys of a 32-byte key. -/
def roundKeys (key : List Byte) : List (List Byte) :=
  let w := (keyWords 52 1 ((span 0 8).map fun i => (key.drop (4 * i)).take 4).reverse).reverse
  (span 0 15).map fun r => ((w.drop (4 * r)).take 4).flatten

/-- AES-256 of a block under a key of 32 bytes. -/
def aes (key block : List Byte) : List Byte :=
  let k := roundKeys key
  let s := (span 1 13).foldl (fun s r => xorBytes (mixColumns (shiftRows (s.map subByte))) (k.getD r [])) (xorBytes block (k.getD 0 []))
  xorBytes (shiftRows (s.map subByte)) (k.getD 14 [])

/-- A 128-bit value as a block. -/
def blockOf (n : Nat) : List Byte := leBytes 16 n

/-! ## The three modes (R389 to R391) -/

/-- Key1 of a SEALED KeyID, the encryption key of a VERIFIED one (R325). -/
def firstKey (key : BitVec 512) : List Byte := leBytes 32 key.toNat
/-- Key2 of a SEALED KeyID, the MAC key of a VERIFIED one (R325). -/
def secondKey (key : BitVec 512) : List Byte := leBytes 32 (key.toNat / 2 ^ 256)

/-- A tweak times x, as IEEE Std 1619 does it. -/
def tweakNext (t : Nat) : Nat := if 2 ^ 127 ≤ t then (2 * t % 2 ^ 128) ^^^ 0x87 else 2 * t

/-- The tweaks of a line's four blocks, from the encrypted first one. -/
def tweaks : Nat → Nat → List Nat
  | 0, _ => []
  | n + 1, t => t :: tweaks n (tweakNext t)

/-- A line under a SEALED key at a system address (R390). -/
def xtsLine (key : BitVec 512) (addr : Nat) (line : List Byte) : List Byte :=
  let t := leNat (aes (secondKey key) (blockOf (addr / 64 % 2 ^ 42)))
  ((span 0 4).zip (tweaks 4 t)).flatMap fun x =>
    let m := blockOf x.2
    xorBytes (aes (firstKey key) (xorBytes ((line.drop (16 * x.1)).take 16) m)) m

/-- The counter block CB of block j of a line (R391). -/
def counterBlock (major minor addr j : Nat) (mac mask : Bool) : Nat :=
  major % 2 ^ 64 * 2 ^ 64 + minor % 2 ^ 7 * 2 ^ 57 + addr / 64 % 2 ^ 42 * 2 ^ 15 + b2n mac * 2 ^ 14 + b2n mask * 2 ^ 13 + j % 4

/-- A line under a VERIFIED key at its counters (R391); the same operation encrypts and decrypts. -/
def ctrLine (key : BitVec 512) (major minor addr : Nat) (line : List Byte) : List Byte :=
  (span 0 4).flatMap fun j =>
    xorBytes ((line.drop (16 * j)).take 16) (aes (firstKey key) (blockOf (counterBlock major minor addr j false false)))

/-! ## GHASH and the MACs (R392, R396) -/

/-- A block as GHASH numbers it: its first bit, the most significant of its first byte, has the highest weight. -/
def ghashNum (b : List Byte) : Nat := leNat b.reverse

/-- A product in GHASH's field. -/
def ghashMul (x y : Nat) : Nat :=
  ((span 0 128).foldl (fun (a : Nat × Nat) i =>
    (if bit x (127 - i) then a.1 ^^^ a.2 else a.1, if bit a.2 0 then (a.2 / 2) ^^^ (0xE1 * 2 ^ 120) else a.2 / 2)) (0, y)).1

/-- GHASH under H over the 16-byte blocks of a message. -/
def ghash (h : List Byte) (l : List Byte) : List Byte :=
  (leBytes 16 ((span 0 (l.length / 16)).foldl (fun y i => ghashMul (y ^^^ ghashNum ((l.drop (16 * i)).take 16)) (ghashNum h)) 0)).reverse

/-- Bits [63:0] of GHASH under AES-256 of the zero block, xor AES-256 of a value, both under one key. -/
def macUnder (key : List Byte) (pad : Nat) (l : List Byte) : BitVec 64 :=
  leWord (xorBytes (ghash (aes key (blockOf 0)) l) (aes key (blockOf pad)))

/-- The MAC of a line's ciphertext under a VERIFIED key (R392). -/
def lineMac (key : BitVec 512) (major minor addr : Nat) (cipher : List Byte) : BitVec 64 :=
  macUnder (secondKey key) (counterBlock major minor addr 0 true false) cipher

/-- The MAC that a parent holds of a child of the counter tree, under the channel's key Kt (R396). -/
def childMac (kt : BitVec 256) (level node : Nat) (child : List Byte) : BitVec 64 :=
  macUnder (leBytes 32 kt.toNat) (level * 2 ^ 120 + node % 2 ^ 40) child

/-! ## AES-256-GCM (R429, R431) -/

/-- Letters of a label (R431). -/
def label (s : String) : List Byte := s.toList.map fun c => BitVec.ofNat 8 c.toNat

/-- Bytes of a number, the most significant first. -/
def beBytes (n w : Nat) : List Byte := (leBytes n w).reverse

/-- Bytes filled with zeros to whole blocks. -/
def wholeBlocks (l : List Byte) : List Byte := l ++ List.replicate ((16 - l.length % 16) % 16) 0

/-- Block i of the key stream for a 12-byte nonce. -/
def gcmStream (key nonce : List Byte) (i : Nat) : List Byte := aes key (nonce ++ beBytes 4 i)

/-- Bytes encrypted; the same operation decrypts. -/
def gcmCrypt (key nonce l : List Byte) : List Byte :=
  (span 0 ((l.length + 15) / 16)).flatMap fun i => xorBytes ((l.drop (16 * i)).take 16) (gcmStream key nonce (i + 2))

/-- The tag over additional data and ciphertext. -/
def gcmTag (key nonce extra cipher : List Byte) : BitVec 128 :=
  let lens := beBytes 8 (8 * extra.length) ++ beBytes 8 (8 * cipher.length)
  BitVec.ofNat 128 (leNat (xorBytes (ghash (aes key (blockOf 0)) (wholeBlocks extra ++ wholeBlocks cipher ++ lens)) (gcmStream key nonce 1)))

/-! ## Masks of stored carry codes (R423) -/

/-- The mask of a SEALED line. -/
def sealedMask (key : BitVec 512) (addr : Nat) : BitVec 32 :=
  BitVec.ofNat 32 (leNat (aes (secondKey key) (blockOf (addr / 64 % 2 ^ 42 + 2 ^ 127))))

/-- The mask of a VERIFIED line. -/
def verifiedMask (key : BitVec 512) (major minor addr : Nat) : BitVec 32 :=
  BitVec.ofNat 32 (leNat (aes (firstKey key) (blockOf (counterBlock major minor addr 0 false true))))

end Sys2Proof.Machine
end

