-- ==== Sys2Proof/Machine/Flags.lean ====
section
/-! DEFINITION. Status and event computations: the class and source of every event code, posting a record into the PF0 and
VF queues with its MSI-X vector (R84 to R90, R608), error buckets (R378, R379) and the uncorrectable-error log (R382). -/
namespace Sys2Proof.Machine
open Host

/-! ## Event classes: the tables of R90, R212, R255, R289, R384, R434, R465, R500, R523, R543, R564 and R585 -/

/-- CLASS of an event code: 0 INFO, 1 CORRECTED, 2 WARN, 3 ERROR, 4 PARTITION_FATAL, 5 DEVICE_FATAL, 6 SEAL, 7 FIRMWARE
(R84 and the event tables). -/
def evtClass (c : Nat) : Nat :=
  if [0x0101, 0x010C, 0x0111, 0x0118, 0x0119, 0x0122, 0x020B, 0x0210, 0x0213, 0x0414, 0x0417, 0x0430, 0x0433, 0x0441,
      0x0510, 0x0512, 0x0521, 0x0601, 0x0610, 0x0631].contains c then 0
  else if [0x0701, 0x0705, 0x0708, 0x070A, 0x0804, 0x0809, 0x0811, 0x0813, 0x0815, 0x0817, 0x090B, 0x090C, 0x0A01,
      0x0A03, 0x0A0B, 0x0A11, 0x0A15, 0x0A20, 0x0A21, 0x0A42, 0x0A50, 0x0B02, 0x0B05, 0x0B07, 0x0C01, 0x0C03].contains c
    then 0
  else if [0x010D, 0x0110, 0x0120, 0x020A, 0x0214, 0x0301, 0x0311, 0x0320, 0x0321, 0x0330, 0x0342, 0x0411, 0x0415,
      0x0432, 0x0511, 0x0522, 0x0602, 0x0603, 0x0605, 0x0606, 0x0613, 0x0614, 0x0616, 0x0630].contains c then 2
  else if [0x0702, 0x0703, 0x0704, 0x0706, 0x0709, 0x0810, 0x0818, 0x0A09, 0x0A0A, 0x0A0C, 0x0A14, 0x0A22, 0x0A23,
      0x0A31, 0x0B04, 0x0B06, 0x0C02, 0x0C06, 0x0C10].contains c then 2
  else if [0x0128, 0x0310, 0x0313, 0x0805, 0x0806, 0x0807].contains c then 4
  else if [0x0503, 0x0707, 0x0909, 0x0A02, 0x0A10].contains c then 5
  else if 0x0401 ≤ c ∧ c ≤ 0x0408 then 6
  else if 0xF000 ≤ c then 7
  else 3

/-- Ring stop of Norak port n (R436). -/
def norakStop (n : Nat) : Nat := 33 + n
/-- Ring stop of DDR5 channel c (R436). -/
def chanStop (c : Nat) : Nat := 5 + c
/-- Ring stop of the gateway of tower m (R436). -/
def towerStop (m : Nat) : Nat := 13 + m
/-- Loam port stop that serves physical plot n: port y ÷ 2 of its tier (R347, R436). -/
def loamStop (n : Nat) : Nat := if n < 256 then 17 + n / 16 / 2 else 25 + (n - 256) / 16 / 2
/-- Requester of physical plot n at its loam port's arbiter instance, as a key of the priority registers (R457). -/
def plotRequester (n : Nat) : Nat := 256 * loamStop n + 2 * (n % 16) + n / 16 % 2
/-- Priority registers of requesters, by key, return to their defaults and lift their quarantine (R463). -/
def Dev.priDefaults (d : Dev) (l : List Nat) : Dev :=
  { d with noc := { d.noc with pri := d.noc.pri.filter fun (e : Nat × ArbPri) => !l.contains e.1 } }
/-- SOURCE of an error class (R378, R608). -/
def classSource (cl : Nat) : Nat :=
  if cl = 0 then 0x45 else if cl = 1 ∨ cl = 2 then 0x43 else if cl < 7 then towerStop (cl - 3)
  else if cl < 15 then chanStop (cl - 7) else if cl = 15 then 1 else 5

/-- SOURCE of a code that has one source (R608); codes of a stop, thread or class name theirs when they post. -/
def evtSource (c : Nat) : Nat :=
  if (0x0101 ≤ c ∧ c ≤ 0x010E) ∨ c = 0x0110 ∨ c = 0x0111 then 3
  else if c = 0x0128 ∨ c = 0x0313 ∨ c = 0x0320 ∨ c = 0x0321 ∨ c = 0x0330 then 0x45
  else if 0x0201 ≤ c ∧ c ≤ 0x0214 then 0x46
  else if c = 0x0440 ∨ c = 0x0441 ∨ c = 0x0A12 ∨ (0x0A40 ≤ c ∧ c ≤ 0x0A42) then 0
  else if c = 0x0610 ∨ c = 0x0620 ∨ c = 0x0621 ∨ c = 0x0630 ∨ c = 0x0631 then 1
  else if 0x0701 ≤ c ∧ c ≤ 0x070B then 0x42
  else if 0x0801 ≤ c ∧ c ≤ 0x0805 then 0x45
  else if (0x0806 ≤ c ∧ c ≤ 0x0809) ∨ c = 0x0811 ∨ c = 0x0812 ∨ c = 0x0817 ∨ c = 0x0818 then 0x43
  else if c = 0x090B ∨ c = 0x090D then 0x80
  else if (0x0A01 ≤ c ∧ c ≤ 0x0A0C) ∨ c = 0x0A50 then 0x40
  else if c = 0x0A10 ∨ c = 0x0A11 ∨ c = 0x0A14 ∨ c = 0x0A15 then 0x41
  else if 0x0A30 ≤ c ∧ c ≤ 0x0A32 then 2
  else if 0x0B01 ≤ c ∧ c ≤ 0x0B07 then 0x44
  else if c = 0x0C01 ∨ c = 0x0C05 ∨ c = 0x0C06 then 0x45
  else if c = 0x0C02 ∨ c = 0x0C03 then 4
  else if c = 0x0C10 then 0x48
  else 0x47

/-! ## Posting -/

/-- MSI-X entry of function f, vector v (R89). -/
def Dev.msix (d : Dev) (f v : Nat) : Msix := tget d.evt.msix (64 * f + v) {}

/-- Raise a vector of a function: a masked vector becomes pending, another is delivered (R89). -/
def Dev.raise (d : Dev) (f v : Nat) : Dev :=
  if (d.msix f v).masked then
    { d with evt := { d.evt with pba := if d.evt.pba.contains (64 * f + v) then d.evt.pba else (64 * f + v) :: d.evt.pba } }
  else { d with evt := { d.evt with vectors := tupd d.evt.vectors (64 * f + v) 0 (· + 1) } }

/-- A queue of `n` slots is full (R86, R88). -/
def EvtQueue.full (q : EvtQueue) (n : Nat) : Bool := decide ((q.prod + 1) % n = q.cons % n)

/-- A record enters a queue of `n` slots, or is lost to a full one (R86, R87). -/
def EvtQueue.push (q : EvtQueue) (n : Nat) (r : EvtRec) : EvtQueue :=
  if q.full n then { q with lost := sat1 q.lost, ovf := true }
  else { q with slots := tset q.slots q.prod { r with ovf := q.ovf }, prod := (q.prod + 1) % n, ovf := false }

/-- PF0 vector of a record that EVT did not post: 0 for DEVICE_FATAL and SEAL, else the code's high byte (R89). -/
def evtVector (r : EvtRec) : Nat := if r.cls = 5 ∨ r.cls = 6 then 0 else r.code.toNat / 256

/-- A vector is raised where one is named. -/
def Dev.raiseAt (d : Dev) (f : Nat) : Option Nat → Dev
  | some v => d.raise f v
  | none => d

/-- A record enters the PF0 queue with the vector `v`; a record lost to a full queue raises vector 0, once per episode
(R86, R87, R89). -/
def Dev.postPf (d : Dev) (r : EvtRec) (v : Option Nat) : Dev :=
  { d with evt := { d.evt with pf := d.evt.pf.push 4096 r } }.raiseAt 0
    (if d.evt.pf.full 4096 then (if d.evt.pf.ovf then none else some 0)
     else if d.evt.mask.getLsbD r.cls.toNat then none else v)

/-- A record enters its partition's VF queue with the vector `w` (R50, R88, R89). -/
def Dev.postVf (d : Dev) (r : EvtRec) (w : Option Nat) : Dev :=
  let p := r.part.toNat
  let q := tget d.evt.vf p {}
  { d with evt := { d.evt with vf := tset d.evt.vf p (q.push 256 r) } }.raiseAt p (if q.full 256 then none else w)

/-- A record is posted with the PF0 vector `v` and the VF vector `w` it raises, `none` for none: into the PF0 queue, and into
its partition's VF queue when EVT_VF is accepted and the partition exists (R50, R87 to R89). -/
def Dev.postRec (d : Dev) (r : EvtRec) (v w : Option Nat) : Dev :=
  let p := r.part.toNat
  if d.feat 15 && decide (1 ≤ p) && decide (p ≤ 64) && decide ((d.part p).state ≠ .none) then (d.postPf r v).postVf r w
  else d.postPf r v

/-- The record of an event of a given source, partition and detail (R84). -/
def Dev.mkRec (d : Dev) (code detail part src : Nat) : EvtRec :=
  { time := d.evt.time, source := BitVec.ofNat 8 src, part := BitVec.ofNat 7 part,
    cls := BitVec.ofNat 3 (evtClass code), sealed := d.ime.sealed, ovf := false,
    code := BitVec.ofNat 16 code, detail := BitVec.ofNat 32 detail }

/-- An event of a named source is posted (R84, R89). -/
def Dev.postSrc (d : Dev) (code detail part src : Nat) : Dev :=
  let r := d.mkRec code detail part src
  d.postRec r (some (evtVector r)) (some 0)

/-- An event of its code's own source is posted (R608). -/
def Dev.post (d : Dev) (code detail : Nat) (part : Nat := 0) : Dev := d.postSrc code detail part (evtSource code)

/-- An event whose SOURCE the table of R608 does not give to one unit: a free value (log 30). -/
def Dev.postFree (d : Dev) (code detail : Nat) (part : Nat := 0) : Dev :=
  (d.postSrc code detail part ((Config.freeWord d.free).toNat % 256)).draw 1

/-! ## Error buckets and the log -/

/-- BUCKET capacity in force: below 2 acts as 2 (R385). -/
def Mem.cap (m : Mem) : Nat := max 2 m.capacity.toNat

/-- A corrected codeword of class `cl` at location `loc` raises its bucket, and may post 0x0301 (R379). -/
def Dev.countCorrected (d : Dev) (cl loc : Nat) : Dev :=
  let b := tget d.mem.buckets cl {}
  if b.recent.contains loc then d
  else
    let recent := (loc :: b.recent).take 16
    let cap := d.mem.cap
    let b1 := { b with recent := recent, corrected := sat1 b.corrected }
    if b.level.toNat < cap then
      { d with mem := { d.mem with buckets := tset d.mem.buckets cl { b1 with level := sat1 b.level } } }
    else
      let b2 := { b1 with overflows := sat1 b.overflows, latch := true }
      let d1 := { d with mem := { d.mem with buckets := tset d.mem.buckets cl b2 } }
      if b.latch then d1
      else d1.postSrc 0x0301 (cl * 2 ^ 24 + b2.overflows.toNat) 0 (classSource cl)

/-- Several corrected codewords of one class, at locations the environment does not name one by one. -/
def Dev.countCorrectedN (d : Dev) (cl : Nat) : Nat → Dev
  | 0 => d
  | n + 1 => (d.countCorrected cl n).countCorrectedN cl n

/-- An uncorrectable read, fold mismatch (kind 2) or poisoned line (kind 3) is logged (R382). -/
def Dev.logUe (d : Dev) (cl kind addr : Nat) : Dev :=
  { d with mem := { d.mem with ueValid := true, ueClass := BitVec.ofNat 5 cl, ueKind := BitVec.ofNat 2 kind,
                               ueAddr := BitVec.ofNat 48 addr } }

/-- The error class of a system address: towers 3 to 6, DDR5 channels 7 to 14, sequencer memory 15 (R378). -/
def Dev.classOf (d : Dev) (a : Nat) : Nat :=
  if 0x031000000000 ≤ a then 15
  else if 0x020000000000 ≤ a then 3 + (a - 0x020000000000) / 0x000C00000000 % 4
  else match (span 0 8).find? fun c =>
      let h := d.chan c
      h.mapped && decide (h.base * 2 ^ 26 ≤ a) && decide (a < (h.base + h.user) * 2 ^ 26) with
    | some c => 7 + c
    | none => 7

/-- UE policy of a class is BUSERR (R380, R381): UE_BUSERR is accepted, and a policy is that of classes 0 and 3 to 14. -/
def Dev.busErr (d : Dev) (cl : Nat) : Bool :=
  d.feat 16 && (decide (cl = 0) || (decide (3 ≤ cl) && decide (cl ≤ 14))) && d.mem.uePolicy.getLsbD cl

/-- System address bits [43:12], the detail of memory events (R384). -/
def addrDetail (a : Nat) : Nat := bits a 12 32

/-- Two's-complement field of `w` bits. -/
def intField (w : Nat) (x : Int) : Nat := (BitVec.ofInt w x).toNat

end Sys2Proof.Machine
end

