-- ==== Sys2Proof/Machine/Stored.lean ====
section
/-! DEFINITION. What marl, DDR5 and sequencer memory store: lines under their keys, codewords with the bits that have changed, carry
codes, MACs, counter blocks and tree nodes (R335 to R340, R376, R377, R390 to R396, R410, R411, R421 to R424), and the reads and writes
of bytes. -/
namespace Sys2Proof.Machine
open Host

/-! ## Addresses -/

/-- System address of a byte of sequencer memory (R261). -/
def seqAddr (off : Nat) : Nat := 0x031000000000 + off

/-- Start of marl (R342). -/
def marlBase : Nat := 0x020000000000
/-- End of marl (R266). -/
def marlEnd : Nat := 0x023000000000
/-- Bytes from one tower to the next (R342). -/
def towerSize : Nat := 0x000C00000000

/-- DDR5 channel that holds a system address, and the physical offset there (R351). -/
def Dev.physAt (d : Dev) (a : Nat) : Nat × Nat :=
  let c := d.classOf a - 7
  (c, a - (d.chan c).base * 2 ^ 26)

/-- L of the codeword that holds a system address (R336). -/
def Dev.locOf (d : Dev) (a : Nat) : Nat :=
  if 0x031000000000 ≤ a then locSeq (a - 0x031000000000)
  else if marlBase ≤ a then locMarl ((a - marlBase) / towerSize) ((a - marlBase) % towerSize)
  else locDdr (d.physAt a).1 (d.physAt a).2

/-! ## The metadata of a DDR5 channel (R394, R396, R410, R411) -/

/-- Installed bytes S of a channel. -/
def Chan.bytes (h : Chan) : Nat := h.gib * 2 ^ 30
/-- CC_BASE. -/
def Chan.ccBase (h : Chan) : Nat := h.bytes - h.bytes / 16
/-- MAC_BASE. -/
def Chan.macBase (h : Chan) : Nat := h.ccBase - h.bytes / 8
/-- CTR_BASE. -/
def Chan.ctrBase (h : Chan) : Nat := h.macBase - h.bytes / 64

/-- Nodes of level `i` of a channel's tree. -/
def Chan.nodes (h : Chan) (i : Nat) : Nat := (h.bytes / 4096 + 8 ^ i - 1) / 8 ^ i

/-- TREE_BASE. -/
def Chan.treeBase (h : Chan) : Nat := h.ctrBase - ((span 1 h.levels).map fun i => 64 * h.nodes i).foldl (· + ·) 0

/-- Base of a stored level, level 0 the counter area. -/
def Chan.levelBase (h : Chan) (i : Nat) : Nat :=
  if i = 0 then h.ctrBase else h.treeBase + ((span 1 (i - 1)).map fun j => 64 * h.nodes j).foldl (· + ·) 0

/-- Physical offset of the carry code of the line at an offset. -/
def Chan.ccAt (h : Chan) (off : Nat) : Nat := h.ccBase + off / 16
/-- Physical offset of its MAC. -/
def Chan.macAt (h : Chan) (off : Nat) : Nat := h.macBase + off / 8
/-- Physical offset of its counter block, level 0, or of its node of a higher level. -/
def Chan.nodeAt (h : Chan) (level off : Nat) : Nat := h.levelBase level + off / 4096 / 8 ^ level * 64

/-- Counters of a page of a channel. -/
def Dev.pageCounter (d : Dev) (c page : Nat) : Counter := tget d.ime.counters (c * 2 ^ 32 + page) {}

/-- A page's counter block: MAJOR in [63:0], minor counter i in 7 bits from 64 + 7i (R394). -/
def Counter.block (x : Counter) : List Byte :=
  leBytes 64 (x.major + (span 0 64).foldl (fun n i => n + tget x.minors i 0 * 2 ^ (64 + 7 * i)) 0)

/-- A counter block, level 0, or tree node of a channel by number. -/
def nodeKey (c level n : Nat) : Nat := c * 2 ^ 48 + level * 2 ^ 40 + n

/-- The 64 bytes that DDR5 holds of a node whose value is `now`: while the cache holds it dirty, what was last written there (R398). -/
def Dev.inDdr5 (d : Dev) (key : Nat) (now : List Byte) : List Byte :=
  match tget d.ime.lagging key [] with
  | [] => now
  | l => l

/-- A node of a channel's tree: level 0 the counter blocks, above them the MACs of eight children each, as the children stand in DDR5 (R396,
R398). -/
def Dev.nodeBlock (d : Dev) (c : Nat) : Nat → Nat → List Byte
  | 0, n => (d.pageCounter c n).block
  | i + 1, n => (span 0 8).flatMap fun k => leBytes 8 (childMac (d.chan c).treeKey i (8 * n + k)
      (d.inDdr5 (nodeKey c i (8 * n + k)) (d.nodeBlock c i (8 * n + k)))).toNat

/-- The entries of a channel's root: the MACs of the nodes of the highest stored level (R396). -/
def Dev.rootEntries (d : Dev) (c : Nat) : List (BitVec 64) :=
  let h := d.chan c
  (span 0 (h.nodes h.levels)).map fun n =>
    childMac h.treeKey h.levels n (d.inDdr5 (nodeKey c h.levels n) (d.nodeBlock c h.levels n))

/-- Major and minor counter of the line at a system address (R391, R394). -/
def Dev.lineCounters (d : Dev) (a : Nat) : Nat × Nat :=
  let x := d.physAt a
  let p := d.pageCounter x.1 (x.2 / 4096)
  (p.major, tget p.minors (x.2 / 64 % 64) 0)

/-! ## Lines and codewords as stored -/

/-- The key under which a KeyID writes: 0 for PLAIN, else the KeyID and which key it holds (R390, R412; log 11). -/
def Dev.keyTag (d : Dev) (k : Nat) : Nat :=
  if (d.keyid k).mode = .plain then 0 else k * 2 ^ 32 + (d.keyid k).gen

/-- A byte as its writer gave it, read under a KeyID: a free value where nothing has written it or another key did (R375, R328); the
free values are those of this moment and address. -/
def Dev.plainByte (d : Dev) (k x : Nat) : Byte :=
  if 0x031000000000 ≤ x ∨ tget d.mem.tags (x / 64) 0 = d.keyTag k then (cget d.mem.cells x).getD (Config.freeByte (2 ^ 48 * d.free + x))
  else Config.freeByte (2 ^ 48 * d.free + x)

/-- KeyID of the key that wrote a line, 0 for PLAIN. -/
def Dev.lineKey (d : Dev) (line : Nat) : Nat := tget d.mem.tags line 0 / 2 ^ 32

/-- The 64 bytes of a line as they are stored: XTS or counter-mode ciphertext under the key that wrote them (R389 to R391); a free
value where that key is gone. -/
def Dev.storedLine (d : Dev) (line : Nat) : List Byte :=
  let tag := tget d.mem.tags line 0
  let k := d.lineKey line
  let plain := (span (64 * line) 64).map (d.plainByte k)
  if tag = 0 ∨ 0x031000000000 ≤ 64 * line then plain
  else if d.keyTag k ≠ tag then freeBytes (2 ^ 48 * d.free + 64 * line) 64
  else match (d.keyid k).mode with
    | .plain => plain
    | .sealed => xtsLine (d.keyid k).key (64 * line) plain
    | .verified => ctrLine (d.keyid k).key (d.lineCounters (64 * line)).1 (d.lineCounters (64 * line)).2 (64 * line) plain

/-- The 64 data bits that were stored in the codeword that holds a system address. -/
def Dev.storedData (d : Dev) (a : Nat) : BitVec 64 := leWord (((d.storedLine (a / 64)).drop (a / 8 % 8 * 8)).take 8)

/-- Bits of the codeword that holds a system address that differ from what its data store: changed ones, and P of a poisoned line
(R339, R377). -/
def Dev.changedAt (d : Dev) (a : Nat) : BitVec 80 :=
  tget d.mem.upsets (a / 8) 0 ^^^ (if d.mem.poison.contains (a / 64) then 1#80 <<< 78 else 0)

/-- The codeword stored for a system address (R335, R337, R377). -/
def Dev.storedWord (d : Dev) (a : Nat) : BitVec 80 := codeword (d.locOf a) (d.storedData a) ^^^ d.changedAt a

/-- The eight codewords of a line as stored. -/
def Dev.storedUnit (d : Dev) (line : Nat) : List (BitVec 80) := (span 0 8).map fun i => d.storedWord (64 * line + 8 * i)

/-- What a read of the codeword at a system address comes to (R338). -/
def Dev.readWord (d : Dev) (a : Nat) : Verdict × BitVec 64 := readCode (d.locOf a) (d.storedWord a)

/-- The data line of a system line index as it is sent: the burst of its DDR5 subchannel (R350). -/
def Dev.lineBurst (d : Dev) (line : Nat) : Nat × List Beat := (subchannel (d.physAt (64 * line)).2, burstOf (d.storedUnit line))

/-- The mask of a line's stored carry code (R423). -/
def Dev.carryMask (d : Dev) (line : Nat) : BitVec 32 :=
  let k := d.lineKey line
  match (d.keyid k).mode with
  | .plain => 0
  | .sealed => sealedMask (d.keyid k).key (64 * line)
  | .verified => verifiedMask (d.keyid k).key (d.lineCounters (64 * line)).1 (d.lineCounters (64 * line)).2 (64 * line)

/-- The carry code of a line's data (R421). -/
def Dev.lineCarry (d : Dev) (line : Nat) : BitVec 32 := carryCode ((span (64 * line) 64).map (d.plainByte (d.lineKey line)))

/-- The carry code stored for a line, at its place in the carry-code area (R343, R411, R423). -/
def Dev.storedCarry (d : Dev) (line : Nat) : BitVec 32 := d.lineCarry line ^^^ d.carryMask line ^^^ tget d.mem.ccUpsets line 0

/-- The MAC stored for a VERIFIED line (R392). -/
def Dev.storedMac (d : Dev) (line : Nat) : BitVec 64 :=
  lineMac (d.keyid (d.lineKey line)).key (d.lineCounters (64 * line)).1 (d.lineCounters (64 * line)).2 (64 * line) (d.storedLine line)

/-! ## Bytes read -/

/-- A byte that a read delivers under a KeyID: as written, or as the device code gives it where stored bits have changed. Wrong data of
an encrypted block decrypt to bytes that the model leaves free (R338, R339; log 122). -/
def Dev.readByte (d : Dev) (k x : Nat) : Byte :=
  if d.changedAt x = 0 then d.plainByte k x
  else
    let w := (d.readWord x).2
    if w = d.storedData x then d.plainByte k x
    else if tget d.mem.tags (x / 64) 0 = 0 ∨ 0x031000000000 ≤ x then (w >>> (8 * (x % 8))).setWidth 8
    else Config.freeByte (2 ^ 48 * d.free + x)

/-- Bytes read at a system address under a KeyID (R328, R338, R375). -/
def Dev.memRead (d : Dev) (k a n : Nat) : List Byte := (span a n).map (d.readByte k)

/-- A line of a range is poisoned (R377). -/
def Dev.poisoned (d : Dev) (a n : Nat) : Bool := d.mem.poison.any fun x => meets (64 * x) 64 a n

/-- Stored bits of the codeword that holds a system address change (R339). -/
def Dev.upset (d : Dev) (a : Nat) (changed : BitVec 80) : Dev :=
  let v := tget d.mem.upsets (a / 8) 0 ^^^ changed
  { d with mem := { d.mem with upsets := if v = 0 then tdel d.mem.upsets (a / 8) else tset d.mem.upsets (a / 8) v } }

/-- Bits of the stored carry code of a line change. -/
def Dev.upsetCarry (d : Dev) (line : Nat) (changed : BitVec 32) : Dev :=
  let v := tget d.mem.ccUpsets line 0 ^^^ changed
  { d with mem := { d.mem with ccUpsets := if v = 0 then tdel d.mem.ccUpsets line else tset d.mem.ccUpsets line v } }

/-! ## Bytes written -/

/-- A line holds nothing that reads as written. -/
def cdelLine (m : List Cell) (x : Nat) : List Cell := (span (64 * x) 64).foldl cdel m

/-- The codewords from `lo` up to `hi`, system addresses divided by 8, are written again as they read: what was wrong with their stored
bits is gone, and data that a false correction changed stays changed (R339, R376; log 122). -/
def Dev.settle (d : Dev) (lo hi : Nat) : Dev :=
  let hit := d.mem.upsets.filter fun e => decide (lo ≤ e.1) && decide (e.1 < hi)
  if hit.isEmpty then d
  else
    { d with mem := { d.mem with
        upsets := d.mem.upsets.filter fun e => !(decide (lo ≤ e.1) && decide (e.1 < hi)),
        cells := hit.foldl (fun m e =>
          let w := (d.readWord (8 * e.1)).2
          if w = d.storedData (8 * e.1) then m
          else if tget d.mem.tags (e.1 / 8) 0 = 0 ∨ 0x031000000000 ≤ 8 * e.1 then csetBytes m (8 * e.1) (leBytes 8 w.toNat)
          else (span (16 * (e.1 / 2)) 16).foldl cdel m) d.mem.cells } }

/-- Bytes written at a system address under a KeyID, with the codewords, carry codes and MACs that go with them (R337, R424): the
lines they cover in marl and DDR5 carry its key, so that bytes of such a line written under another key are lost (R390), and a whole
line written ends a line's poison (R377). Sequencer memory is written by codewords, is not sealed and holds no poison. -/
def Dev.memWrite (d : Dev) (k a : Nat) (l : List Byte) : Dev :=
  if l.isEmpty then d
  else
    let last := a + l.length - 1
    let dram := decide (a < 0x031000000000)
    let d := if dram then d.settle (8 * (a / 64)) (8 * (last / 64) + 8) else d.settle (a / 8) (last / 8 + 1)
    let lines := if dram then span (a / 64) (last / 64 - a / 64 + 1) else []
    let tag := d.keyTag k
    { d with mem := { d.mem with
        cells := csetBytes (lines.foldl (fun m x => if tget d.mem.tags x 0 = tag then m else cdelLine m x) d.mem.cells) a l,
        tags := lines.foldl (fun t x => if tag = 0 then tdel t x else tset t x tag) d.mem.tags,
        ccUpsets := d.mem.ccUpsets.filter fun e => !(decide (a / 64 ≤ e.1) && decide (e.1 ≤ last / 64)),
        poison := d.mem.poison.filter fun x => !(lines.contains x && decide (a ≤ 64 * x) &&
          decide (64 * x + 64 ≤ a + l.length)) } }

/-! ## What a read finds -/

/-- What is wrong with a range that was read. -/
inductive Bad where
  /-- an uncorrectable codeword (R338) -/
  | ue
  /-- a fold mismatch (R340) -/
  | fold
  /-- a poisoned line (R377) -/
  | poison
  /-- a stored carry code that disagrees (R425) -/
  | carry
  /-- data that disagree with their carry code where they leave (R425) -/
  | moved
  /-- an error completion of the network (R79, R453, R462) -/
  | abort
  deriving DecidableEq, Repr

/-- KIND of MEM_UE_LOG (R382). -/
def Bad.kind : Bad → Nat
  | .fold => 2
  | .poison => 3
  | _ => 1

/-- An outcome's changes are in the stored bits from now on: those of a codeword or carry code of the range (R340 leaves them there).
-/
def Dev.absorb (d : Dev) (rd : ReadOutcome) (a n : Nat) : Dev :=
  match rd with
  | .upset w c => if 8 * (a / 8 + w) < a + n then d.upset (8 * (a / 8 + w)) c else d
  | .carry u c => if 64 * (a / 64 + u) < a + n then d.upsetCarry (a / 64 + u) c else d
  | _ => d

/-- Codewords of a range whose stored bits have changed, with what a read of each comes to. -/
def Dev.changedWords (d : Dev) (a n : Nat) : List (Nat × Verdict) :=
  (d.mem.upsets.filter fun e => meets (8 * e.1) 8 a n).map fun e => (8 * e.1, (d.readWord (8 * e.1)).1)

/-- The first place of a range that a read cannot use, and why: an uncorrectable codeword, a poisoned line or a stored carry code
(R340, R377, R384, R425). -/
def Dev.firstWrong (d : Dev) (a n : Nat) : Option (Nat × Bad) :=
  let words := (d.changedWords a n).filterMap fun e => match e.2 with
    | .uncorrectable => some (e.1, Bad.ue)
    | .fold => some (e.1, Bad.fold)
    | _ => none
  let lines := (d.mem.poison.filter fun x => meets (64 * x) 64 a n).map fun x => (64 * x, Bad.poison)
  let codes := (d.mem.ccUpsets.filter fun e => meets (64 * e.1) 64 a n).map fun e => (64 * e.1, Bad.carry)
  (lines ++ words ++ codes).foldl (fun b x => match b with
    | some y => if x.1 / 64 < y.1 / 64 then some x else b
    | none => some x) none

/-- The corrected codewords of a range count in their class (R379). -/
def Dev.countRange (d : Dev) (a n : Nat) : Dev :=
  ((d.changedWords a n).filter fun e => decide (e.2 = .corrected)).foldl (fun x e => x.countCorrected (x.classOf e.1) (x.locOf e.1)) d

/-- A corrected codeword of a range delivers data that were not stored there (R339). -/
def Dev.wrongData (d : Dev) (a n : Nat) : Bool :=
  (d.mem.upsets.filter fun e => meets (8 * e.1) 8 a n).any fun e => decide ((d.readWord (8 * e.1)).2 ≠ d.storedData (8 * e.1))

/-- The lines that a write of `n` bytes covers in part: the first, the last, or neither (R376). -/
def partialLines (a n : Nat) : List Nat :=
  let f := a / 64
  let l := (a + n - 1) / 64
  if n = 0 then []
  else (if a % 64 ≠ 0 ∨ a + n < 64 * f + 64 then [f] else []) ++ (if l ≠ f ∧ (a + n) % 64 ≠ 0 then [l] else [])

end Sys2Proof.Machine
end

