-- ==== Sys2Proof/Machine/Operands.lean ====
section
/-! DEFINITION. Operand forms: Vezer registers, windows and issue (R257 to R270), traps (R285 to R288), tickets (R277 to
R282), system addresses and the access rules of the IME (R386 to R416), operand blocks (R295 to R297). -/
namespace Sys2Proof.Machine
open Host

/-! ## Registers and the PC -/

/-- Register gN: g0 reads zero (R257). -/
def Thread.reg (t : Thread) (r : BitVec 5) : Word := if r = 0 then 0 else tget t.regs r.toNat 0

/-- Register gN written: a write to g0 is discarded (R257). -/
def Thread.setReg (t : Thread) (r : BitVec 5) (v : Word) : Thread :=
  if r = 0 then t else { t with regs := tset t.regs r.toNat v }

/-- SEQ_WIN_n of a thread; T0's covers all of sequencer memory (R293). -/
def Dev.win (d : Dev) (n : Nat) : Word := if n = 0 then 0x0000000004000000 else (d.thr n).win

/-- A pending window takes effect at the thread's next instruction boundary (R263). -/
def Thread.applyWin (t : Thread) : Thread :=
  match t.winNext with
  | some w => { t with win := w, winNext := none }
  | none => t

/-- Byte address of a window's start (R262). -/
def winBase (w : Word) : Nat := bits w.toNat 0 10 * 4096
/-- Length of a window in bytes (R262). -/
def winSize (w : Word) : Nat := bits w.toNat 16 11 * 4096
/-- Length of a window's code part in bytes (R262). -/
def winCode (w : Word) : Nat := bits w.toNat 32 11 * 4096

/-- Thread n may fetch at a byte offset (R262). -/
def Dev.mayFetch (d : Dev) (n a : Nat) : Bool :=
  if n = 0 then within a 4 0 0x400000 else within a 4 (winBase (d.win n)) (winCode (d.win n))
/-- Thread n may load `k` bytes at an offset (R262). -/
def Dev.mayLoad (d : Dev) (n a k : Nat) : Bool :=
  if n = 0 then within a k 0 0x400000 else within a k (winBase (d.win n)) (winSize (d.win n))
/-- Thread n may store `k` bytes at an offset: only into the data part (R262). -/
def Dev.mayStore (d : Dev) (n a k : Nat) : Bool :=
  if n = 0 then within a k 0 0x400000
  else within a k (winBase (d.win n) + winCode (d.win n)) (winSize (d.win n) - winCode (d.win n))

/-- A value taken into the PC, which is always a multiple of 4 (R257; log 123). -/
def pcOf (v : Word) : Word := v &&& ~~~3#64

/-! ## Traps -/

/-- The head of the trap queue is delivered to T0 when T0 is RUN, or waits in WAITT or FENCE, is not in trap mode, and
has a handler: T0 takes the trap's values, TRET its next instruction or abandoned wait, and jumps to TVEC (R286 step
4). -/
def Dev.deliver (d : Dev) : Dev :=
  let t0 := d.thr 0
  let ready := match t0.state, t0.wait with
    | .run, _ => true
    | .wait, some (.waitt ..) => true
    | .wait, some (.fence ..) => true
    | _, _ => false
  match d.seq.queue with
  | t :: r =>
    if ready && !d.seq.trapMode && decide (d.seq.tvec ≠ 0) then
      let d1 := { d with seq := { d.seq with
        queue := r, trapMode := true, tcause := BitVec.ofNat 64 t.code.toNat, tthr := BitVec.ofNat 64 t.thread,
        tpc := t.pc, tval := t.tval, tret := t0.pc } }
      d1.updThr 0 fun x => { x with state := .run, wait := none, pc := pcOf d.seq.tvec }
    else d
  | [] => d

/-- Thread n raises a trap (R286): the event and SEQ_TRAP_LAST; a thread other than T0 enters TRAPPED and its trap is
queued when TVEC is set; T0 outside trap mode takes it at once, or enters TRAPPED with TVEC zero; T0 in trap mode has a
double trap (R287). -/
def Dev.trap (d : Dev) (n code : Nat) (tval : Word) : Dev :=
  let pc := (d.thr n).pc
  let t : Trap := { code := BitVec.ofNat 16 code, thread := n, pc := pc, tval := tval }
  let d1 := d.postSrc code pc.toNat n (0x80 + n)
  let d2 := { d1 with seq := { d1.seq with last := t } }
  if n = 0 then
    if d.seq.trapMode then
      let d3 := (d2.updThr 0 fun x => { x with state := .trapped, wait := none }).postSrc 0x0909 pc.toNat 0 0x80
      { d3 with seq := { d3.seq with double := true } }
    else if d.seq.tvec = 0 then d2.updThr 0 fun x => { x with state := .trapped, wait := none }
    else
      let d3 := d2.updThr 0 fun x => { x with state := .run, wait := none }
      { d3 with seq := { d3.seq with queue := t :: d3.seq.queue } }.deliver
  else
    let d3 := d2.updThr n fun x => { x with state := .trapped, wait := none }
    if d.seq.tvec = 0 then d3
    else { d3 with seq := { d3.seq with queue := d3.seq.queue ++ [t] } }.deliver

/-- A thread's queued traps are dropped: it was reset or restarted (R286). -/
def Dev.dropTraps (d : Dev) (n : Nat) : Dev :=
  { d with seq := { d.seq with queue := d.seq.queue.filter fun t => decide (t.thread ≠ n) } }

/-! ## Issue -/

/-- The 32-bit word that a fetch at an offset of sequencer memory delivers, if all of it has been written. -/
def Dev.wordAt (d : Dev) (off : Nat) : Option Nat :=
  (cgetBytes d.mem.cells (seqAddr off) 4).map fun _ => leNat (d.memRead 0 (seqAddr off) 4)

/-- A read of a range whose KeyID has no integrity metadata: the outcome's changes join the stored bits, corrections count, and the first
place that cannot be used is answered (R338 to R340, R379, R425). -/
def Dev.lookPlain (d : Dev) (a n : Nat) (rd : ReadOutcome) : Dev × Option (Nat × Bad) :=
  let e := (d.absorb rd a n).countRange a n
  (e, match e.firstWrong a n with
    | some x => some x
    | none => match rd with
      | .moved c => if carryWrong c then some (a, .moved) else none
      | .abort => some (a, .abort)
      | _ => none)

/-- A read of sequencer memory by a thread has failed: a carry-code mismatch at the sequencer's exit is counted with its event (R425),
another failure is logged (R264, R382); either raises the trap. -/
def Dev.seqTrap (d : Dev) (n : Nat) (b : Nat × Bad) (code : Nat) (tval : Word) : Dev :=
  (match b.2 with
    | .carry | .moved => { d with ime := { d.ime with ccSeq := sat1 d.ime.ccSeq } }.postSrc 0x0423 n 0 1
    | .abort => d
    | x => d.logUe 15 x.kind b.1).trap n code tval

/-- An instruction whose word is `w` issues on its thread (R260, R285): the thread must be RUN, and memory at its PC must
hold that word where it has been written (a word never written may read as anything, R375). The fetch's own error comes first, then an
illegal instruction, where `illegal` holds, then the rights of R262. `body` gives what the instruction does. -/
def Dev.issue (d : Dev) (i : Issue) (w : Nat) (body : Dev → Dev) (illegal : Dev → Bool := fun _ => false) : Dev :=
  let n := i.thread
  let d := if n ≤ 64 then d.updThr n Thread.applyWin else d
  let t := d.thr n
  let pc := t.pc.toNat
  if 64 < n ∨ t.state ≠ .run then d
  else
    let x := if pc < 0x400000 then d.lookPlain (seqAddr pc) 4 i.fetch else (d, none)
    match x.2 with
    | some b => x.1.seqTrap n b 0x0901 t.pc
    | none =>
      if !x.1.mayFetch n pc ∧ (0x400000 ≤ pc ∨ !illegal x.1) then x.1.trap n 0x0903 t.pc
      else match x.1.wordAt pc with
        | some y => if y = w then body x.1 else x.1
        | none => body x.1

/-- The next instruction of a thread (R257). -/
def Dev.nextPc (d : Dev) (n : Nat) : Dev := d.updThr n fun t => { t with pc := t.pc + 4 }

/-- A result to register gD, and on to the next instruction. -/
def Dev.result (d : Dev) (n : Nat) (r : BitVec 5) (v : Word) : Dev :=
  d.updThr n fun t => { t.setReg r v with pc := t.pc + 4 }

/-- Format A word (R268). -/
def wordA (op fn : Nat) (d a b : BitVec 5) : Nat :=
  op * 2 ^ 26 + d.toNat * 2 ^ 21 + a.toNat * 2 ^ 16 + b.toNat * 2 ^ 11 + fn
/-- Format I, M and B word: the two register fields and 16 low bits (R268). -/
def wordI (op : Nat) (d a : BitVec 5) (imm : Nat) : Nat :=
  op * 2 ^ 26 + d.toNat * 2 ^ 21 + a.toNat * 2 ^ 16 + imm
/-- Format J word (R268). -/
def wordJ (op : Nat) (off : BitVec 26) : Nat := op * 2 ^ 26 + off.toNat
/-- Format V word (R268, R294). -/
def wordV (dop : Nat) (d a b : BitVec 5) : Nat :=
  0x3E * 2 ^ 26 + d.toNat * 2 ^ 21 + a.toNat * 2 ^ 16 + b.toNat * 2 ^ 11 + dop * 2 ^ 5

/-! ## Tickets -/

/-- Slot s of a thread (R278). -/
def Thread.slot (t : Thread) (s : Nat) : Slot := tget t.slots s {}
/-- Slots of a thread that are occupied (R276 TKT, R293 TICKETS). -/
def Thread.busySlots (t : Thread) : List Nat := (span 0 16).filter fun s => (t.slot s).busy
/-- The lowest free slot (R278). -/
def Thread.freeSlot (t : Thread) : Option Nat := (span 0 16).find? fun s => !(t.slot s).busy

/-- A completion status (R281). -/
def status (code detail : Nat) : Word := BitVec.ofNat 64 (detail % 2 ^ 32 * 2 ^ 32 + code % 2 ^ 16)

/-- The ticket of a slot (R278). -/
def ticket (n s : Nat) (gen : BitVec 12) : Word := BitVec.ofNat 64 (n * 2 ^ 16 + gen.toNat * 2 ^ 4 + s)

/-- Smallest order first. -/
def insertOrder (x : Slot) : List Slot → List Slot
  | [] => [x]
  | y :: r => if x.order < y.order then x :: y :: r else y :: insertOrder x r

/-- FENCE's summary: the first failed CODE in post order, and how many failed (R280). -/
def Thread.fenceSummary (t : Thread) : Word :=
  let l := (t.busySlots.map t.slot).foldl (fun acc s => insertOrder s acc) []
  let codes := l.map fun s => bits (s.done.getD 0).toNat 0 16
  let bad := codes.filter (· ≠ 0)
  BitVec.ofNat 64 (bad.length * 2 ^ 16 + bad.headD 0)

/-- Every occupied slot has completed (R280). -/
def Thread.allDone (t : Thread) : Bool := t.busySlots.all fun s => (t.slot s).done.isSome

/-- A slot is free again; its generation stays (R278). -/
def Thread.freeOne (t : Thread) (s : Nat) : Thread :=
  { t with slots := tupd t.slots s {} fun x => { x with busy := false, done := none } }

/-- All slots free (R280). -/
def Thread.freeAll (t : Thread) : Thread := t.busySlots.foldl Thread.freeOne t

/-- A thread that waits gets its result when what it waits for has completed (R279, R280), and T0 then takes queued
traps (R286). -/
def Dev.wake (d : Dev) (n : Nat) : Dev :=
  let t := d.thr n
  match t.state, t.wait with
  | .wait, some (.waitt s r gen _) =>
    match (t.slot s).done with
    | some v =>
      if (t.slot s).gen = gen then
        let d1 := d.updThr n fun t =>
          { (t.freeOne s).setReg (BitVec.ofNat 5 r) v with state := .run, wait := none, pc := t.pc + 4 }
        if n = 0 then d1.deliver else d1
      else d
    | none => d
  | .wait, some (.fence r _) =>
    if t.allDone then
      let d1 := d.updThr n fun t =>
        { t.freeAll.setReg (BitVec.ofNat 5 r) t.fenceSummary with state := .run, wait := none, pc := t.pc + 4 }
      if n = 0 then d1.deliver else d1
    else d
  | _, _ => d

/-- TYPE of KEYSET, gA[18:16] (R325). -/
def keyType (a : Nat) : Nat := bits a 16 3

/-- Zero written over the key bytes of a key block (R326). -/
def Dev.zeroKey (d : Dev) (o : Op) : Dev :=
  match keyType o.a.toNat with
  | 1 => d.memWrite 0 (seqAddr (o.b.toNat + 16)) (leBytes 64 0)
  | 2 => d.memWrite 0 (seqAddr o.b.toNat) (leBytes 48 0)
  | _ => d

/-- What an operation leaves behind when it completes, however it does: a DMA's CODE is its channel's last one (R321), a KEYSET's key
bytes are zero (R326). -/
def Dev.leave (d : Dev) (code : Nat) (o : Op) : Dev :=
  if o.dop = 0x0E then { d with pcie := { d.pcie with dmaCode := tset d.pcie.dmaCode o.part (BitVec.ofNat 16 code) } }
  else if o.dop = 0x13 then d.zeroKey o
  else d

/-- The operation of a ticket completes with a status; it leaves the list of outstanding operations, and a WAITT or FENCE that waits for
it goes on (R281, R282). -/
def Dev.complete (d : Dev) (n s code detail : Nat) : Dev :=
  let mine := fun (o : Op) => decide (o.thread = n) && decide (o.slot = s)
  let d0 : Dev := match d.ops.find? mine with
    | some o => d.leave code o
    | none => d
  let d1 : Dev := { d0 with ops := d.ops.filter fun o => !mine o }
  if n ≤ 64 ∧ ((d1.thr n).slot s).busy ∧ ((d1.thr n).slot s).done = none then
    (d1.updThr n fun t => { t with slots := tupd t.slots s {} fun x => { x with done := some (status code detail) } }).wake n
  else d1

/-- The operation of a ticket is done, CODE 0; the spec gives its DETAIL no value, so it is free (R281; log 25). -/
def Dev.done (d : Dev) (n s : Nat) : Dev := (d.draw 1).complete n s 0 (Config.freeWord d.free).toNat

/-- Every operation of a list completes with a status. -/
def Dev.completeAll (d : Dev) (l : List Op) (code detail : Nat) : Dev :=
  l.foldl (fun d o => d.complete o.thread o.slot code detail) d

/-- The outstanding operation of a ticket. -/
def Dev.op (d : Dev) (n s : Nat) : Option Op :=
  d.ops.find? fun o => decide (o.thread = n) && decide (o.slot = s)

/-- An outstanding operation changed. -/
def Dev.updOp (d : Dev) (n s : Nat) (f : Op → Op) : Dev :=
  { d with ops := d.ops.map fun o => if o.thread = n ∧ o.slot = s then f o else o }

/-! ## System addresses -/

/-- KeyID of a system-address operand (R297). -/
def kidOf (a : Word) : Nat := bits a.toNat 48 6
/-- Address without KeyID (R297). -/
def addrOf (a : Word) : Nat := bits a.toNat 0 48

/-- Start of the firmware staging area (R290). -/
def stagingBase : Nat := 0x022FFF800000

/-- A range of marl touches a tower's carry-code area (R343). -/
def inCarryArea (a n : Nat) : Bool := (span 0 4).any fun m => meets a n (marlBase + m * towerSize) 0xC0000000

/-- A 64 MiB granule of DDR5 lies in the user part of a mapped channel that is neither vacating nor vacated nor failed (R351,
R401, R562). -/
def Dev.ddrServed (d : Dev) (g : Nat) : Bool :=
  (span 0 8).any fun c =>
    let h := d.chan c
    h.mapped && decide (h.base ≤ g) && decide (g < h.base + h.user) && (match h.state with
      | .off | .draining | .failed => false
      | _ => true)

/-- A range lies in the marl of towers in service, or wholly in DDR5 that is served (R343, R345, R351). -/
def Dev.dramRange (d : Dev) (a n : Nat) : Bool :=
  if marlBase ≤ a then
    decide (a + n ≤ marlEnd) && (span 0 4).all fun m =>
      !meets a n (marlBase + m * towerSize) towerSize || (match (d.tower m).state with
        | .off | .failed => false
        | _ => true)
  else (span (a / 2 ^ 26) ((a + n - 1) / 2 ^ 26 - a / 2 ^ 26 + 1)).all d.ddrServed

/-- Trace storage of each tower in GiB: a quarter of OBS_TRACE_CFG.GIB, which acts as the next lower multiple of 4 up to 64 (R507, R524).
-/
def Dev.traceGib (d : Dev) : Nat := min 16 (d.obs.gib.toNat / 4)

/-- Range of p's trace allocation, bytes from a system address (R507, R508). -/
def Dev.traceRange (d : Dev) (p : Nat) : Nat × Nat :=
  let w := (d.part p).talloc.toNat
  let m := bits w 56 2
  let part := d.traceGib * 2 ^ 30
  let top := if m = 3 then stagingBase else marlBase + (m + 1) * towerSize
  (top - part + bits w 0 16 * 2 ^ 20, bits w 32 16 * 2 ^ 20)

/-- A range lies within partition p's marl or DDR5 allocation; its trace allocation counts for reads (R297, R508). -/
def Dev.inAlloc (d : Dev) (p a n : Nat) (reads : Bool) : Bool :=
  let q := d.part p
  (match q.marl with | some (b, m) => within a n b m | none => false) ||
  (match q.ddr with | some (b, m) => within a n b m | none => false) ||
  (reads && within a n (d.traceRange p).1 (d.traceRange p).2)

/-- Thread n may name the KeyID and range of a system address (R266, R297). -/
def Dev.mayAccess (d : Dev) (n : Nat) (a : Word) (len : Nat) (reads : Bool) : Bool :=
  let k := kidOf a
  let x := addrOf a
  if n = 0 then decide (k = 0 ∨ (d.keyid k).state = .active) && !meets x len stagingBase 0x800000
  else (decide (k = 0) || (d.part n).keys.contains k) && d.inAlloc n x len reads

/-! ## The IME on an access (R386 to R416) -/

/-- A KeyID's owner: the partition whose set holds it, 0 for none (R435). -/
def Dev.keyOwner (d : Dev) (k : Nat) : Nat :=
  (allParts.find? fun p => decide (k ≠ 0) && (d.part p).keys.contains k && decide ((d.part p).state ≠ .none)).getD 0

/-- Bits of KeyIDs that are ACTIVE (R416). -/
def Dev.activeMask (d : Dev) : Nat :=
  (span 0 64).foldl (fun acc k => if (d.keyid k).state = .active then acc + 2 ^ k else acc) 0

/-- A mask of the rights table as the IME reads it: entry 0 all ones, others only ACTIVE KeyIDs (R415, R416). -/
def Dev.rights (d : Dev) (e : Nat) (write : Bool) : Nat :=
  if e = 0 then 2 ^ 64 - 1
  else (tget (if write then d.ime.rightsWr else d.ime.rightsRd) e (if e = 2 then 1 else 0)).toNat &&& d.activeMask

/-- Why an access is refused (R387, R389, R403, R412, R415, R351). -/
inductive Refuse where
  /-- 0x0411, the KeyID is not ACTIVE -/
  | inactive
  /-- 0x0412, the rights table -/
  | rights
  /-- 0x0413, KeyID or mode on the range -/
  | range
  /-- 0x0410, granule binding -/
  | granule
  /-- 0x0531, no stop serves the address -/
  | noStop
  /-- the stop that serves the address is disabled: an error completion and no event (R452, R453) -/
  | disabled
  deriving DecidableEq, Repr

/-- Ring stop that serves a system address (R436). -/
def Dev.stopOf (d : Dev) (a : Nat) : Nat :=
  if 0x031000000000 ≤ a then 1
  else if marlBase ≤ a then towerStop ((a - marlBase) / towerSize)
  else chanStop (d.classOf a - 7)

/-- The checks of an access of `len` bytes at a system address under a KeyID by master `e` of the rights table, `none`
when it is served (R387, R389, R403, R412, R415, R452). -/
def Dev.refuse (d : Dev) (e k a len : Nat) (write : Bool) : Option Refuse :=
  if 0x031000000000 ≤ a then (if k = 0 then none else some .range)
  else if inCarryArea a len ∨ !d.dramRange a len then some .noStop
  else if (d.stop (d.stopOf a)).state ≠ .on then some .disabled
  else if (d.keyid k).state ≠ .active then some .inactive
  else if !bit (d.rights e write) k then some .rights
  else if (d.keyid k).mode = .verified then
    if marlBase ≤ a then some .range
    else if (span (a / 2 ^ 26) ((a + len - 1) / 2 ^ 26 - a / 2 ^ 26 + 1)).all fun g => decide (tget d.ime.granules g 0 = k)
      then none else some .granule
  else if a < marlBase ∧
      (span (a / 2 ^ 26) ((a + len - 1) / 2 ^ 26 - a / 2 ^ 26 + 1)).any fun g => decide (tget d.ime.granules g 0 ≠ 0) then
    some .granule
  else none

/-- The event of a refused access (R387, R403, R412, R415): 0x0411 at most once per KeyID and master each millisecond. -/
def Dev.postRefuse (d : Dev) (r : Refuse) (e k a : Nat) (write : Bool) (stop : Nat) : Dev :=
  match r with
  | .inactive =>
    let key := k * 128 + e
    let due := match d.ime.lastInactive.find? (fun x => decide (x.1 = key)) with
      | some (_, t) => decide (t.toNat + 250000 ≤ d.evt.time.toNat)
      | none => true
    if due then
      { d with ime := { d.ime with lastInactive := tset d.ime.lastInactive key d.evt.time } }.postSrc 0x0411 k 0
        (d.stopOf a)
    else d
  | .rights => d.postSrc 0x0412 (e * 2 ^ 24 + b2n write * 2 ^ 8 + k) 0 (d.stopOf a)
  | .range => d.postSrc 0x0413 (addrDetail a) 0 (d.stopOf a)
  | .granule => d.postSrc 0x0410 (addrDetail a) 0 (d.stopOf a)
  | .noStop => d.postSrc 0x0531 stop 0 stop
  | .disabled => d

/-! ## What a read finds -/

/-- Seal-halt code and detail of an outcome under a VERIFIED KeyID, beside the MAC's (R397, R398, R417, R434): a node's codeword and a
cache entry only where they cannot be corrected, the root only where its three copies all disagree. -/
def Dev.sealCause (d : Dev) (rd : ReadOutcome) (a : Nat) : Option (Nat × Nat) :=
  let chan (line : Nat) : Nat := (d.physAt (64 * (a / 64 + line))).1
  let node (line l n : Nat) : Nat := l % 16 * 2 ^ 28 + chan line % 16 * 2 ^ 24 + n % 2 ^ 24
  match rd with
  | .tree line l n c => if c = 0 then none else some (0x0402, node line l n)
  | .treeUpset line l n c => match (readChanged (locDdr (chan line) ((d.chan (chan line)).levelBase l + 64 * n)) 0 c).1 with
    | .uncorrectable | .fold => some (0x0405, node line l n)
    | _ => none
  | .cache m e c => match (readChanged (locCache m e) 0 c).1 with
    | .uncorrectable | .fold => some (0x0406, b2n m * 2 ^ 31 + e % 2 ^ 16)
    | _ => none
  | .root line x y z => if x ≠ y ∧ y ≠ z ∧ x ≠ z then some (0x0407, chan line) else none
  | _ => none

/-- Corrected codewords of the counter tree count in the channel's class, those of the caches in theirs (R378, R397). -/
def Dev.countMeta (d : Dev) (rd : ReadOutcome) (a : Nat) : Dev :=
  match rd with
  | .treeUpset line l n c =>
    let ch := (d.physAt (64 * (a / 64 + line))).1
    let loc := locDdr ch ((d.chan ch).levelBase l + 64 * n)
    if (readChanged loc 0 c).1 = .corrected then d.countCorrected (7 + ch) loc else d
  | .macUpset line c =>
    let x := d.physAt (64 * (a / 64 + line))
    let loc := locDdr x.1 ((d.chan x.1).macAt x.2)
    if (readChanged loc 0 c).1 = .corrected then d.countCorrected (7 + x.1) loc else d
  | .cache m e c =>
    if (readChanged (locCache m e) 0 c).1 = .corrected then d.countCorrected (16 + b2n m) (locCache m e) else d
  | _ => d

/-- A node's codeword or a cache entry that cannot be corrected is logged under its class (R378, R382): a node has no system address, so that
its address is free. -/
def Dev.logMeta (d : Dev) (rd : ReadOutcome) (a : Nat) : Dev :=
  match rd with
  | .treeUpset line l n c =>
    let ch := (d.physAt (64 * (a / 64 + line))).1
    match (readChanged (locDdr ch ((d.chan ch).levelBase l + 64 * n)) 0 c).1 with
    | .uncorrectable => (d.logUe (7 + ch) 1 (Config.freeWord d.free).toNat).draw 1
    | .fold => (d.logUe (7 + ch) 2 (Config.freeWord d.free).toNat).draw 1
    | _ => d
  | .cache m e c => match (readChanged (locCache m e) 0 c).1 with
    | .uncorrectable => d.logUe (16 + b2n m) 1 (locCache m e)
    | .fold => d.logUe (16 + b2n m) 2 (locCache m e)
    | _ => d
  | _ => d

/-- The MAC-area line of a line of the range cannot be corrected: the read is handled as an uncorrectable one (R405 step 3, R406). -/
def Dev.macLineBad (d : Dev) (rd : ReadOutcome) (a : Nat) : Option (Nat × Bad) :=
  match rd with
  | .macUpset line c =>
    let x := d.physAt (64 * (a / 64 + line))
    match (readChanged (locDdr x.1 ((d.chan x.1).macAt x.2)) 0 c).1 with
    | .uncorrectable => some (64 * (a / 64 + line), .ue)
    | .fold => some (64 * (a / 64 + line), .fold)
    | _ => none
  | _ => none

/-- The MAC check of a range under a VERIFIED KeyID fails: the first line whose stored MAC is not that of its ciphertext (R405). -/
def Dev.macBad (d : Dev) (rd : ReadOutcome) (a n : Nat) : Option Nat :=
  let lines := ((d.mem.upsets.filter fun e => meets (8 * e.1) 8 a n).map fun e => e.1 / 8).filter fun line =>
    let cipher := (span 0 8).flatMap fun i => leBytes 8 (d.readWord (64 * line + 8 * i)).2.toNat
    let x := d.lineCounters (64 * line)
    decide (cipher ≠ d.storedLine line) && decide (lineMac (d.keyid (d.lineKey line)).key x.1 x.2 (64 * line) cipher ≠ d.storedMac line)
  match rd with
  | .mac line c => if c ≠ 0 ∧ 64 * (a / 64 + line) < a + n then some (64 * (a / 64 + line)) else lines.head?.map (64 * ·)
  | _ => lines.head?.map (64 * ·)

/-- What a bad read records: MEM_UE_LOG for an uncorrectable error, fold mismatch or poisoned line (R382), 0x0425 for a carry code
(R425). -/
def Dev.noteBad (d : Dev) (b : Bad) (a : Nat) : Dev :=
  match b with
  | .carry => { d with ime := { d.ime with ccMemory := sat1 d.ime.ccMemory } }.postSrc 0x0425 (addrDetail a) 0 (d.stopOf a)
  | .abort | .moved => d
  | _ => d.logUe (d.classOf a) b.kind a

/-! ## Arbiters -/

/-- The stop at which an arbiter instance sits; the row-move engine's is not given (R457, R608; log 30). -/
def arbStop (i : Nat) : Option Nat :=
  if i ≤ 36 then some i else if 40 ≤ i ∧ i ≤ 47 then some (i - 35) else if i = 48 then some 3 else if i = 50 then some 4 else none

/-- Requester r of arbiter instance i (R457). -/
def Dev.arb (d : Dev) (i r : Nat) : ArbPri := tget d.noc.pri (256 * i + r) {}

/-- Requester r of instance i changed. -/
def Dev.updArb (d : Dev) (i r : Nat) (f : ArbPri → ArbPri) : Dev :=
  { d with noc := { d.noc with pri := tupd d.noc.pri (256 * i + r) {} f } }

/-- An event of an arbiter instance (R465, R608). -/
def Dev.postArb (d : Dev) (i r code : Nat) : Dev :=
  match arbStop i with
  | some s => d.postSrc code (i * 2 ^ 16 + r) 0 s
  | none => d.postFree code (i * 2 ^ 16 + r)

/-- A request of a quarantined requester is refused: event 0x0522, at most once a millisecond for each (R462). -/
def Dev.refuseQuar (d : Dev) (i r : Nat) : Dev :=
  let due := match (d.arb i r).refused with
    | some t => decide (t.toNat + 250000 ≤ d.evt.time.toNat)
    | none => true
  if due then (d.updArb i r fun x => { x with refused := some d.evt.time }).postArb i r 0x0522 else d

/-! ## Freezing and halting partitions -/

/-- Every plot of a partition changed. -/
def Dev.updPlots (d : Dev) (p : Nat) (f : Plot → Plot) : Dev :=
  forAll (d.plotsOf p) d fun d n => d.updPlot n f

/-- The design cycle in progress ends without a commit: pending model writes are discarded, and unless `keep`, pending DESIGN writes;
the shadow latches are to be filled again (R136, R167, R170). Read data of a block stay (R125), and reads of models on their way are still
under way (R79 step 5). -/
def Engine.drop (e : Engine) (keep : Bool := false) : Engine :=
  { e with running := false, entry := 0, inDwell := false, writes := [], applied := [], faults := [], nextFaults := [], filled := false,
           rowStart := [],
           brams := e.brams.map fun x => (x.1, { x.2 with
             da := none, db := none, ma := none, mb := none,
             pa := if keep then x.2.pa else none, pb := if keep then x.2.pb else none }),
           noAuto := false, held := false,
           ports := e.ports.map fun x => (x.1, { x.2 with next := none, cur := none }) }

/-- The shadow latches are to be filled again before the next dwell, with what the refill finds then (R167, R169). -/
def Engine.unfill (e : Engine) : Engine := { e with filled := false, nextFaults := e.nextFaults.filter fun f => decide (f.code ≠ 0x0801) }

/-- A partition freezes at its current microcycle: no commit, REWIND on each plot (R136). -/
def Dev.freezeNow (d : Dev) (p : Nat) : Dev :=
  if (d.part p).state = .running ∨ (d.part p).state = .draining then
    let d1 := d.updPlots p fun x =>
      { x with rewind := true, state := if x.state = .running then .frozen else x.state }
    d1.updPart p fun q => { q with state := if q.state = .running then .frozen else q.state, eng := q.eng.drop }
  else d

end Sys2Proof.Machine
end

