-- ==== Sys2Proof/Machine/Caches.lean ====
section
/-! DEFINITION. The counter cache and the MAC cache of the IMEs (R397 to R399, R402, R413): what they hold, what a lookup fetches, and what
writing back changes. -/
namespace Sys2Proof.Machine
open Host

/-! ## Lines -/

/-- Channel, level and number of a node's key. -/
def nodeOf (key : Nat) : Nat × Nat × Nat := (key / 2 ^ 48, key / 2 ^ 40 % 256, key % 2 ^ 40)

/-- Key of the node above another one. -/
def nodeUp (key : Nat) : Nat :=
  let x := nodeOf key
  nodeKey x.1 (x.2.1 + 1) (x.2.2 / 8)

/-- The highest stored level of a channel's tree; above it stands the root (R396). -/
def Dev.treeTop (d : Dev) (c : Nat) : Nat := min (d.chan c).levels 15

/-- Counter block of a system address. -/
def Dev.counterKey (d : Dev) (a : Nat) : Nat :=
  let x := d.physAt a
  nodeKey x.1 0 (x.2 / 4096)

/-- The MAC-area line that holds the MAC of the line at a system address; no node has such a key. -/
def Dev.macKey (d : Dev) (a : Nat) : Nat :=
  let x := d.physAt a
  2 ^ 60 + x.1 * 2 ^ 48 + (d.chan x.1).macAt (x.2 / 64 * 64) / 64

/-- A cache holds a line. -/
def holds (t : Tab Nat) (key : Nat) : Bool := t.any fun e => decide (e.2 = key)

/-- First entry of the set of a line: 16 ways (R398). -/
def cacheBase (mac : Bool) (key : Nat) : Nat := 16 * (Config.cacheSet mac key % (if mac then 2048 else 4096))

/-- An entry of the set that holds nothing. -/
def freeWay (t : Tab Nat) (base : Nat) : Option Nat := (span base 16).find? fun e => !(t.any fun x => decide (x.1 = e))

/-- The present 64 bytes of a node. -/
def Dev.nodeNow (d : Dev) (key : Nat) : List Byte :=
  let x := nodeOf key
  d.nodeBlock x.1 x.2.1 x.2.2

/-- A cached node is about to change: it becomes dirty, with what DDR5 holds of it (R398). -/
def Dev.dirtyNode (d : Dev) (key : Nat) : Dev :=
  if (tget d.ime.lagging key []).isEmpty then { d with ime := { d.ime with lagging := tset d.ime.lagging key (d.nodeNow key) } } else d

/-- A dirty node is written back: its parent's entry is rewritten, which makes a cached parent dirty in turn. A parent that no cache entry could
be had for is written through, up to the root (R398; log 144). -/
def Dev.writeBackNode (d : Dev) (key : Nat) : Dev :=
  if (tget d.ime.lagging key []).isEmpty then d
  else
    let e := if holds d.ime.ccLines (nodeUp key) then d.dirtyNode (nodeUp key) else d
    { e with ime := { e.ime with lagging := tdel e.ime.lagging key } }

/-- A line is put into an entry of the counter cache. -/
def Dev.putNode (d : Dev) (entry key : Nat) : Dev := { d with ime := { d.ime with ccLines := tset d.ime.ccLines entry key } }

/-- A lookup of the counter cache counts (R435). -/
def Dev.countLookup (d : Dev) (hit : Bool) : Dev :=
  if hit then { d with ime := { d.ime with ccHits := sat1 d.ime.ccHits } } else { d with ime := { d.ime with ccMisses := sat1 d.ime.ccMisses } }

/-- After a node's parent has been fetched, unless the parent is the root (R397). -/
def Dev.withParent (fetch : Dev → Nat → Dev × List Nat) (x : Dev × List Nat) (key : Nat) : Dev × List Nat :=
  if (nodeOf key).2.1 < x.1.treeTop (nodeOf key).1 then
    let y := fetch x.1 (nodeUp key)
    (y.1, x.2 ++ y.2)
  else x

/-- After room has been made in a set of the counter cache, with the entry: a dirty line that leaves is written back under its own parent (R398;
log 144). -/
def Dev.roomFor (fetch : Dev → Nat → Dev × List Nat) (x : Dev × List Nat) (base : Nat) : (Dev × List Nat) × Nat :=
  match freeWay x.1.ime.ccLines base with
  | some e => (x, e)
  | none =>
    let e := base + (Config.freeWord x.1.free).toNat % 16
    let leaves := tget x.1.ime.ccLines e 0
    let y := if (tget x.1.ime.lagging leaves []).isEmpty then x else Dev.withParent fetch x leaves
    (((y.1.writeBackNode (tget y.1.ime.ccLines e 0)).draw 1, y.2), e)

/-- A node looked up in the counter cache and fetched on a miss, with the nodes fetched: its parent first, up to one that is cached or the root, and
room made for it (R397 to R399). At most the given number of fetches stand one on another. -/
def Dev.bringNode : Nat → Dev → Nat → Dev × List Nat
  | 0, d, _ => (d, [])
  | f + 1, d, key =>
    let hit := holds d.ime.ccLines key
    let d := d.countLookup hit
    if hit then (d, [])
    else
      let fetch (e : Dev) (k : Nat) : Dev × List Nat := e.bringNode f k
      let x := Dev.roomFor fetch (Dev.withParent fetch (d, []) key) (cacheBase false key)
      if holds x.1.1.ime.ccLines key then x.1 else (x.1.1.putNode x.2 key, x.1.2 ++ [key])

/-- A MAC-area line looked up in the MAC cache and read on a miss, with the line if it was read; a dirty line that it displaces is written to DDR5
(R398, R405). -/
def Dev.bringMac (d : Dev) (key : Nat) : Dev × List Nat :=
  if holds d.ime.mcLines key then ({ d with ime := { d.ime with mcHits := sat1 d.ime.mcHits } }, [])
  else
    let d := { d with ime := { d.ime with mcMisses := sat1 d.ime.mcMisses } }
    let base := cacheBase true key
    match freeWay d.ime.mcLines base with
    | some e => ({ d with ime := { d.ime with mcLines := tset d.ime.mcLines e key } }, [key])
    | none =>
      let e := base + (Config.freeWord d.free).toNat % 16
      let v := tget d.ime.mcLines e 0
      ({ d with ime := { d.ime with mcLines := tset d.ime.mcLines e key, mcDirty := d.ime.mcDirty.filter fun k => decide (k ≠ v) } }.draw 1, [key])

/-- The lookups of one line's access under a VERIFIED KeyID: its counter block, its MAC (R405 steps 1 and 2, R406 step 1). -/
def Dev.lookupLine (d : Dev) (line : Nat) : Dev × List Nat :=
  let x := d.bringNode 64 (d.counterKey (64 * line))
  let y := x.1.bringMac (d.macKey (64 * line))
  (y.1, x.2 ++ y.2)

/-- The lookups of the lines of a range, with everything that was fetched. -/
def Dev.lookups (d : Dev) (a n : Nat) : Dev × List Nat :=
  if n = 0 then (d, [])
  else (span (a / 64) ((a + n - 1) / 64 - a / 64 + 1)).foldl (fun x line =>
    let y := x.1.lookupLine line
    (y.1, x.2 ++ y.2)) (d, [])

/-- The outcome of an access as it bears on it: a node or MAC-area line only where it was fetched, a cache entry only where it holds a line
(R397, R398, R405). -/
def Dev.bearing (d : Dev) (rd : ReadOutcome) (a : Nat) (fetched : List Nat) : ReadOutcome :=
  let chan (line : Nat) : Nat := (d.physAt (64 * (a / 64 + line))).1
  match rd with
  | .tree line l n _ | .treeUpset line l n _ => if fetched.contains (nodeKey (chan line) l n) then rd else .clean
  | .macUpset line _ => if fetched.contains (d.macKey (64 * (a / 64 + line))) then rd else .clean
  | .cache m e _ => if (if m then d.ime.mcLines else d.ime.ccLines).any fun x => decide (x.1 = e) then rd else .clean
  | _ => rd

/-- A MAC-area line that could not be read stays out of the cache (R405 step 3, R406). -/
def Dev.dropMac (d : Dev) (a : Nat) : Dev := { d with ime := { d.ime with mcLines := d.ime.mcLines.filter fun e => decide (e.2 ≠ d.macKey a) } }

/-! ## Writing -/

/-- A line's counter block and MAC-area line change in the caches (R398, R406 steps 2 and 5). -/
def Dev.dirtyLine (d : Dev) (a : Nat) : Dev :=
  let e := d.dirtyNode (d.counterKey a)
  { e with ime := { e.ime with mcDirty := if e.ime.mcDirty.contains (e.macKey a) then e.ime.mcDirty else e.macKey a :: e.ime.mcDirty } }

/-! ## Writing back -/

/-- Lines of the counter cache that are the counter blocks of a granule's pages. -/
def Dev.granuleNodes (d : Dev) (g : Nat) : List Nat :=
  (d.ime.ccLines.map (·.2)).filter fun key => decide ((nodeOf key).2.1 = 0) &&
    decide ((nodeOf key).1 = (d.physAt (g * 2 ^ 26)).1) && decide ((nodeOf key).2.2 / 2 ^ 14 = (d.physAt (g * 2 ^ 26)).2 / 2 ^ 26)

/-- Lines of the MAC cache that hold MACs of a granule. -/
def Dev.granuleMacs (d : Dev) (g : Nat) : List Nat :=
  (d.ime.mcLines.map (·.2)).filter fun key => decide ((key - d.macKey (g * 2 ^ 26)) < 2 ^ 17) && decide (d.macKey (g * 2 ^ 26) ≤ key)

/-- A dirty node is written back under its parent, which is brought into the cache first (R398). -/
def Dev.flushNode (d : Dev) (key : Nat) : Dev :=
  if (tget d.ime.lagging key []).isEmpty then d
  else if (nodeOf key).2.1 < d.treeTop (nodeOf key).1 then (d.bringNode 64 (nodeUp key)).1.writeBackNode key
  else d.writeBackNode key

/-- A node and the ones above it are written back, up to the root (R413 step 4). -/
def Dev.flushUp : Nat → Dev → Nat → Dev
  | 0, d, key => d.flushNode key
  | n + 1, d, key => Dev.flushUp n (d.flushNode key) (nodeUp key)

/-- Lines leave the caches. -/
def Dev.invalidate (d : Dev) (keys : List Nat) : Dev :=
  { d with ime := { d.ime with
      ccLines := d.ime.ccLines.filter fun e => !keys.contains e.2, mcLines := d.ime.mcLines.filter fun e => !keys.contains e.2,
      mcDirty := d.ime.mcDirty.filter fun k => !keys.contains k } }

/-- A granule's counter blocks and MACs are written back and leave the caches, with the tree up to the root where `up` says so (R402, R413). -/
def Dev.flushGranule (d : Dev) (up : Bool) (g : Nat) : Dev :=
  let keys := d.granuleNodes g
  let e := keys.foldl (fun x k => if up then Dev.flushUp (x.treeTop (nodeOf k).1) x k else x.flushNode k) d
  e.invalidate (keys ++ e.granuleMacs g)

/-- Every dirty line is written back to DDR5 (R79 step 7). -/
def Dev.flushCaches (d : Dev) : Dev := { d with ime := { d.ime with lagging := [], mcDirty := [] } }

end Sys2Proof.Machine
end

