-- ==== Sys2Proof/Machine/Network.lean ====
section
/-! DEFINITION. The on-chip rings (R437 to R441, R443 to R450), the arbiters that admit packets to them (R457 to R461) and the bank queues
of the DDR5 channels (R352 to R354), an NCLK cycle at a time. -/
namespace Sys2Proof.Machine
open Host

/-! ## Arbiters (R457 to R461) -/

/-- Number of requesters of an instance, 0 where it does not exist (R457). -/
def arbReqs (i : Nat) : Nat :=
  if i = 0 then 66
  else if i = 1 then 65
  else if i ≤ 16 then 1
  else if i ≤ 32 then 32
  else if i ≤ 36 then 1
  else if 40 ≤ i ∧ i ≤ 47 then 41
  else if i = 48 then 129
  else if i = 49 then 71
  else if i = 50 then 65
  else 0

/-- Default CLASS of a requester is HIGH (R457). -/
def arbDefaultHigh (i r : Nat) : Bool :=
  (decide (i = 1) && decide (r = 0)) || (decide (33 ≤ i) && decide (i ≤ 36)) || (decide (i = 48) && decide (r ≤ 64)) ||
    (decide (i = 49) && (decide (r = 65) || decide (r = 66)))

/-- CLASS of a requester now (R457). -/
def Dev.arbHigh (d : Dev) (i r : Nat) : Bool := (d.arb i r).high.getD (arbDefaultHigh i r)

/-- Configuration of an instance (R460, R462). -/
def Dev.arbCfg (d : Dev) (i : Nat) : ArbCfg := tget d.noc.cfg i {}

/-- An instance changed. -/
def Dev.updArbCfg (d : Dev) (i : Nat) (f : ArbCfg → ArbCfg) : Dev := { d with noc := { d.noc with cfg := tupd d.noc.cfg i {} f } }

/-- WINDOW as it acts (R466). -/
def actWindow (w : BitVec 16) : Nat := max 16 w.toNat

/-- QUOTA as it acts (R466). -/
def actQuota (w q : BitVec 16) : Nat := min (actWindow w) (max 1 q.toNat)

/-- Rank of a requester, the lowest wins: HIGH, NORMAL, masked HIGH; then the higher LEVEL; then index order after the one granted last
(R459). -/
def Dev.arbRank (d : Dev) (i r : Nat) : Nat :=
  let y := d.arb i r
  let group := if d.arbHigh i r then (if y.masked then 2 else 0) else 1
  group * 4096 + (7 - y.level.toNat) * 512 + (r + 256 - (d.arbCfg i).lastReq - 1) % 256

/-- The requester that an instance grants among those that wait, the quarantined ones left out (R459). -/
def Dev.arbPick (d : Dev) (i : Nat) (waiting : List Nat) : Option Nat :=
  (waiting.filter fun r => !(d.arb i r).quar).foldl (fun b r => match b with
    | some x => if d.arbRank i r < d.arbRank i x then some r else b
    | none => some r) none

/-- A grant: it counts in the window, a HIGH requester that reaches QUOTA is masked, and the WINDOW-th grant ends the window (R460). -/
def Dev.grant (d : Dev) (i r : Nat) : Dev :=
  let c := d.arbCfg i
  let high := d.arbHigh i r
  let d1 := (d.updArb i r fun y =>
    { y with count := sat1 y.count, masked := y.masked || (high && decide (actQuota c.winNow c.quotaNow ≤ (sat1 y.count).toNat)) }).updArbCfg i
      fun x => { x with grants := x.grants + 1, lastReq := r }
  if c.grants + 1 < actWindow c.winNow then d1
  else
    { d1 with noc := { d1.noc with
        pri := d1.noc.pri.map fun (e : Nat × ArbPri) => if e.1 / 256 = i then (e.1, { e.2 with count := 0, masked := false }) else e } }.updArbCfg i
      fun x => { x with grants := 0, winNow := x.window, quotaNow := x.quota }

/-- A transaction of requester r of instance i that one command carries out whole: it is granted, and the grant ends with it (R458; log 130).
-/
def Dev.served (d : Dev) (i r : Nat) : Dev := if r < arbReqs i ∧ !(d.arb i r).quar then d.grant i r else d

/-! ## Routes (R437, R444) -/

/-- The ring that packets from stop a to stop b take. -/
def nocRing (a b : Nat) : Nat := (if (b + 40 - a) % 40 ≤ 20 then 0 else 2) + (a + b) % 2

/-- The stop that a ring's hop from a stop leads to. -/
def nextStop (ring s : Nat) : Nat := if ring < 2 then (s + 1) % 40 else (s + 39) % 40

/-- A ring's hop from a stop crosses the dateline, between stops 39 and 0 (R444). -/
def crosses (ring s : Nat) : Bool := if ring < 2 then decide (s = 39) else decide (s = 0)

/-- Virtual channel of a flit on a hop. -/
def outVc (ring s vc : Nat) : Nat := if crosses ring s then 1 else vc

/-! ## Packets and flits (R440, R441) -/

/-- CLASS of a message class. -/
def MsgClass.num : MsgClass → Nat
  | .req => 0
  | .rsp => 1
  | .post => 2
  | .mgmt => 3

/-- The classes in the order in which equals of one source leave (R449). -/
def classOrder : List MsgClass := [.rsp, .mgmt, .post, .req]

/-- Flits of a packet with so many bytes of data. -/
def flitCount (n : Nat) : Nat := if n ≤ 64 then 1 else 1 + (n - 64 + 127) / 128

/-- The flits of a packet: the first unit in the head flit, two units in each data flit, with their carry codes (R421, R422, R440). -/
def packetFlits (h : Header) (data : List Byte) (poison : Bool) : List Flit :=
  let n := flitCount data.length
  (span 0 n).map fun i =>
    let units := if i = 0 then data.take 64 else (data.drop (128 * i - 64)).take 128
    { hdr := if i = 0 then some { h with bytes := data.length } else none, units := units, cls := h.cls, head := decide (i = 0),
      tail := decide (i + 1 = n), src := h.src, dst := h.dst, cc0 := carryCode (units.take 64), cc1 := carryCode (units.drop 64),
      pz0 := poison, pz1 := poison }

/-- A flit's sideband without ECC, in the order of R441. -/
def Flit.sideband (f : Flit) (credit : BitVec 16) : Nat :=
  f.cls.num + f.vc % 2 * 2 ^ 2 + b2n f.head * 2 ^ 3 + b2n f.tail * 2 ^ 4 + f.src % 64 * 2 ^ 5 + f.dst % 64 * 2 ^ 11 +
    f.urg % 8 * 2 ^ 17 + b2n f.aged * 2 ^ 20 + f.stamp.toNat * 2 ^ 21 + f.cc0.toNat * 2 ^ 33 + f.cc1.toNat * 2 ^ 65 + b2n f.pz0 * 2 ^ 97 +
    b2n f.pz1 * 2 ^ 98 + credit.toNat * 2 ^ 99

/-- What a hop carries, with the code of its sideband (R441). -/
def slotOf (f : Option Flit) (credit : BitVec 16) (giver : Nat) : RingSlot :=
  { flit := f, credit := credit, giver := giver, ecc := Config.sidebandCode (match f with | some x => x.sideband credit | none => credit.toNat * 2 ^ 99) }

/-! ## Urgency (R448) -/

/-- Base of a class in NOC_URG. -/
def Noc.base (n : Noc) : MsgClass → Nat
  | .req => n.baseReq.toNat
  | .rsp => n.baseRsp.toNat
  | .post => n.basePost.toNat
  | .mgmt => n.baseMgmt.toNat

/-- QUANTUM as it acts (R466). -/
def Noc.actQuantum (n : Noc) : Nat := min 512 (max 8 n.quantum.toNat)

/-- Urgency of a head flit at the stop that holds it. -/
def Noc.urgency (n : Noc) (f : Flit) : Nat :=
  let age := (n.cycle + 4096 - f.stamp.toNat) % 4096
  if f.aged then 7 else min 7 (n.base f.cls + b2n (f.hdr.any (·.high)) + age / n.actQuantum)

/-! ## Injection (R446, R450, R457, R458) -/

/-- Key of an injection queue. -/
def injKey (s : Nat) (c : MsgClass) : Nat := 4 * s + c.num

/-- A counter of a stop goes up, unless FREEZE holds it (R450). -/
def Noc.count (n : Noc) (s k add limit shift : Nat) : Noc :=
  if n.frozen then n
  else
    let v := (tget n.stats (16 * s + k) 0).toNat
    let old := v / 2 ^ shift % limit
    { n with stats := tset n.stats (16 * s + k) (BitVec.ofNat 64 (v - old * 2 ^ shift + min (limit - 1) (old + add) * 2 ^ shift)) }

/-- A flit enters its stop's injection queue: a head flit is stamped there, and its packet counts (R441, R448, R450). -/
def Noc.enter (n : Noc) (f : Flit) : Noc :=
  let k := injKey f.src f.cls
  let g := { f with stamp := BitVec.ofNat 12 n.cycle, due := n.cycle + 2 }
  let n1 := { n with inject := tset n.inject k (tget n.inject k [] ++ [g]) }
  match f.hdr with
  | none => n1
  | some h =>
    let n2 := (n1.count f.src 0 h.bytes (2 ^ 64) 0).count f.src 1 1 (2 ^ 64) 0
    if h.cls = .req then { n2 with trips := n2.trips ++ [(h.src, h.dst, h.tag, n.cycle)] } else n2

/-- A packet of at most 1 KiB is handed to its stop: a REQ or POST waits for the injection arbiter, others enter their queue in the order in
which they come (R440, R457). -/
def Noc.offer (n : Noc) (h : Header) (data : List Byte) (poison : Bool) : Noc :=
  let l := packetFlits h data poison
  match h.cls with
  | .req | .post => { n with waits := n.waits ++ [({ h with bytes := data.length }, l)] }
  | .rsp | .mgmt => l.foldl Noc.enter n

/-- Data handed to the rings, 1 KiB in a packet (R440); requests to no stop, or within one, use none. -/
def Dev.send (d : Dev) (h : Header) (data : List Byte) (poison : Bool := false) : Dev :=
  if h.src = h.dst ∨ 37 ≤ h.src ∨ 37 ≤ h.dst then d
  else
    let h := { h with high := (h.cls = .req ∨ h.cls = .post) ∧ d.arbHigh h.src h.who }
    let pieces := (span 0 (max 1 ((data.length + 1023) / 1024))).map fun i => (data.drop (1024 * i)).take 1024
    { d with noc := pieces.foldl (fun n l => n.offer h l poison) d.noc }

/-- A request with this tag from a stop is still on its way to its target. -/
def Noc.underWay (n : Noc) (h : Header) : Bool :=
  let mine := fun (x : Header) => decide (x.cls = .req) && decide (x.src = h.src) && decide (x.dst = h.dst) && decide (x.tag = h.tag)
  (n.waits.any fun x => mine x.1) || (n.trips.any fun t => decide (t = (h.src, h.dst, h.tag, t.2.2.2))) && !n.asked.any mine

/-- The response to a request carries its tag back (R438, R443). -/
def responseTo (h : Header) : Header := { h with cls := .rsp, src := h.dst, dst := h.src, who := 0, high := false, write := false }

/-- A target answers a request: at once, or when it arrives. -/
def Dev.respondTo (d : Dev) (h : Header) (data : List Byte) : Dev :=
  if d.noc.underWay h then { d with noc := { d.noc with owed := d.noc.owed ++ [(h, data)] } }
  else if d.noc.asked.any fun x => decide (x.src = h.src) && decide (x.dst = h.dst) && decide (x.tag = h.tag) then
    { d with noc := { d.noc with
        asked := d.noc.asked.filter fun x => !(decide (x.src = h.src) && decide (x.dst = h.dst) && decide (x.tag = h.tag)) } }.send (responseTo h)
      data
  else d

/-- A stop's injection arbiter and the grant that it has given: one flit of the granted packet enters its queue each cycle (R458). -/
def Dev.injectCycle (d : Dev) (s : Nat) : Dev :=
  match tget d.noc.entering s [] with
  | f :: r =>
    let d1 := { d with noc := { d.noc.enter f with entering := if r.isEmpty then tdel d.noc.entering s else tset d.noc.entering s r } }
    if r.isEmpty then d1.updArbCfg s fun x => { x with holder := none } else d1
  | [] =>
    match d.arbPick s ((d.noc.waits.filter fun x => decide (x.1.src = s)).map fun x => x.1.who) with
    | none => d
    | some r =>
      match d.noc.waits.find? fun x => decide (x.1.src = s) && decide (x.1.who = r) with
      | none => d
      | some x =>
        ({ d with noc := { d.noc with waits := d.noc.waits.erase x, entering := tset d.noc.entering s x.2 } }.grant s r).updArbCfg s
          fun y => { y with holder := some r }

/-- The watchdog releases a stop's grant: the rest of the packet enters poisoned (R462 step 1). -/
def Dev.releaseGrant (d : Dev) (i r : Nat) : Dev :=
  if (d.arbCfg i).holder = some r then
    let rest := (tget d.noc.entering i []).map fun (f : Flit) => { f with pz0 := true, pz1 := true }
    { d with noc := { (rest.foldl Noc.enter d.noc) with entering := tdel d.noc.entering i } }.updArbCfg i fun x => { x with holder := none }
  else d

/-! ## The hops (R445, R449) -/

/-- Key of an input queue, and of the packet in progress on a hop's virtual channel. -/
def vcKey (ring s : Nat) (c : MsgClass) (vc : Nat) : Nat := ((ring * 40 + s) * 4 + c.num) * 2 + vc

/-- End-to-end credits that a target grants each stop (R446). -/
def creditLimit : MsgClass → Nat
  | .req | .post => 4
  | .mgmt => 2
  | .rsp => 0

/-- Key of the end-to-end credits in use. -/
def creditKey (src dst : Nat) (c : MsgClass) : Nat := (src * 40 + dst) * 4 + c.num

/-- The first flit of a queue may go on a ring's hop from stop s: the next stop had room in its input queue when the cycle began, no other
packet is in progress on the virtual channel, and a packet that is injected holds its reservations (R445, R446). Answered is its urgency. -/
def Noc.mayGo (n : Noc) (before : Tab (List Flit)) (ring s lane : Nat) (f : Flit) : Option Nat :=
  let vc := outVc ring s f.vc
  let room := decide ((tget before (vcKey ring (nextStop ring s) f.cls vc) []).length < 8)
  let held := decide (lane ≠ 2) || decide (f.cls = .rsp) || decide (tget n.used (creditKey f.src f.dst f.cls) 0 < creditLimit f.cls)
  match n.locks.find? fun e => decide (e.1 = vcKey ring s f.cls vc) with
  | some e => if room && !f.head && decide (e.2.lane = lane) then some e.2.urg else none
  | none => if room && f.head && held then some (n.urgency f) else none

/-- A candidate for a hop: its lane, its flit and its urgency. -/
abbrev Cand := Nat × Flit × Nat

/-- The more urgent of two, the first of equals. -/
def urgent (a b : Option Cand) : Option Cand :=
  match a, b with
  | some x, some y => if x.2.2 < y.2.2 then b else a
  | none, _ => b
  | _, none => a

/-- The best flit of a ring's input queues that continues on the hop (R449; VC 1 before VC 0 among equals, log 130). -/
def Noc.ringCand (n : Noc) (before : Tab (List Flit)) (ring s : Nat) : Option Cand :=
  (classOrder.flatMap fun c => [(c, 1), (c, 0)]).foldl (fun b x => match tget n.queues (vcKey ring s x.1 x.2) [] with
    | f :: _ => urgent b ((n.mayGo before ring s x.2 f).map fun u => (x.2, f, u))
    | [] => b) none

/-- The best flit of a stop's injection queues for a ring. -/
def Noc.injCand (n : Noc) (before : Tab (List Flit)) (ring s : Nat) : Option Cand :=
  classOrder.foldl (fun b c => match tget n.inject (injKey s c) [] with
    | f :: _ => if nocRing f.src f.dst = ring ∧ f.due ≤ n.cycle then urgent b ((n.mayGo before ring s 2 f).map fun u => (2, f, u)) else b
    | [] => b) none

/-- The flit that a stop sends on a ring's hop, and the injection queue that loses or wins a tie by it (R449). -/
def Noc.choose (n : Noc) (before : Tab (List Flit)) (ring s : Nat) : Option Cand × Option (Nat × Nat) :=
  match n.ringCand before ring s, n.injCand before ring s with
  | some r, some i =>
    let k := injKey s i.2.1.cls
    if r.2.2 < i.2.2 then (some i, some (k, 0))
    else if i.2.2 < r.2.2 then (some r, none)
    else if 15 ≤ tget n.ties k 0 then (some i, some (k, 0))
    else (some r, some (k, tget n.ties k 0 + 1))
  | some r, none => (some r, none)
  | none, some i => (some i, some (injKey s i.2.1.cls, 0))
  | none, none => (none, none)

/-- The head of a list of a table is gone; an empty list is not held. -/
def popTab {α : Type} (t : Tab (List α)) (k : Nat) : Tab (List α) :=
  match tget t k [] with
  | _ :: x :: r => tset t k (x :: r)
  | _ => tdel t k

/-- A flit goes on a ring's hop from stop s. -/
def Noc.go (n : Noc) (ring s : Nat) (x : Cand) : Noc × Flit :=
  let f := x.2.1
  let vc := outVc ring s f.vc
  let k := vcKey ring s f.cls vc
  let aged := f.aged || decide (x.2.2 = 7)
  let g := { f with vc := vc, urg := x.2.2, aged := aged }
  let n1 := if x.1 = 2 then { n with inject := popTab n.inject (injKey s f.cls) } else { n with queues := popTab n.queues (vcKey ring s f.cls x.1) }
  let n2 := if x.1 = 2 ∧ f.head ∧ f.cls ≠ .rsp then
      { n1 with used := tset n1.used (creditKey f.src f.dst f.cls) (tget n1.used (creditKey f.src f.dst f.cls) 0 + 1) }
    else n1
  let held : VcLock := { lane := x.1, urg := x.2.2, aged := aged }
  ({ n2 with locks := if f.tail then tdel n2.locks k else if f.head then tset n2.locks k held else n2.locks }, g)

/-- A credit that a target returns, as the CREDIT field has it: the stop it goes to, its class, one (R441). -/
def creditField (stop cls : Nat) : BitVec 16 := BitVec.ofNat 16 (stop % 64 + cls % 4 * 64 + 256)

/-- What a stop sends on a ring's hop in this cycle: a flit, and a credit that passes through or that it has to return (R441, R446, R449). -/
def Noc.hop (n : Noc) (before : Tab (List Flit)) (ring s : Nat) (passing : BitVec 16 × Nat) : Noc :=
  let c := n.choose before ring s
  let n1 := match c.2 with
    | some (k, v) => { n with ties := if v = 0 then tdel n.ties k else tset n.ties k v }
    | none => n
  let r := match c.1 with
    | some x => let y := n1.go ring s x; (y.1, some y.2)
    | none => (n1, none)
  let put := fun (m : Noc) (x : RingSlot) =>
    { m with slots := if x.flit.isNone ∧ x.credit = 0 then tdel m.slots (40 * ring + s) else tset m.slots (40 * ring + s) x }
  if passing.1 ≠ 0 then put r.1 (slotOf r.2 passing.1 passing.2)
  else match (tget r.1.returns s []).find? fun e => decide (nocRing s e.1 = ring) with
    | none => put r.1 (slotOf r.2 0 0)
    | some e =>
      let rest := (tget r.1.returns s []).erase e
      put { r.1 with returns := if rest.isEmpty then tdel r.1.returns s else tset r.1.returns s rest } (slotOf r.2 (creditField e.1 e.2) s)

/-- A slot's flit reaches the stop after s: it goes out there, or into its input queue (R438, R439, R445). -/
def Noc.reach (n : Noc) (ring s : Nat) (x : RingSlot) : Noc :=
  let t := nextStop ring s
  match x.flit with
  | none => n
  | some f =>
    if f.dst = t then { n with ejecting := n.ejecting ++ [(n.cycle + 2, t, f)] }
    else { n with queues := tset n.queues (vcKey ring t f.cls f.vc) (tget n.queues (vcKey ring t f.cls f.vc) [] ++ [f]) }

/-- The credit of a slot that reaches the stop after s: back at its initiator, it is free again there (R446); another passes on. -/
def Noc.takeCredit (n : Noc) (ring s : Nat) (x : RingSlot) : Noc × BitVec 16 :=
  let c := x.credit.toNat
  let t := nextStop ring s
  if c = 0 ∨ c % 64 ≠ t then (n, x.credit)
  else
    let k := (t * 40 + x.giver) * 4 + c / 64 % 4
    let left := tget n.used k 0 - c / 256
    ({ n with used := if left = 0 then tdel n.used k else tset n.used k left }, 0)

/-- Hops that have something to do: after a slot, a queue, an injection queue or a credit to return. -/
def Noc.hopsBusy (n : Noc) (passed : Tab (BitVec 16 × Nat)) : List Nat :=
  let at_ := fun (s : Nat) => (span 0 4).map fun r => 40 * r + s
  ((passed.map (·.1)) ++ (n.slots.map (·.1)) ++ (n.queues.map fun (e : Nat × List Flit) => e.1 / 8) ++ (n.inject.flatMap fun (e : Nat × List Flit) => at_ (e.1 / 4)) ++
    (n.returns.flatMap fun (e : Nat × List (Nat × Nat)) => at_ e.1)).eraseDups

/-- One NCLK cycle of the hops: what every slot carries reaches its stop, then every stop chooses what leaves (R439, R445, R449). -/
def Noc.hopCycle (n : Noc) : Noc :=
  let r := n.slots.foldl (fun (acc : Noc × Tab (BitVec 16 × Nat)) e =>
    let ring := e.1 / 40
    let s := e.1 % 40
    let y := acc.1.takeCredit ring s e.2
    (y.1.reach ring s e.2, if y.2 = 0 then acc.2 else tset acc.2 (40 * ring + nextStop ring s) (y.2, e.2.giver))) (n, [])
  (r.1.hopsBusy r.2).foldl (fun m k => m.hop r.1.queues (k / 40) (k % 40) (tget r.2 k (0, 0))) { r.1 with slots := [] }

/-! ## At the target (R438, R446, R447, R450) -/

/-- Bin of a latency in the histogram (R450). -/
def latencyBin (l : Nat) : Nat := if l < 2 then 0 else min 15 (Nat.log2 l)

/-- A response has come out whole: the latency of its request counts at the initiator (R450). -/
def Noc.returned (n : Noc) (h : Header) : Noc :=
  match n.trips.find? fun t => decide (t.1 = h.dst) && decide (t.2.1 = h.src) && decide (t.2.2.1 = h.tag) with
  | none => n
  | some t =>
    let b := latencyBin (n.cycle - t.2.2.2)
    ({ n with trips := n.trips.erase t } : Noc).count h.dst (2 + b / 2) 1 (2 ^ 32) (32 * (b % 2))

/-- A target moves a packet out of its input buffer: its credit is to go back (R446). -/
def Noc.release (n : Noc) (h : Header) : Noc :=
  { n with returns := tset n.returns h.dst (tget n.returns h.dst [] ++ [(h.src, h.cls.num)]) }

/-- A request that a target has taken is answered at once if its answer is ready, else later (R438). -/
def Dev.askTarget (d : Dev) (h : Header) : Dev :=
  if h.cls ≠ .req then d
  else match d.noc.owed.find? fun x => decide (x.1.src = h.src) && decide (x.1.dst = h.dst) && decide (x.1.tag = h.tag) with
    | some x => { d with noc := { d.noc with owed := d.noc.owed.erase x } }.send (responseTo h) x.2
    | none => { d with noc := { d.noc with asked := d.noc.asked ++ [h] } }

/-- A packet has come out whole. At a DDR5 channel it waits for the front end, which holds its credit until the bank queue has it (R354, R447).
-/
def Dev.arrive (d : Dev) (h : Header) : Dev :=
  if h.cls = .rsp then { d with noc := d.noc.returned h }
  else if 5 ≤ h.dst ∧ h.dst ≤ 12 ∧ h.cls ≠ .mgmt then { d with noc := { d.noc with front := d.noc.front ++ [(h.dst - 5, h, flitCount h.bytes)] } }
  else { d with noc := d.noc.release h }.askTarget h

/-- A flit comes out at a stop (R439, R440). -/
def Dev.eject (d : Dev) (s : Nat) (f : Flit) : Dev :=
  let k := (s * 40 + f.src) * 4 + f.cls.num
  let h := f.hdr.getD (tget d.noc.incoming k {})
  if f.tail then { d with noc := { d.noc with incoming := tdel d.noc.incoming k } }.arrive h
  else { d with noc := { d.noc with incoming := tset d.noc.incoming k h } }

/-- The flits that are out by now. -/
def Dev.ejectCycle (d : Dev) : Dev :=
  let out := d.noc.ejecting.filter fun e => decide (e.1 ≤ d.noc.cycle)
  out.foldl (fun e x => e.eject x.2.1 x.2.2) { d with noc := { d.noc with ejecting := d.noc.ejecting.filter fun e => decide (d.noc.cycle < e.1) } }

/-! ## DDR5 front ends and bank queues (R352 to R354, R447) -/

/-- Key of a bank queue. -/
def bankKey (c bank : Nat) : Nat := 4096 * c + bank % 4096

/-- A front end places the request that it has granted: a flit a cycle, and the last one only into a bank queue that has room (R354, R458). -/
def Dev.frontPlace (d : Dev) (c : Nat) (h : Header) (left : Nat) : Dev :=
  let at_ := Config.ddrPlace c h.addr
  let k := bankKey c at_.1
  let q := tget d.noc.banks k []
  if 1 < left then { d with noc := { d.noc with frontLeft := tset d.noc.frontLeft c (h, left - 1) } }
  else if 16 ≤ q.length then d
  else
    let placed : BankReq := { row := at_.2, write := h.write }
    (({ d with noc := { (d.noc.release h) with
        banks := tset d.noc.banks k (q ++ [placed]), frontLeft := tdel d.noc.frontLeft c } }.updArbCfg (40 + c) fun x => { x with holder := none }).askTarget h)

/-- One NCLK cycle of a front end: its arbiter grants a request, by the stop it comes from, or the granted one goes on (R457, R458). -/
def Dev.frontCycle (d : Dev) (c : Nat) : Dev :=
  match d.noc.frontLeft.find? fun e => decide (e.1 = c) with
  | some e => d.frontPlace c e.2.1 e.2.2
  | none =>
    match d.arbPick (40 + c) ((d.noc.front.filter fun x => decide (x.1 = c)).map fun x => x.2.1.src) with
    | none => d
    | some r =>
      match d.noc.front.find? fun x => decide (x.1 = c) && decide (x.2.1.src = r) with
      | none => d
      | some x =>
        ({ d with noc := { d.noc with front := d.noc.front.erase x, frontLeft := tset d.noc.frontLeft c x.2 } }.grant (40 + c) r).updArbCfg (40 + c)
          fun y => { y with holder := some r }

/-- The watchdog releases a front end's grant: the request ends there (R453, R462 step 1). -/
def Dev.releaseFront (d : Dev) (c r : Nat) : Dev :=
  match d.noc.frontLeft.find? fun e => decide (e.1 = c) && decide (e.2.1.src = r) with
  | some e => { d with noc := { (d.noc.release e.2.1) with frontLeft := tdel d.noc.frontLeft c } }.updArbCfg (40 + c) fun x => { x with holder := none }
  | none => d

/-- The request of a bank queue that is issued next, by its place: in order of arrival while a read waits behind a write of its row; else one
passed over four times, else the oldest that hits the open row, else the oldest (R352, R353). -/
def bankNext (q : List BankReq) (openRow : Option Nat) : Nat :=
  let idx := span 0 q.length
  let get := fun (i : Nat) => q.getD i {}
  let ordered := idx.any fun i => !(get i).write && (span 0 i).any fun j => (get j).write && decide ((get j).row = (get i).row)
  if ordered then 0
  else ((idx.find? fun i => decide (4 ≤ (get i).passed)).orElse fun _ => idx.find? fun i => decide (some (get i).row = openRow)).getD 0

/-- A channel's controller issues from the next bank in rotation: the request goes, those before it have been passed over, and its row is open
(R352). -/
def Dev.bankCycle (d : Dev) (c : Nat) : Dev :=
  let mine := (d.noc.banks.filter fun e => decide (e.1 / 4096 = c)).map (·.1 % 4096)
  let start := tget d.noc.bankPtr c 0
  match mine.foldl (fun b x => match b with
      | some y => if (x + 4096 - start) % 4096 < (y + 4096 - start) % 4096 then some x else b
      | none => some x) none with
  | none => d
  | some bank =>
    let k := bankKey c bank
    let q := tget d.noc.banks k []
    let was := tget d.noc.openRow k 0
    let i := bankNext q (if was = 0 then none else some (was - 1))
    let row := (q.getD i {}).row
    let rest := ((q.take i).map fun x => { x with passed := x.passed + 1 }) ++ q.drop (i + 1)
    { d with noc := { d.noc with
        banks := if rest.isEmpty then tdel d.noc.banks k else tset d.noc.banks k rest,
        openRow := tset d.noc.openRow k (row + 1),
        bankPtr := if was = row + 1 then d.noc.bankPtr else tset d.noc.bankPtr c ((bank + 1) % 4096) } }

/-! ## An NCLK cycle -/

/-- Nothing is on the rings, waits to get on them, or is to be done at a target. -/
def Noc.quiet (n : Noc) : Bool :=
  n.waits.isEmpty && n.entering.isEmpty && n.inject.isEmpty && n.queues.isEmpty && n.slots.isEmpty && n.returns.isEmpty && n.ejecting.isEmpty &&
    n.front.isEmpty && n.frontLeft.isEmpty

/-- Head flits whose urgency has reached 7 where they wait are AGED from then on (R448). -/
def Noc.markAged (n : Noc) : Noc :=
  let mark := fun (f : Flit) => if f.head ∧ n.urgency f = 7 then { f with aged := true } else f
  { n with inject := n.inject.map fun e => (e.1, e.2.map mark), queues := n.queues.map fun e => (e.1, e.2.map mark) }

/-- One NCLK cycle of the network: what is out, the front ends, the arbiters of the stops, the hops (R439). -/
def Dev.nclk (d : Dev) : Dev :=
  let d1 := d.ejectCycle
  let d2 := ((d1.noc.frontLeft.map (·.1)) ++ (d1.noc.front.map (·.1))).eraseDups.foldl Dev.frontCycle d1
  let d3 := ((d2.noc.entering.map (·.1)) ++ (d2.noc.waits.map (·.1.src))).eraseDups.foldl Dev.injectCycle d2
  { d3 with noc := { d3.noc.markAged.hopCycle with cycle := d3.noc.cycle + 1 } }

/-- `k` NCLK cycles; the rings stand still while they are out of service (R442), and a quiet network only counts. -/
def Dev.nclks (d : Dev) : Nat → Dev
  | 0 => d
  | k + 1 => if d.noc.quiet ∨ d.noc.fatal then { d with noc := { d.noc with cycle := d.noc.cycle + (k + 1) } } else d.nclk.nclks k

/-- What the network does in a tick of 20 ns: 40 NCLK cycles, and one request of each channel issued (R39, R352; log 130). -/
def Dev.netTick (d : Dev) : Dev := (span 0 8).foldl Dev.bankCycle (d.nclks 40)

end Sys2Proof.Machine
end

