-- ==== Sys2Proof/Machine/Parts.lean ====
section
/-! DEFINITION. What a partition does as a whole: its pins and safe states (R235 to R238), entering FROZEN with the tickets
that waits for it (R165, R309 to R313), the system lines it may pull (R247, R252), and the seal halt (R417 to R419). -/
namespace Sys2Proof.Machine
open Host

/-! ## Pins -/

/-- Pins of partition p: bank b holds pins 48b to 48b + 47 (R589). -/
def Dev.pinsOf (d : Dev) (p : Nat) : List Nat :=
  ((span 0 18).filter fun b => (d.part p).banks.getLsbD b).flatMap fun b => span (48 * b) 48

/-- The pin's pair of its bank is in LVDS mode (R237, R600). -/
def Dev.lvdsPin (d : Dev) (pin : Nat) : Bool :=
  (tget d.fab.iobank (pin / 48) 1).getLsbD (32 + pin % 48 / 2)

/-- SAFE of an owned pin: its entry, or PULLDOWN (3) when it is not listed or no FULL head has been accepted; the even
pin's entry governs an LVDS pair (R236, R237). -/
def Dev.safeOf (d : Dev) (p pin : Nat) : Nat :=
  let q := d.part p
  let key := if d.lvdsPin pin then pin / 2 * 2 else pin
  if !q.pinsKnown then 3
  else match q.headFull with
    | some h => match h.pins.find? (fun e => decide (e.1 = key)) with
      | some e => e.2
      | none => 3
    | none => 3

/-- A pin's output in a safe state; HOLD keeps what a driven pin had (R236). -/
def PinOut.safe (o : PinOut) (code : Nat) (pair : Bool) : PinOut :=
  let off : Drive → Drive := fun x => if pair then .hiz else x
  match code with
  | 0 => if o.driven then o else { o with drive := off .pulldown }
  | 1 => { o with drive := .hiz }
  | 2 => { o with drive := off .pullup }
  | 4 => { o with drive := .zero }
  | 5 => { o with drive := .one }
  | _ => { o with drive := off .pulldown }

/-- A partition's pins take their safe states (R235, R236). -/
def Dev.pinsSafe (d : Dev) (p : Nat) : Dev :=
  let d1 := d.updPart p fun q => { q with safe := true }
  forAll (d.pinsOf p) d1 fun d pin =>
    { d with pins := tupd d.pins pin {} fun o => o.safe (d.safeOf p pin) (d.lvdsPin pin) }

/-- A driven level. -/
def driveOf (b : Bool) : Drive := if b then .one else .zero

/-- A partition's pins leave their safe states at the start of a design cycle (R235). Which design output a pin presents
is not given (log 21): its value is free until a commit names it. -/
def Dev.pinsLeaveSafe (d : Dev) (p : Nat) : Dev :=
  if (d.part p).safe then
    let l := d.pinsOf p
    let d1 := (d.updPart p fun q => { q with safe := false }).draw l.length
    forAll l d1 fun e pin =>
      { e with pins := tupd e.pins pin {} fun o =>
                 { o with driven := true, drive := driveOf (Config.freeBool (d.free + pin)) } }
  else d

/-! ## Plot states of a partition -/

/-- Every plot of a partition that is not being reloaded, cleared or mapped out takes a state (R225). -/
def Dev.plotsTo (d : Dev) (p : Nat) (st : PlotState) : Dev :=
  d.updPlots p fun x =>
    match x.state with
    | .ready | .running | .frozen => { x with state := st }
    | _ => x

/-- A plot of the partition has REWIND set (R136). -/
def Dev.rewindDue (d : Dev) (p : Nat) : Bool := (d.plotsOf p).any fun n => (d.plot n).rewind

/-- Low 32 bits of a partition's design cycle number, the DETAIL of run control (R308). -/
def Dev.cycleLow (d : Dev) (p : Nat) : Nat := bits (d.part p).cycle.toNat 0 32

/-- The count in force ends and its STEP completes with a code (R309, R312, R313). -/
def Dev.endCount (d : Dev) (p code : Nat) : Dev :=
  let d1 := match (d.part p).stepOp with
    | some (n, s) => d.complete n s code (d.cycleLow p)
    | none => d
  d1.updPart p fun q => { q with count := none, stepOp := none }

/-- SNAP requests not yet captured complete with a code (R312). -/
def Dev.endSnapReqs (d : Dev) (p code : Nat) : Dev :=
  let d1 := (d.part p).snapReq.foldl (fun d x => d.complete x.thread x.slot code (d.cycleLow p)) d
  d1.updPart p fun q => { q with snapReq := [] }

/-- The tickets that wait for a partition to be FROZEN complete: FRZ and STOP with CODE 0, and a STOP ends the count and
the uncaptured SNAP requests (R311, R312). -/
def Dev.frozenTickets (d : Dev) (p : Nat) : Dev :=
  let l := (d.part p).freeze
  let d1 := l.foldl (fun d x => match x with
    | .frz n s => d.done n s
    | .stop n s => ((d.done n s).endCount p 0x0917).endSnapReqs p 0x0917
    | _ => d) d
  d1.updPart p fun q => { q with freeze := [] }

/-- A drain of the device work of partition p begins: its DMA channel, and its ICP grant when it has one (R82, R451,
R452). The partition is DRAINING toward `to_` with its plots FROZEN, and its pins take their safe states (R225, R235). -/
def Dev.startPartDrain (d : Dev) (p to_ : Nat) : Dev :=
  let d1 := d.updPart p fun q => { q with state := .draining, drainTo := to_, grantDrain := q.grant.isSome }
  let d2 := (d1.updPlots p fun x => match x.state with
    | .clearing | .mappedOut => x
    | _ => { x with state := .frozen }).pinsSafe p
  let fns : List DrainFn := .dma p :: (if (d.part p).grant.isSome then [.icp p] else [])
  let fresh := fns.filter fun (f : DrainFn) =>
    !d2.noc.draining.contains f
  { d2 with noc := { d2.noc with draining := d2.noc.draining ++ fresh } }

/-- A PARTITION reset that waited for the partition to freeze goes on to its drain (R82 steps 1 and 2). -/
def Dev.partResetFrozen (d : Dev) (p : Nat) : Dev :=
  if d.rst.parts.any (fun r => decide (r.part = p) && r.waiting && !r.suspended) then
    { d with rst := { d.rst with
        parts := d.rst.parts.map fun (r : PartReset) => if r.part = p then { r with waiting := false } else r } }.startPartDrain p 1
  else d

/-- A freeze cause is pending for partition p: a thermal trip's stands as long as the trip, a lost reference's as long as the loss
(R45 step 2, R165, R540). -/
def Dev.freezeDue (d : Dev) (p : Nat) : Bool := !(d.part p).freeze.isEmpty || d.thm.trip || decide (d.clk.ref ≠ .good)

/-- A partition is FROZEN at a boundary (R135, R165 order 5); entry 0's context is refilled when it thaws (R167). -/
def Dev.enterFrozen (d : Dev) (p : Nat) : Dev :=
  (((d.plotsTo p .frozen).updPart p fun q => { q with state := .frozen, eng := q.eng.unfill }).frozenTickets p).partResetFrozen p

/-- A freeze within a design cycle during a trip leaves the trip's snapshot untaken, with event 0x0709 (R540 step 4). -/
def Dev.noTripCapture (d : Dev) (p : Nat) : Dev :=
  if d.thm.trip && (d.part p).tsnap.getLsbD 63 then d.post 0x0709 (p + 2 * 2 ^ 8) p else d

/-- A partition freezes at its current microcycle: no commit, pending DESIGN writes discarded, REWIND on each plot, and
what waits for it to be FROZEN goes on (R136). -/
def Dev.freezeMicro (d : Dev) (p : Nat) : Dev :=
  if (d.part p).state = .running then (((d.freezeNow p).noTripCapture p).frozenTickets p).partResetFrozen p else d

/-- A freeze cause is registered for the next boundary of a RUNNING partition (R165). -/
def Dev.addFreeze (d : Dev) (p : Nat) (x : Freeze) : Dev :=
  if (d.part p).state = .running then d.updPart p fun q => { q with freeze := q.freeze ++ [x] } else d

/-- Partitions that exist, in ascending order. -/
def Dev.partsIn (d : Dev) (f : Part → Bool) : List Nat := allParts.filter fun p => f (d.part p)

/-- A response message of the ICP: TAG, STATUS and the frames written (R241). -/
def icpResponse (tag : BitVec 8) (st frames : Nat) : List Byte :=
  tag :: leBytes 1 st ++ leBytes 2 0 ++ leBytes 4 frames ++ leBytes 8 0

/-- An ICP request ends with a STATUS and the frames written: the response goes to the issuing port and shows in PVF_ICP, which
counts the frames, and a STATUS other than 0 posts event 0x0110 (R241, R242, R256). -/
def Dev.icpAnswer (d : Dev) (r : IcpReq) (st frames : Nat) : Dev :=
  let d1 := { d with icp := d.icp.erase r,
                     fab := { d.fab with icpOut := tset d.fab.icpOut r.port (icpResponse r.tag st frames) } }.send
    { cls := .post, src := 3, dst := r.port } (icpResponse r.tag st frames)
  let d2 := d1.updPart r.part fun q =>
    { q with icpStatus := BitVec.ofNat 8 st, icpTag := r.tag, icpFrames := satAdd q.icpFrames frames }
  if st = 0 then d2 else d2.post 0x0110 (r.tag.toNat * 256 + st) r.part

/-- Every ICP request of partition p is aborted: STATUS 8 (R242, R453). -/
def Dev.abortIcp (d : Dev) (p : Nat) : Dev :=
  (d.icp.filter fun r => decide (r.part = p)).foldl (fun d r => d.icpAnswer r 8 0) d

/-! ## SYSFAULT_N -/

/-- The device drives SYSFAULT_N low; before firmware runs, only for a seal halt (R252). -/
def Dev.drivesFault (d : Dev) : Bool :=
  d.ime.sealed || (decide (d.boot.phase = .running) && (d.start.sfCensus || d.start.sfScrub || d.start.sfFw))

/-- A change of the causes that drive SYSFAULT_N, with the event of starting (and its cause) or ending to drive it (R252).
-/
def Dev.faultCauses (d : Dev) (cause : Nat) (f : Dev → Dev) : Dev :=
  let e := f d
  if !d.drivesFault && e.drivesFault then e.post 0x0121 cause
  else if d.drivesFault && !e.drivesFault then e.post 0x0122 0
  else e

/-! ## The seal halt -/

/-- Every partition that exists is HALTED by the seal halt: its plots stop without a commit, its pins take their safe
states, its image key and tenant hashes are zeroised (R226, R418 steps 1, 3 and 4). -/
def Dev.haltPart (d : Dev) (p : Nat) : Dev :=
  if (d.part p).state = .none then d
  else
    let d1 := (d.updPlots p fun x => if x.state = .clearing then x else { x with state := .frozen }).updPart p fun q =>
      { q with state := .halted, sealHalted := true, imageKey := none, hashes := none, eng := q.eng.drop,
               freeze := [], count := none, stepOp := none, snapReq := [], capture := [], load := none,
               rewinding := none, selNext := [], trigNext := [], scrubbing := false }
    d1.pinsSafe p

/-- A seal halt of the whole device for a cause, with its event (R417, R418). A later cause only counts (R419). The
cause's own record is posted before the halt stands (log 22). -/
def Dev.sealHalt (d : Dev) (code detail src : Nat) : Dev :=
  if d.ime.sealed then { d with ime := { d.ime with extra := sat1 d.ime.extra } }
  else
    let d1 := d.postSrc code detail 0 src
    let d2 := d1.faultCauses 1 fun d =>
      { d with ime := { d.ime with
                  sealed := true, cause := BitVec.ofNat 16 code,
                  keyids := d.ime.keyids.map fun e => (e.1, { e.2 with key := 0 }),
                  ports := (span 0 4).map fun n => (n, { d.nk n with state := .bypass, tx := none, rx := none, rxOld := none }) },
               mem := { d.mem with chans := d.mem.chans.map fun e => (e.1, { e.2 with treeKey := 0 }) },
               start := { d.start with hold := true, waiting := false, ts := none, group := [] } }
    let d3 := forAll allParts d2 Dev.haltPart
    let d4 := { d3 with seq := { d3.seq with
      threads := allThreads.map fun n => (n, { d3.thr n with state := .idle, wait := none })
      swap := 0 } }.completeAll d3.ops 0x0912 0
    { d4 with
      ops := [],
      boot := { d4.boot with phase := .sealed, idKeys := false },
      pcie := { d4.pcie with ide := [], ideSecure := [] },
      rst := { d4.rst with svc := none, parts := [], held := [] },
      noc := { d4.noc with draining := [], late := [] },
      plc := { d4.plc with search := none, migs := [] },
      icp := [],
      ring := { d4.ring with
        bypassed := true, circulating := false, waiters := [], waitNext := [],
        ports := (span 0 4).map fun n => (n, { d4.rport n with state := .bypass, txq := [], retry := [] }) } }

/-- What a read of a range under a KeyID comes to. -/
inductive Looked where
  /-- an integrity failure under a VERIFIED KeyID: the device seals and nothing is released -/
  | halt (d : Dev)
  /-- the range cannot be used: where, and why -/
  | bad (d : Dev) (at_ : Nat) (what : Bad)
  /-- the data are delivered -/
  | good (d : Dev)

/-- A read of `n` bytes at a system address under a KeyID finds what it finds: the outcome's changes join the stored bits, corrections
count, and under a VERIFIED KeyID the counter block and MAC are looked up in their caches, and what was fetched, the line and its MAC are checked
in that order (R338 to R340, R379, R397 to R399, R405, R407, R417, R425). -/
def Dev.look (d : Dev) (k a n : Nat) (rd : ReadOutcome) (partialWrite : Bool) : Looked :=
  let verified := decide ((d.keyid k).mode = .verified)
  let t := if verified then d.lookups a n else (d, [])
  let rd := if verified then t.1.bearing rd a t.2 else rd
  let d := t.1
  match (if verified then d.sealCause rd a else none) with
  | some (code, detail) => .halt ((d.logMeta rd a).sealHalt code detail (d.stopOf a))
  | none =>
    let e := if verified then d.countMeta rd a else d
    let x := e.lookPlain a n rd
    match x.2, (if verified then x.1.macLineBad rd a else none) with
    | some (y, b), _ => .bad x.1 y b
    | none, some (y, b) => .bad (x.1.dropMac y) y b
    | none, none => match (if verified then x.1.macBad rd a n else none) with
      | some y => .halt (x.1.sealHalt (if partialWrite then 0x0403 else 0x0401) (addrDetail y) (x.1.stopOf y))
      | none => .good x.1

end Sys2Proof.Machine
end

