-- ==== Sys2Proof/Machine/Fabric.lean ====
section
/-! DEFINITION. The fabric: the grain word and its fields (R94 to R104), routing, edge registers and transit switches
(R105 to R110, R202), vertical lanes and fences (R115, R116, R132, R133), block memory (R120 to R129), one microcycle, and
flip-flop capture and commit (R98 to R100). -/
namespace Sys2Proof.Machine
open Host

/-! ## Places and words -/

/-- Key of a grain word or state slot: plot, context or slot, clod, grain (R103, R141). -/
def grainKey (n k c g : Nat) : Nat := ((n * 8 + k) * 1024 + c) * 64 + g
/-- Plot of a key. -/
def keyPlot (x : Nat) : Nat := x / 524288
/-- Context or slot of a key. -/
def keyCtx (x : Nat) : Nat := x / 65536 % 8
/-- Clod of a key. -/
def keyClod (x : Nat) : Nat := x / 64 % 1024
/-- Grain of a key. -/
def keyGrain (x : Nat) : Nat := x % 64

/-- Key of a grain's latches: plot, clod, grain (R144). -/
def latchKey (n c g : Nat) : Nat := (n * 1024 + c) * 64 + g

/-- Data bits of quarter q of a stored configuration word (R141). -/
def Dev.quarter (d : Dev) (key q : Nat) : BitVec 64 := (tget d.fab.kaolin key 0 >>> (64 * q)).setWidth 64

/-- What a read of a stored configuration codeword comes to (R141, R338). -/
def Dev.readQuarter (d : Dev) (key q : Nat) : Verdict × BitVec 64 :=
  let loc := locKaolin (keyPlot key) (keyCtx key) (keyClod key) (keyGrain key) q
  match tget d.fab.kupsets (4 * key + q) 0 with
  | 0 => (.clean, d.quarter key q)
  | c => readChanged loc (d.quarter key q) c

/-- Stored bits of a configuration word have changed since it was written. -/
def Dev.wordUpset (d : Dev) (key : Nat) : Bool := d.fab.kupsets.any fun e => decide (e.1 / 4 = key)

/-- Configuration word of a grain as it reads, each codeword corrected where it can be (R102, R150). -/
def Dev.word (d : Dev) (n k c g : Nat) : Nat :=
  let key := grainKey n k c g
  if d.wordUpset key then (span 0 4).foldl (fun w q => w + (d.readQuarter key q).2.toNat * 2 ^ (64 * q)) 0
  else (tget d.fab.kaolin key 0).toNat

/-- Words of a plot and context that are not zero, or whose stored bits have changed: keys. -/
def Dev.configured (d : Dev) (n k : Nat) : List Nat :=
  let l := (d.fab.kaolin.filter fun e => decide (e.1 / 65536 = n * 8 + k) && decide (e.2 ≠ 0)).map (·.1)
  l ++ (((d.fab.kupsets.map fun e => e.1 / 4).filter fun x => decide (x / 65536 = n * 8 + k) && !l.contains x).eraseDups)

/-- State slot of a grain: bit 0 FFA committed, 1 FFA next, 2 FFB committed, 3 FFB next (R98). -/
def Dev.slotBits (d : Dev) (key : Nat) : BitVec 4 := (tget d.fab.slots key 0).setWidth 4

/-- A slot's values with their two parity bits (R152). -/
def withParity (v : BitVec 4) : BitVec 6 :=
  BitVec.ofNat 6 (v.toNat + 16 * b2n (xor (v.getLsbD 0) (v.getLsbD 2)) + 32 * b2n (xor (v.getLsbD 1) (v.getLsbD 3)))

/-- Which parity bit of a slot disagrees with its values, the committed one first: 1 committed, 2 next (R152, R564). -/
def slotWrong (x : BitVec 6) : Option Nat :=
  let y := withParity (x.setWidth 4)
  if x.getLsbD 4 ≠ y.getLsbD 4 then some 1 else if x.getLsbD 5 ≠ y.getLsbD 5 then some 2 else none

/-- A state slot written with its parity (R152); one that reads zero is not listed. -/
def Dev.setSlot (d : Dev) (key : Nat) (v : BitVec 4) : Dev :=
  { d with fab := { d.fab with slots := if v = 0 then tdel d.fab.slots key else tset d.fab.slots key (withParity v) } }

/-- A configuration word written as codewords (R103, R141); a zero word is not listed. -/
def Dev.setWord (d : Dev) (key : Nat) (v : BitVec 256) : Dev :=
  { d with fab := { d.fab with
      kaolin := if v = 0 then tdel d.fab.kaolin key else tset d.fab.kaolin key v,
      kupsets := d.fab.kupsets.filter fun e => decide (e.1 / 4 ≠ key) } }

/-- The word in a grain's active latch, which drives the grain (R144). -/
def Dev.act (d : Dev) (n c g : Nat) : Nat := (tget d.fab.active (latchKey n c g) 0).toNat

/-- Length of a wire of index i within a direction (R105). -/
def wireLen (i : Nat) : Nat := if i < 16 then 1 else if i < 24 then 4 else 16

/-- Clod `l` steps from clod c in direction 0 north, 1 east, 2 south, 3 west (or back when `back`), as unbounded
coordinates. -/
def clodMove (c dir l : Nat) (back : Bool) : Int × Int :=
  let x : Int := c % 32
  let y : Int := c / 32
  let s : Int := if back then -(l : Int) else l
  match dir with
  | 0 => (x, y + s)
  | 1 => (x + s, y)
  | 2 => (x, y - s)
  | _ => (x - s, y)

/-- The coordinates lie in the plot. -/
def inPlot (q : Int × Int) : Bool := decide (0 ≤ q.1) && decide (q.1 < 32) && decide (0 ≤ q.2) && decide (q.2 < 32)
/-- Clod index of coordinates, wrapped into a plot (R110). -/
def clodAt (q : Int × Int) : Nat := 32 * (q.2 % 32).toNat + (q.1 % 32).toNat

/-- The neighbour plot in a direction on the same tier (R93). -/
def neighbour (n dir : Nat) : Option Nat :=
  let t := n / 256
  let y := n % 256 / 16
  let x := n % 16
  match dir with
  | 0 => if y < 15 then some (256 * t + 16 * (y + 1) + x) else none
  | 1 => if x < 15 then some (256 * t + 16 * y + (x + 1)) else none
  | 2 => if 0 < y then some (256 * t + 16 * (y - 1) + x) else none
  | _ => if 0 < x then some (256 * t + 16 * y + (x - 1)) else none

/-- The plot at the other end of a plot's vertical lanes (R22, R115). -/
def overPlot (n : Nat) : Nat := (n + 256) % 512

/-- A plot's state lets its fences open (R133). -/
def Plot.inDesign (x : Plot) : Bool :=
  match x.state with
  | .ready | .running | .frozen => true
  | _ => false

/-- The fence of plot n toward plot m is open (R133). -/
def Dev.fenceOpen (d : Dev) (n m : Nat) : Bool :=
  let x := d.plot n
  let y := d.plot m
  decide (x.part ≠ 0) && decide (x.part = y.part) && x.inDesign && y.inDesign

/-- Outbound or inbound position of a wire end at a port: side, track, position (R189, R202); `none` where the clod is no
port of that direction. `out` is the clod whose L16 span ends at the edge, otherwise the clod at the edge of entry. -/
def portPos (c s : Nat) (out : Bool) : Option Nat :=
  let dir := s / 26
  let i := s % 26
  let x := c % 32
  let y := c / 32
  if i < 24 then none
  else
    let side := if out then dir else (dir + 2) % 4
    let at_ : Bool := match dir with
      | 0 => decide (y = if out then 16 else 0)
      | 1 => decide (x = if out then 16 else 0)
      | 2 => decide (y = if out then 15 else 31)
      | _ => decide (x = if out then 15 else 31)
    if at_ then some (64 * side + 32 * (i - 24) + (if dir % 2 = 0 then x else y)) else none

/-- Clod and incoming end of an inbound position (R189). -/
def inboundEnd (pos : Nat) : Nat × Nat :=
  let side := pos / 64
  let track := pos / 32 % 2
  let k := pos % 32
  let dir := (side + 2) % 4
  let c := match side with
    | 0 => 32 * 31 + k
    | 1 => 32 * k + 31
    | 2 => k
    | _ => 32 * k
  (c, 26 * dir + 24 + track)

/-! ## Microcycle registers and signals -/

/-- Microcycle registers of a partition within a dwell, cleared by the swap (R109): edge and hop registers by
(plot × 1,024 + clod) × 104 + end, carry hop registers by (plot × 1,024 + clod) × 8 + gx, lane receive registers by plot ×
4,096 + lane; unlisted registers hold 0. -/
structure MicroRegs where
  /-- edge registers (R110) -/
  edge : Tab Bool := []
  /-- hop registers (R108) -/
  hop : Tab Bool := []
  /-- carry hop registers (R97) -/
  carry : Tab Bool := []
  /-- vertical lane receive registers (R116) -/
  lane : Tab Bool := []
  deriving DecidableEq, Repr

/-- Key of an incoming end's registers. -/
def endKey (n c e : Nat) : Nat := (n * 1024 + c) * 104 + e

/-- Signals of the fabric, by plot, clod and number. -/
inductive Sig where
  /-- clod line (R104) -/
  | line (n c l : Nat)
  /-- X of a grain (R94) -/
  | x (n c g : Nat)
  /-- Y of a grain -/
  | y (n c g : Nat)
  /-- carry out of a grain (R95) -/
  | co (n c g : Nat)
  /-- incoming wire end (R106) -/
  | inEnd (n c e : Nat)
  /-- value a driver puts on the wire it starts (R106) -/
  | seg (n c s : Nat)
  deriving DecidableEq, Repr

/-- WIDTH of a block-memory port: port A is false (R121, R124). -/
def Dev.bWidth (d : Dev) (n j : Nat) (b : Bool) : Nat := bits (d.act n (32 * j + if b then 16 else 15) 0) 183 3

/-- Model port whose carrier is a block (R361): its key 4 × model + port. -/
def Part.portAt (q : Part) (logical j : Nat) : Option Nat :=
  match q.placement with
  | none => none
  | some pl => pl.models.findSome? fun m =>
      ((span 0 m.carriers.length).find? fun t => decide (m.carriers[t]? = some (logical, j))).map fun t => 4 * m.model + t

/-- A cut binding's fields (R501): EN, DIR in, RING B, MARKER, PEER, PEER_PART, PART, ROUND, SLOT, PLOT, BLOCK. -/
structure Binding where
  /-- EN -/
  en : Bool
  /-- DIR: 1 = IN -/
  inb : Bool
  /-- RING: 1 = B -/
  ringB : Bool
  /-- MARKER -/
  marker : Bool
  /-- PEER -/
  peer : Nat
  /-- PEER_PART -/
  peerPart : Nat
  /-- PART -/
  part : Nat
  /-- ROUND -/
  round : Nat
  /-- SLOT -/
  slot : Nat
  /-- PLOT -/
  plot : Nat
  /-- BLOCK -/
  block : Nat
  deriving DecidableEq, Repr

/-- A RING_CUT_b value as a binding (R501). -/
def bindingOf (v : BitVec 64) : Binding :=
  let w := v.toNat
  { en := bit w 63, inb := bit w 62, ringB := bit w 61, marker := bit w 60, peer := bits w 54 6, peerPart := bits w 47 7,
    part := bits w 40 7, round := bits w 36 4, slot := bits w 24 12, plot := bits w 15 9, block := bits w 10 5 }

/-- Enabled bindings of partition p, with their numbers. -/
def Dev.bindings (d : Dev) (p : Nat) : List (Nat × Binding) :=
  (d.ring.cuts.map fun e => (e.1, bindingOf e.2)).filter fun e => e.2.en && decide (e.2.part = p)

/-- The word a model port presents on RDATA, 128 bits (R364). -/
def MPort.rdata (m : MPort) : Nat :=
  if m.beat1 < 4 then leNat ((m.resp.drop (16 * m.beat1)).take 16)
  else if m.beat1 = 7 then b2n m.poison + 2 * b2n m.range + 256 * m.dropped
  else 0

/-- Read data of a block at a port of partition p (R123, R121 port off, R362, R486). -/
def Dev.readData (d : Dev) (p n j : Nat) (b : Bool) : Nat :=
  let q := d.part p
  let logical := (d.plot n).logical
  let half := fun (v : Nat) => if b then v / 2 ^ 64 % 2 ^ 64 else v % 2 ^ 64
  match q.portAt logical j with
  | some t => half (tget q.eng.ports t {}).rdata
  | none =>
    match (d.bindings p).find? fun e => !e.2.marker && decide (e.2.plot = logical) && decide (e.2.block = j) with
    | some (i, x) => if x.inb then half (tget q.eng.cutIn i 0).toNat else 0
    | none =>
      if d.bWidth n j b = 7 then 0
      else
        let y := tget q.eng.brams (logical * 32 + j) {}
        (if b then y.qb else y.qa).toNat

/-- Value of a signal of partition p under the words of the active latches, with the microcycle registers `r`. The fuel bounds the elements on one
path: 940 ps hold fewer than 128 of the fastest element (R111, R112); a longer path, or a loop, breaks R112 and its value
is free. -/
def Dev.sig (d : Dev) (p : Nat) (r : MicroRegs) : Nat → Sig → Bool
  | 0, _ => Config.freeBool d.free
  | f + 1, .line n c l =>
    let v := bits (d.act n c l) 142 9
    let cc := ctxCount (d.part p).ctx
    if v = 0 then false
    else if v ≤ 256 then
      let g := (v - 1) / 4
      let w := d.act n c g
      match (v - 1) % 4 with
      | 0 => d.sig p r f (.x n c g)
      | 1 => d.sig p r f (.y n c g)
      | 2 => decide (bits w 136 3 < cc) && (d.slotBits (grainKey n (bits w 136 3) c g)).getLsbD 0
      | _ => decide (bits w 139 3 < cc) && (d.slotBits (grainKey n (bits w 139 3) c g)).getLsbD 2
    else if v ≤ 360 then d.sig p r f (.inEnd n c (v - 257))
    else if v ≤ 364 then decide (bits (d.act n c (v - 361)) 169 2 = 2) && tget r.lane (n * 4096 + 4 * c + (v - 361)) false
    else if v ≤ 380 then
      let cx := c % 32
      let j := c / 32
      if 12 ≤ cx ∧ cx ≤ 15 then bit (d.readData p n j false) (16 * (15 - cx) + (v - 365))
      else if 16 ≤ cx ∧ cx ≤ 19 then bit (d.readData p n j true) (16 * (cx - 16) + (v - 365))
      else false
    else false
  | f + 1, .x n c g =>
    let w := d.act n c g
    let inp := fun (i : Nat) => d.sig p r f (.line n c (bits w (64 + 6 * i) 6))
    let i5 := b2n (inp 0) + 2 * b2n (inp 1) + 4 * b2n (inp 2) + 8 * b2n (inp 3) + 16 * b2n (inp 4)
    match bits w 100 4 with
    | 1 => bit w (i5 + 32 * b2n (inp 5))
    | 2 => bit w i5
    | 3 => bit w i5 != (if g / 8 ≠ 0 then d.sig p r f (.co n c (g - 8))
        else if c / 32 = 0 then false else d.sig p r f (.co n (c - 32) (g + 56)))
    | 4 => bit w i5 != inp 5
    | 5 => bit w i5 != (if g / 8 ≠ 0 then d.sig p r f (.co n c (g - 8))
        else if c / 32 = 0 then false else tget r.carry ((n * 1024 + c) * 8 + g % 8) false)
    | _ => false
  | f + 1, .y n c g =>
    let w := d.act n c g
    match bits w 100 4 with
    | 2 =>
      let inp := fun (i : Nat) => d.sig p r f (.line n c (bits w (64 + 6 * i) 6))
      bit w (32 + b2n (inp 0) + 2 * b2n (inp 1) + 4 * b2n (inp 2) + 8 * b2n (inp 3) + 16 * b2n (inp 4))
    | 3 | 4 | 5 => d.sig p r f (.co n c g)
    | _ => false
  | f + 1, .co n c g =>
    let w := d.act n c g
    let inp := fun (i : Nat) => d.sig p r f (.line n c (bits w (64 + 6 * i) 6))
    let i5 := b2n (inp 0) + 2 * b2n (inp 1) + 4 * b2n (inp 2) + 8 * b2n (inp 3) + 16 * b2n (inp 4)
    let ci : Nat → Bool := fun m =>
      if m = 4 then inp 5
      else if g / 8 ≠ 0 then d.sig p r f (.co n c (g - 8))
      else if c / 32 = 0 then false
      else if m = 5 then tget r.carry ((n * 1024 + c) * 8 + g % 8) false
      else d.sig p r f (.co n (c - 32) (g + 56))
    match bits w 100 4 with
    | 3 => if bit w i5 then ci 3 else bit w (32 + i5)
    | 4 => if bit w i5 then ci 4 else bit w (32 + i5)
    | 5 => if bit w i5 then ci 5 else bit w (32 + i5)
    | _ => false
  | f + 1, .inEnd n c e =>
    let q := clodMove c (e / 26) (wireLen (e % 26)) true
    let cs := clodAt q
    let hopBit := fun (m : Nat) => bit (d.act m cs (e / 2)) (if e % 2 = 0 then 159 else 168)
    if inPlot q then
      if hopBit n then tget r.hop (endKey n c e) false else d.sig p r f (.seg n cs e)
    else match neighbour n ((e / 26 + 2) % 4) with
      | none => false
      | some m =>
        if !d.fenceOpen n m then false
        else
          let switched := match portPos cs e true with
            | some o => decide (tget (d.plot m).transit o 0 ≠ 0)
            | none => false
          if hopBit m && !switched then tget r.hop (endKey n c e) false else tget r.edge (endKey n c e) false
  | f + 1, .seg n c s =>
    let v := bits (d.act n c (s / 2)) (if s % 2 = 0 then 151 else 160) 8
    if v = 0 then false
    else if v ≤ 64 then d.sig p r f (.line n c (v - 1))
    else if v ≤ 168 then d.sig p r f (.inEnd n c (v - 65))
    else false

/-- Fuel of a signal's evaluation. -/
def sigFuel : Nat := 256

/-- A register set when its value is 1. -/
def setReg (t : Tab Bool) (k : Nat) (v : Bool) : Tab Bool := if v then tset t k true else t

/-- Next values of the registers a wire start feeds: its hop register, or the neighbour's edge register with a hop register
behind it (R108, R110, R132, R202). -/
def Dev.nextWire (d : Dev) (p : Nat) (r acc : MicroRegs) (n c s : Nat) : MicroRegs :=
  let w := d.act n c (s / 2)
  let src := bits w (if s % 2 = 0 then 151 else 160) 8
  let hop := bit w (if s % 2 = 0 then 159 else 168)
  if src = 0 then acc
  else
    let q := clodMove c (s / 26) (wireLen (s % 26)) false
    if inPlot q then
      if hop then { acc with hop := setReg acc.hop (endKey n (clodAt q) s) (d.sig p r sigFuel (.seg n c s)) } else acc
    else match neighbour n (s / 26) with
      | none => acc
      | some m =>
        let switched := match portPos c s true with
          | some o => decide (tget (d.plot n).transit o 0 ≠ 0)
          | none => false
        if !d.fenceOpen m n || switched then acc
        else
          let key := endKey m (clodAt q) s
          { acc with edge := setReg acc.edge key (d.sig p r sigFuel (.seg n c s)),
                     hop := if hop then setReg acc.hop key (tget r.edge key false) else acc.hop }

/-- Next values of the edge registers that a plot's transit switches feed (R202). -/
def Dev.nextTransit (d : Dev) (r acc : MicroRegs) (n : Nat) : MicroRegs :=
  (d.plot n).transit.foldl (fun acc e =>
    if e.2 = 0 then acc
    else
      let inb := inboundEnd (e.2 - 1)
      let side := e.1 / 64
      match neighbour n side with
      | none => acc
      | some m =>
        if !d.fenceOpen m n then acc
        else
          let out := inboundEnd (64 * ((side + 2) % 4) + e.1 % 64)
          { acc with edge := setReg acc.edge (endKey m out.1 out.2) (tget r.edge (endKey n inb.1 inb.2) false) }) acc

/-- Next values of the carry hop register and lane receive register that a grain's word governs (R97, R116). -/
def Dev.nextOwn (d : Dev) (p : Nat) (r acc : MicroRegs) (n c g : Nat) : MicroRegs :=
  let w := d.act n c g
  let acc := if bits w 100 4 = 5 ∧ g / 8 = 0 ∧ c / 32 ≠ 0 then
      { acc with carry := setReg acc.carry ((n * 1024 + c) * 8 + g % 8) (d.sig p r sigFuel (.co n (c - 32) (g + 56))) }
    else acc
  if g < 4 ∧ bits w 169 2 = 2 then
    let m := overPlot n
    let lane := 4 * c + g
    let v := d.act m c g
    if d.fenceOpen n m && decide (bits v 169 2 = 1) && !(d.plot n).lanesOff.contains lane &&
        !(d.plot m).lanesOff.contains lane then
      { acc with lane := setReg acc.lane (n * 4096 + lane) (d.sig p r sigFuel (.line m c (bits v 171 6))) }
    else acc
  else acc

/-- Plots of partition p that run: those being reloaded through the ICP take no part (R243). -/
def Dev.running (d : Dev) (p : Nat) : List Nat := (d.plotsOf p).filter fun n => decide ((d.plot n).state = .running)

/-- Grains of a plot whose active latch holds a word that is not zero: latch keys. -/
def Dev.latched (d : Dev) (n : Nat) : List Nat := (d.fab.active.filter fun e => decide (e.1 / 65536 = n)).map (·.1)

/-- The microcycle registers at the end of a microcycle. -/
def Dev.nextRegs (d : Dev) (p : Nat) (r : MicroRegs) : MicroRegs :=
  (d.running p).foldl (fun acc n =>
    d.nextTransit r ((d.latched n).foldl (fun acc key =>
      let c := key / 64 % 1024
      let g := key % 64
      let acc := d.nextOwn p r acc n c g
      if g < 52 then d.nextWire p r (d.nextWire p r acc n c (2 * g)) n c (2 * g + 1) else acc) acc) n) {}

/-- The physical plot of a logical plot, by the placement (R211); a migration's destination becomes it at the move. -/
def Dev.physical (d : Dev) (p logical : Nat) : Option Nat := (d.part p).placement.bind fun pl => pl.map[logical]?

/-! ## Block memory -/

/-- Number carried by clod lines `lo` to `lo + cnt − 1`. -/
def Dev.lines (d : Dev) (p : Nat) (r : MicroRegs) (n c lo cnt : Nat) : Nat :=
  (span 0 cnt).foldl (fun acc i => acc + b2n (d.sig p r sigFuel (.line n c (lo + i))) * 2 ^ i) 0

/-- Key of a block-memory row. -/
def rowKey (n j row : Nat) : Nat := (n * 32 + j) * 1024 + row

/-- L of a block-memory row (R336). -/
def rowLoc (key : Nat) : Nat := locBlock (key / 32768) (key / 1024 % 32) (key % 1024)

/-- A block-memory row as stored; `none` for a row never written (R129). -/
def Dev.row (d : Dev) (key : Nat) : Option BRow :=
  match d.fab.bram.find? (fun e => decide (e.1 = key)) with
  | some e => some e.2
  | none => if (d.plot (key / 32768)).bmemZero then some { word := codeword (rowLoc key) 0 } else none

/-- The 80 bits of a row, free values where nothing has written it (R129). -/
def Dev.rowWord (d : Dev) (key : Nat) (r : Option BRow) : BitVec 80 :=
  (r.map (·.word)).getD ((Config.freeWord (2 ^ 48 * d.free + 2 * key)).setWidth 80 |||
    ((Config.freeWord (2 ^ 48 * d.free + 2 * key + 1)).setWidth 80 <<< 64))

/-- Data bits of a row, free values where never written. -/
def Dev.rowData (d : Dev) (key : Nat) : BitVec 64 := (d.rowWord key (d.row key)).setWidth 64

/-- A row stored. -/
def Dev.setRow (d : Dev) (key : Nat) (w : BitVec 80) : Dev := { d with fab := { d.fab with bram := tset d.fab.bram key { word := w } } }

/-- Data written to a row as a codeword of the device code (R128, R193). -/
def Dev.codeRow (d : Dev) (key : Nat) (v : BitVec 64) : Dev := d.setRow key (codeword (rowLoc key) v)

/-- Stored bits of rows of running plots of a partition change (R339). -/
def Dev.upsetRows (d : Dev) (p : Nat) (l : List (Nat × BitVec 80)) : Dev :=
  l.foldl (fun e x => if (e.plot (x.1 / 32768)).part = p ∧ (e.row x.1).isSome then e.setRow x.1 (e.rowWord x.1 (e.row x.1) ^^^ x.2) else e) d

/-- Data of a row with a write in it: `width` bits from data bit `bit`; at ×64 only enabled bytes, but all in ECC mode (R122, R123,
R128). -/
def BWrite.merge (w : BWrite) (old : BitVec 64) : BitVec 64 :=
  let sub := w.bit % 64
  let mask : BitVec 64 :=
    if w.width = 64 then
      if w.ecc then BitVec.allOnes 64
      else BitVec.ofNat 64 ((span 0 8).foldl (fun m i => if w.bwe.getLsbD i then m + 255 * 256 ^ i else m) 0)
    else BitVec.ofNat 64 ((2 ^ w.width - 1) * 2 ^ sub)
  (old &&& ~~~mask) ||| ((w.data <<< sub) &&& mask)

/-- A block-memory write applied, as it was sampled: in ECC mode a codeword, otherwise the check bits stay (R128). -/
def Dev.applyB (d : Dev) (n j : Nat) (w : BWrite) : Dev :=
  let key := rowKey n j (w.bit / 64 % 1024)
  let old := d.rowWord key (d.row key)
  let v := w.merge (old.setWidth 64)
  if w.ecc then d.codeRow key v else d.setRow key ((old >>> 64 <<< 64) ||| v.setWidth 80)

/-- An optional write applied. -/
def Dev.applyB? (d : Dev) (n j : Nat) (w : Option BWrite) : Dev :=
  match w with
  | some x => d.applyB n j x
  | none => d

/-- Key of a block's ports in the engine of its partition: they go with the logical plot. -/
def Dev.bramKey (d : Dev) (n j : Nat) : Nat := (d.plot n).logical * 32 + j

/-- The ports of a block in the engine of a partition, changed. -/
def Dev.setBram (d : Dev) (p n j : Nat) (f : Bram2 → Bram2) : Dev :=
  d.updEng p fun e => { e with brams := tupd e.brams (d.bramKey n j) {} f }

/-- The row that a MICRO write changes is kept as it stood at the start of the design cycle (R127). -/
def Dev.keepRow (d : Dev) (p n j : Nat) (w : Option BWrite) : Dev :=
  match w with
  | some x =>
    let key := rowKey n j (x.bit / 64 % 1024)
    d.updEng p fun e =>
      { e with rowStart := if e.rowStart.any fun y => decide (y.1 = key) then e.rowStart else tset e.rowStart key (d.row key) }
  | none => d

/-- A row as a read in a COMMIT mode finds it: a DESIGN read as it stood at the start of the design cycle (R127). -/
def Dev.rowFor (d : Dev) (p key : Nat) (micro : Bool) : Option BRow :=
  if micro then d.row key
  else match (d.part p).eng.rowStart.find? fun y => decide (y.1 = key) with
    | some y => y.2
    | none => d.row key

/-- The design cycle in progress of partition p is faulted (R170 step 1); a fault found again is the same one. -/
def Dev.faultCycle (d : Dev) (p code detail : Nat) (plot : Option Nat) (noAuto : Bool) (src : Nat := evtSource code) : Dev :=
  let f : FaultRec := { code := BitVec.ofNat 16 code, detail := BitVec.ofNat 32 detail, src := src, plot := plot }
  d.updEng p fun e =>
    { e with faults := if e.faults.contains f then e.faults else e.faults ++ [f], noAuto := e.noAuto || noAuto }

/-- Detail of a block-memory row: plot, block, row (R384). -/
def rowDetail (n j row : Nat) : Nat := n * 2 ^ 23 + j * 2 ^ 18 + row * 2 ^ 8

/-- ECC mode is in force: port A's ECC, both ports ×64 (R128). -/
def Dev.eccOn (d : Dev) (n j : Nat) : Bool :=
  bit (d.act n (32 * j + 15) 0) 192 && decide (d.bWidth n j false = 0) && decide (d.bWidth n j true = 0)

/-- COMMIT of a block is MICRO, by port A's field (R124). -/
def Dev.microOn (d : Dev) (n j : Nat) : Bool := bit (d.act n (32 * j + 15) 0) 188

/-- Width in bits of a WIDTH code below 7 (R121). -/
def portBits (code : Nat) : Nat := 64 / 2 ^ code

/-- What one port does at the end of a microcycle. -/
structure Sampled where
  /-- read data that appear two microcycles later (R125) -/
  read : Option (BitVec 64) := none
  /-- the write -/
  write : Option BWrite := none
  /-- the row that a read in ECC mode decoded, with the outcome (R128) -/
  found : Option (Nat × Verdict) := none
  /-- the access was to a row that nothing has written -/
  fresh : Bool := false
  deriving DecidableEq, Repr

/-- One port's sample at the end of a microcycle (R121 to R128). -/
def Dev.samplePort (d : Dev) (p : Nat) (r : MicroRegs) (n j : Nat) (b : Bool) : Sampled :=
  let c0 := 32 * j + if b then 16 else 15
  let cq := fun (q : Nat) => 32 * j + if b then 16 + q else 15 - q
  let code := d.bWidth n j b
  if code = 7 ∨ !d.sig p r sigFuel (.line n c0 16) then {}
  else
    let width := portBits code
    let a := d.lines p r n c0 0 16 % 2 ^ (10 + code)
    let bitAt := width * a
    let pres := d.act n c0 0
    let key := rowKey n j (bitAt / 64 % 1024)
    let row := d.rowFor p key (d.microOn n j)
    let fresh := row.isNone
    let stored := d.rowWord key row
    let x := if d.eccOn n j then readCode (rowLoc key) stored else (.clean, stored.setWidth 64)
    let part := fun (v : BitVec 64) => (v >>> (bitAt % 64)) &&& BitVec.ofNat 64 (2 ^ width - 1)
    let found := if d.eccOn n j then some (key, x.1) else none
    if d.sig p r sigFuel (.line n c0 17) then
      let data := BitVec.ofNat 64 (d.lines p r n (cq 1) 0 32 + d.lines p r n (cq 2) 0 32 * 2 ^ 32)
      let w : BWrite := { bit := bitAt, width := width, data := data &&& BitVec.ofNat 64 (2 ^ width - 1),
                          bwe := BitVec.ofNat 8 (d.lines p r n c0 24 8), dclk := bits pres 189 3, ecc := d.eccOn n j }
      match bits pres 186 2 with
      | 1 => { read := some (part (w.merge (stored.setWidth 64))), write := some w, fresh := fresh }
      | 2 => { write := some w }
      | _ => { read := some (part x.2), write := some w, found := found, fresh := fresh }
    else { read := some (part x.2), found := found, fresh := fresh }

/-- What the outcome of a read in ECC mode leads to: a correction counts; an uncorrectable row is logged and, under the policy of class
0, faults the design cycle or is only reported, its data bits presented as stored (R128, R379, R380, R382, R384). -/
def Dev.noteRow (d : Dev) (p : Nat) : Option (Nat × Verdict) → Dev
  | some (key, .corrected) => d.countCorrected 0 (rowLoc key)
  | some (_, .clean) | none => d
  | some (key, v) =>
    let det := rowDetail (key / 32768) (key / 1024 % 32) (key % 1024)
    let e := d.logUe 0 (if v = .fold then 2 else 1) det
    if d.busErr 0 then e.postSrc 0x0311 det p 0x45 else e.faultCycle p 0x0313 det none true

/-- One block at the end of a microcycle whose values are those of `v`: the read of the microcycle before delivers, both ports sample,
MICRO writes of the microcycle before change the array, port B's first (R125, R126), and a DESIGN write becomes the port's pending one
(R127). -/
def Dev.stepBlock (v : Dev) (p : Nat) (r : MicroRegs) (d : Dev) (n j : Nat) : Dev :=
  let y := tget (v.part p).eng.brams (v.bramKey n j) {}
  let sa := v.samplePort p r n j false
  let sb := v.samplePort p r n j true
  let d1 := ((d.noteRow p sa.found).noteRow p sb.found).draw (b2n (sa.fresh || sb.fresh))
  let d2 := ((d1.keepRow p n j y.mb).applyB? n j y.mb).keepRow p n j y.ma |>.applyB? n j y.ma
  let micro := v.microOn n j
  d2.setBram p n j fun z =>
    { z with qa := y.da.getD z.qa, qb := y.db.getD z.qb, da := sa.read, db := sb.read,
             ma := if micro then sa.write else none, mb := if micro then sb.write else none,
             pa := if micro then z.pa else sa.write.orElse fun _ => z.pa,
             pb := if micro then z.pb else sb.write.orElse fun _ => z.pb }

/-! ## Model ports -/

/-- A model port changed. -/
def Dev.setPort (d : Dev) (p t : Nat) (f : MPort → MPort) : Dev :=
  d.updEng p fun e => { e with ports := tupd e.ports t {} f }

/-- A write of a model port whose last beat has been sampled: kept in order, unless dropped or after a fault (R170 step 1,
R365, R366). -/
def Dev.endModelWrite (d : Dev) (p t width : Nat) (w : PartialWrite) : Dev :=
  let d1 := d.setPort p t fun m => { m with cur := none }
  if w.drop ∨ !(d.part p).eng.faults.isEmpty then d1
  else d1.updEng p fun e => { e with writes := e.writes ++ [{ entry := e.entry, port := t, off := w.index * width, bytes := w.bytes }] }

/-- The page of a model that holds a byte offset has been promoted to marl: its system address (R215). -/
def ModelAt.promoted (x : ModelAt) (off : Nat) : Option Nat :=
  (x.pages.find? fun e => decide (e.1 = off / 4096)).map (·.2)

/-- System address of a byte of a model in marl or DDR5, on its promoted page where it has one (R211, R215). -/
def ModelAt.addrAt (x : ModelAt) (off : Nat) : Nat :=
  match x.promoted off with
  | some a => a + off % 4096
  | none => x.base + off

/-- A line of a model lies in DDR5 now. -/
def ModelAt.inDdr (x : ModelAt) (off : Nat) : Bool := decide (x.tier = 3) && (x.promoted off).isNone

/-- The packet of a model access of the design to DDR5: a REQ from its plot's loam port to the channel's stop (R443). -/
def Dev.modelHeader (d : Dev) (p n t : Nat) (x : ModelAt) (off : Nat) (write : Bool) : Header :=
  let a := x.addrAt off
  { cls := .req, src := loamStop n, dst := d.stopOf a, who := plotRequester n % 256, tag := 128 + 2 * (4096 * p + t) + b2n write,
    addr := (d.physAt a).2, write := write }

/-- A model access to DDR5 goes to its channel. -/
def Dev.sendModel (d : Dev) (p n t : Nat) (x : ModelAt) (off : Nat) (data : Option (List Byte)) : Dev :=
  if x.inDdr off then d.send (d.modelHeader p n t x off data.isSome) (data.getD []) else d

/-- Its response. -/
def Dev.answerModel (d : Dev) (p n t : Nat) (x : ModelAt) (off : Nat) (write : Bool) (data : List Byte) : Dev :=
  if x.inDdr off then d.respondTo (d.modelHeader p n t x off write) data else d

/-- One model port at the end of a microcycle whose values are those of `v` (R363 to R365, R367). -/
def Dev.stepPort (v : Dev) (p : Nat) (r : MicroRegs) (d : Dev) (n j t : Nat) (x : ModelAt) : Dev :=
  let ca := 32 * j + 15
  let cb := 32 * j + 16
  let m := tget (d.part p).eng.ports t {}
  let d1 := d.setPort p t fun m => { m with beat1 := m.beat, beat := v.lines p r n ca 24 3 }
  let wdata := fun (_ : Unit) =>
    leBytes 16 (v.lines p r n (ca - 1) 0 32 + v.lines p r n (ca - 2) 0 32 * 2 ^ 32 +
      v.lines p r n (cb + 1) 0 32 * 2 ^ 64 + v.lines p r n (cb + 2) 0 32 * 2 ^ 96)
  match m.cur with
  | some w =>
    let w1 := { w with bytes := w.bytes ++ wdata () }
    if x.width ≤ w1.bytes.length then d1.endModelWrite p t x.width w1 else d1.setPort p t fun m => { m with cur := some w1 }
  | none =>
    if !v.sig p r sigFuel (.line n ca 16) then d1
    else
      let index := v.lines p r n ca 0 16 + v.lines p r n cb 0 16 * 2 ^ 16
      let out := decide (x.size < index * x.width + x.width)
      let drop := fun (e : Dev) => e.setPort p t fun m => { m with dropped := min 255 (m.dropped + 1), lost := min 255 (m.lost + 1) }
      if v.sig p r sigFuel (.line n ca 17) then
        let bad := out || decide (16 ≤ m.writes)
        let d2 :=
          if x.rdonly then
            let e := (d1.setPort p t fun m => { m with dropped := min 255 (m.dropped + 1) })
            if (d.part p).eng.roDrop then e
            else (e.updEng p fun e => { e with roDrop := true }).post 0x0321 (x.model * 2 ^ 22) p
          else if bad then drop d1
          else d1.setPort p t fun m => { m with writes := m.writes + 1 }
        let w : PartialWrite := { index := index, bytes := (wdata ()).take (min 16 x.width), drop := bad || x.rdonly }
        if x.width ≤ 16 then d2.endModelWrite p t x.width w else d2.setPort p t fun m => { m with cur := some w }
      else if out then drop (d1.setPort p t fun m => { m with range := true })
      else if 1 ≤ m.reads then drop d1
      else (d1.setPort p t fun m => { m with reads := m.reads + 1, req := some index }).sendModel p n t x (index * x.width) none

/-- Every model port of a partition at the end of a microcycle whose values are those of `v`, in port order. -/
def Dev.stepPorts (v : Dev) (p : Nat) (r : MicroRegs) (d : Dev) : Dev :=
  match (v.part p).placement with
  | none => d
  | some pl => pl.models.foldl (fun d x =>
      (span 0 x.carriers.length).foldl (fun e t =>
        match x.carriers[t]? with
        | some (l, j) => match e.physical p l with
          | some n => if (v.plot n).state = .running then v.stepPort p r e n j (4 * x.model + t) x else e
          | none => e
        | none => e) d) d

/-! ## One microcycle -/

/-- One microcycle: block memories and model ports sample, then the microcycle registers take their next values. Every sample sees the
values of this microcycle. -/
def Dev.microcycle (p : Nat) (s : Dev × MicroRegs) : Dev × MicroRegs :=
  let v := s.1
  let r := s.2
  let d := (v.running p).foldl (fun e n => (span 0 32).foldl (fun e j => v.stepBlock p r e n j) e) v
  (v.stepPorts p r d, v.nextRegs p r)

/-- `m` microcycles. -/
def Dev.microcycles (p : Nat) : Nat → Dev × MicroRegs → Dev × MicroRegs
  | 0, s => s
  | m + 1, s => Dev.microcycles p m (Dev.microcycle p s)

/-! ## Flip-flops -/

/-- A control line of a clod (R104). -/
def Dev.ctl (d : Dev) (p : Nat) (r : MicroRegs) (n c g : Nat) : Bool :=
  d.sig p r sigFuel (.line n c (bits (d.act n c g) 177 6))

/-- Captured value of a flip-flop with control field `cfg`, `none` where the capture leaves it (R99). -/
def Dev.capture (d : Dev) (p : Nat) (r : MicroRegs) (n c g cfg : Nat) : Option Bool :=
  let sr := bits cfg 6 3
  let ce := bits cfg 3 3
  if 1 ≤ sr ∧ sr ≤ 4 ∧ d.ctl p r n c (sr - 1) then some (bit cfg 9)
  else if 1 ≤ ce ∧ ce ≤ 4 ∧ !d.ctl p r n c (ce - 1) then none
  else some (match bits cfg 1 2 with
    | 0 => d.sig p r sigFuel (.x n c g)
    | 1 => d.sig p r sigFuel (.y n c g)
    | 2 => d.sig p r sigFuel (.line n c (bits (d.act n c g) 94 6))
    | _ => false)

/-- A slot after a capture: design mode writes the next value, hold mode the committed one (R99, R100). -/
def slotCapture (v : BitVec 4) (ff : Nat) (cfg : Nat) (x : Option Bool) : BitVec 4 :=
  match x with
  | none => v
  | some b =>
    let i := 2 * ff + if bit cfg 0 then 0 else 1
    if b then v ||| (1#4 <<< i) else v &&& ~~~(1#4 <<< i)

/-- Grains of a plot that can change at a capture in context k: with a word in the active latch, or with a slot that is not zero. -/
def Dev.ffKeys (d : Dev) (n k : Nat) : List Nat :=
  let l := (d.latched n).map fun x => grainKey n k (x / 64 % 1024) (x % 64)
  l ++ ((d.fab.slots.filter fun e => decide (e.1 / 65536 = n * 8 + k)).map (·.1)).filter fun x => !l.contains x

/-- Every flip-flop of context k of the running plots captures, from the values of one microcycle (R99, R100). -/
def Dev.captureAll (d : Dev) (p k : Nat) (r : MicroRegs) (into : Dev) : Dev :=
  (d.running p).foldl (fun e n =>
    (d.ffKeys n k).foldl (fun e key =>
      let c := keyClod key
      let g := keyGrain key
      let w := d.act n c g
      let v := d.slotBits key
      let v1 := slotCapture v 0 (bits w 104 16) (d.capture p r n c g (bits w 104 16))
      let v2 := slotCapture v1 1 (bits w 120 16) (d.capture p r n c g (bits w 120 16))
      e.setSlot key v2) e) into

/-- A slot after a commit: design-mode flip-flops whose clock ticks take their next value (R99). -/
def slotCommit (v : BitVec 4) (wa wb : Nat) (ticks : Nat → Bool) : BitVec 4 :=
  let a := if !bit wa 0 && ticks (bits wa 11 3) then (if v.getLsbD 1 then v ||| 1#4 else v &&& 0xE#4) else v
  if !bit wb 0 && ticks (bits wb 11 3) then (if a.getLsbD 3 then a ||| 4#4 else a &&& 0xB#4) else a

/-- Every used slot of the running plots commits (R99, R165 order 3). -/
def Dev.commitSlots (d : Dev) (p : Nat) (ticks : Nat → Bool) : Dev :=
  let cc := ctxCount (d.part p).ctx
  let plots := d.running p
  let keys := (d.fab.slots.map (·.1)).filter fun x => plots.contains (keyPlot x) && decide (keyCtx x < cc)
  keys.foldl (fun e key =>
    let w := d.word (keyPlot key) (keyCtx key) (keyClod key) (keyGrain key)
    e.setSlot key (slotCommit (d.slotBits key) (bits w 104 16) (bits w 120 16) ticks)) d

/-- Pending DESIGN writes are applied where their clock ticks, port B's first, and discarded where it does not; a MICRO
write of the last microcycle is in the array (R126, R127). -/
def Dev.commitBlocks (d : Dev) (p : Nat) (ticks : Nat → Bool) : Dev :=
  let keep := fun (w : Option BWrite) => w.filter fun x => ticks x.dclk
  let e := (d.part p).eng.brams.foldl (fun e b => match e.physical p (b.1 / 32) with
    | some n =>
      let j := b.1 % 32
      (((e.applyB? n j b.2.mb).applyB? n j b.2.ma).applyB? n j (keep b.2.pb)).applyB? n j (keep b.2.pa)
    | none => e) d
  e.updEng p fun g =>
    { g with rowStart := [], brams := g.brams.map fun b => (b.1, { b.2 with pa := none, pb := none, ma := none, mb := none }) }

/-- INIT of a frame's flip-flops goes into the slots of its context, committed and next (R101). -/
def Dev.initFrame (d : Dev) (n k c : Nat) : Dev :=
  (span 0 64).foldl (fun e g =>
    let w := d.word n k c g
    let a := bit w 114
    let b := bit w 130
    e.setSlot (grainKey n k c g) (BitVec.ofNat 4 (3 * b2n a + 12 * b2n b))) d

/-- A frame of 2,048 bytes written to a clod and context (R103): grain g's word in bytes 32g to 32g + 31. -/
def Dev.writeFrame (d : Dev) (n k c : Nat) (l : List Byte) : Dev :=
  (span 0 64).foldl (fun e g => e.setWord (grainKey n k c g) (BitVec.ofNat 256 (leNat ((l.drop (32 * g)).take 32)))) d

/-- Configuration and state slots of a plot, every context, written to zero (R82, R137, R232). -/
def Dev.zeroPlot (d : Dev) (n : Nat) : Dev :=
  { d with fab := { d.fab with
      kaolin := d.fab.kaolin.filter fun e => decide (keyPlot e.1 ≠ n),
      slots := d.fab.slots.filter fun e => decide (keyPlot e.1 ≠ n),
      kupsets := d.fab.kupsets.filter fun e => decide (keyPlot (e.1 / 4) ≠ n) } }

/-- Block memory of a plot written as codewords of zero data (R137). -/
def Dev.zeroBlocks (d : Dev) (n : Nat) : Dev :=
  ({ d with fab := { d.fab with bram := d.fab.bram.filter fun e => decide (e.1 / 32768 ≠ n) } }).updPlot n fun x =>
    { x with bmemZero := true }

end Sys2Proof.Machine
end

