-- ==== Sys2Proof/Machine/Frames.lean ====
section
/-! DEFINITION. Frames on the Norak rings: which port a frame leaves on (R468, R475, R478), the link's numbers and retry
buffer (R432, R476, R477), cut-net sets (R483, R489, R491), and the group freeze (R494). -/
namespace Sys2Proof.Machine
open Host

/-- The device has a ring position: NORAK accepted, a size and a position below it (R69, R474). -/
def Dev.onRing (d : Dev) : Bool := d.feat 5 && decide (0 < d.ring.size) && decide (d.ring.position < d.ring.size)

/-- A ring of this device is ON (R475, R501). -/
def Dev.ringOn (d : Dev) (r : Nat) : Bool := decide ((d.rctl r).state = .on)

/-- Port of a ring and direction: east leaves on N1 or N3 (R468). -/
def portOf (r : Nat) (east : Bool) : Nat := 2 * r + if east then 1 else 0

/-- Ring of a port (R468). -/
def ringOf (n : Nat) : Nat := n / 2

/-- A ring can carry a frame on a port (R475). -/
def Dev.canCarry (d : Dev) (r : Nat) (east : Bool) : Bool :=
  d.ringOn r && decide ((d.rport (portOf r east)).state = .up)

/-! ## Frames on the link (R431, R432, R476) -/

/-- The 32 bytes of a header (R476). -/
def headerOf (f : Frame) : List Byte :=
  [f.type, BitVec.ofNat 8 (b2n f.epoch + 2 * b2n f.fault + 4 * b2n f.last)] ++ leBytes 1 f.src ++ leBytes 1 f.dst ++ leBytes 1 f.hops ++
  [f.group] ++ leBytes 2 f.data.length ++ leBytes 2 (f.lfn % 4096) ++ leBytes 1 (f.round % 16) ++ [f.gen] ++ leBytes 4 f.seq.toNat ++
  leBytes 8 f.cycle.toNat ++ leBytes 1 f.spart ++ leBytes 1 f.dpart ++ leBytes 1 f.frag ++ leBytes 5 0

/-- The first bytes of what HKDF-Expand gives of a secret under a label (R431). -/
def expand (secret : BitVec 384) (name : String) (n : Nat) : List Byte := (leBytes 48 (Config.hkdf secret (label name)).toNat).take n

/-- The secret after a key update (R432). -/
def nextSecret (secret : BitVec 384) : BitVec 384 := Config.hkdf secret (label "norak upd")

/-- The nonce of a frame under a secret: the IV xor its sequence number, big-endian (R431). -/
def frameNonce (secret : BitVec 384) (f : Frame) : List Byte :=
  xorBytes (expand secret "norak iv" 12) (leBytes 4 0 ++ beBytes 8 f.seq.toNat)

/-- The payload of a frame encrypted under a secret, or decrypted (R429, R431). -/
def frameCrypt (secret : BitVec 384) (f : Frame) : List Byte := gcmCrypt (expand secret "norak key" 32) (frameNonce secret f) f.data

/-- The tag of a frame whose payload is encrypted: the header is the additional data (R431, R476). -/
def frameTag (secret : BitVec 384) (f : Frame) : BitVec 128 :=
  gcmTag (expand secret "norak key" 32) (frameNonce secret f) (headerOf f) f.data

/-- A frame as it stands on a link (R429, R476). -/
def sealedFrame (secret : BitVec 384) (f : Frame) : List Byte :=
  let g := { f with data := frameCrypt secret f }
  headerOf g ++ g.data ++ leBytes 16 (frameTag secret g).toNat

/-- The payload of a frame that arrives with a tag, when the tag is right under a secret (R433). -/
def openUnder (secret : Option (BitVec 384)) (f : Frame) (tag : BitVec 128) : Option (List Byte) :=
  match secret with
  | some s => if frameTag s f = tag then some (frameCrypt s f) else none
  | none => none

/-- A frame that arrives is opened: under the secret of its epoch, under the next one at the first frame of a new epoch, which replaces
the secret, or under the previous one within 1 ms of that (R432). Answered are the port's keys after it and the payload. -/
def NkPort.opens (k : NkPort) (f : Frame) (tag : BitVec 128) (now : BitVec 56) : Option (NkPort × List Byte) :=
  if f.epoch = k.rxEpoch then (openUnder k.rx f tag).map fun l => ({ k with rxSeq := k.rxSeq + 1 }, l)
  else match openUnder (k.rx.map nextSecret) f tag with
    | some l => some ({ k with rxEpoch := f.epoch, rxOld := k.rx, rxOldTime := now, rx := k.rx.map nextSecret, rxSeq := 1 }, l)
    | none =>
      if now.toNat < k.rxOldTime.toNat + 250000 then (openUnder k.rxOld f tag).map fun l => (k, l) else none

/-- The tag that a frame must arrive with (R432). -/
def NkPort.tagFor (k : NkPort) (f : Frame) : BitVec 128 :=
  frameTag ((if f.epoch = k.rxEpoch then k.rx else k.rx.map nextSecret).getD 0) f

/-! ## Sending -/

/-- Carry codes of the 64-byte units of data (R421). -/
def codesOf (l : List Byte) : List (BitVec 32) := (span 0 ((l.length + 63) / 64)).map fun i => carryCode ((l.drop (64 * i)).take 64)

/-- Data with bits of unit i changed. -/
def changeUnit (l : List Byte) (i : Nat) (c : BitVec 512) : List Byte :=
  l.take (64 * i) ++ leBytes (min 64 (l.length - 64 * i)) (leNat ((l.drop (64 * i)).take 64) ^^^ c.toNat) ++ l.drop (64 * i + 64)

/-- The carry codes of a frame agree with its data where it leaves the device; a frame that has none passed no entry point of R422. -/
def codesAgree (f : Frame) : Bool := f.codes.isEmpty || decide (codesOf f.data = f.codes)

/-- A fault found now in what a partition sends: of the design cycle in progress, or of the next one. -/
def Dev.faultSender (d : Dev) (p code detail src : Nat) : Dev :=
  let f : FaultRec := { code := BitVec.ofNat 16 code, detail := BitVec.ofNat 32 detail, src := src, plot := none }
  if (d.part p).eng.running then d.faultCycle p code detail none false src
  else d.updEng p fun e => { e with nextFaults := if e.nextFaults.contains f then e.nextFaults else e.nextFaults ++ [f] }

/-- The carry codes of a frame are checked where it leaves on port n: one that disagrees leaves with the fault mark, and event code 0x0421
faults the sending partition's design cycle, or reports a frame that is forwarded (R425). -/
def Dev.checkExit (d : Dev) (n : Nat) (f : Frame) : Dev × Frame :=
  if codesAgree f then (d, f)
  else
    let e := { d with ime := { d.ime with ccNorak := sat1 d.ime.ccNorak } }
    (if f.src = d.ring.position then e.faultSender f.spart 0x0421 n (norakStop n) else e.postSrc 0x0421 n 0 (norakStop n),
      { f with fault := true })

/-- The sender's next secret: the sequence restarts, the epoch bit toggles, event 0x0433 (R432). -/
def Dev.rekey (d : Dev) (n : Nat) : Dev :=
  match (d.nk n).tx with
  | some t =>
    (d.updNk n fun k => { k with tx := some (nextSecret t), txSeq := 0, epoch := k.epoch + 1 }).postSrc 0x0433
      (n + ((d.nk n).epoch + 1).toNat * 256) 0 (norakStop n)
  | none => d

/-- A frame goes on the link of a port, sealed under the next sequence number; the secret is updated after 2^32 frames (R429, R431, R432). -/
def Dev.transmit (d : Dev) (n : Nat) (f : Frame) : Dev :=
  let e := if 2 ^ 32 ≤ (d.nk n).txSeq then d.rekey n else d
  let k := e.nk n
  let g := { f with seq := BitVec.ofNat 32 k.txSeq, epoch := k.epoch.getLsbD 0, codes := [] }
  (e.updRport n fun x => { x with wire := sealedFrame (k.tx.getD 0) g }).updNk n fun y => { y with txSeq := y.txSeq + 1 }

/-- A frame leaves on a port: its carry codes are checked and stay behind, it takes the next link frame and sequence numbers, and waits
in the retry buffer of 256 frames for its acknowledgement; with the buffer full it waits in the queue (R422, R425, R432, R476, R477). -/
def Dev.emit (d : Dev) (n : Nat) (f : Frame) : Dev :=
  let x := d.rport n
  if 256 ≤ x.retry.length then d.updRport n fun x => { x with txq := x.txq ++ [f] }
  else
    let c := d.checkExit n f
    let g := { c.2 with lfn := x.txLfn, codes := [] }
    (c.1.transmit n g).updRport n fun x => { x with retry := x.retry ++ [g], txLfn := (x.txLfn + 1) % 4096 }

/-- A frame sent on a ring in a direction, on the other ring where that one cannot carry it, or kept in the port queue
(R475). -/
def Dev.sendDir (d : Dev) (r : Nat) (east : Bool) (f : Frame) : Dev :=
  if d.canCarry r east then d.emit (portOf r east) f
  else if d.canCarry (1 - r) east then d.emit (portOf (1 - r) east) f
  else d.updRport (portOf r east) fun x => { x with txq := x.txq ++ [f] }

/-- East is the direction to a position: the fewer positions, and east on a tie (R475). -/
def Dev.eastTo (d : Dev) (dst : Nat) : Bool :=
  let n := d.ring.size
  let k := (dst + n - d.ring.position) % n
  decide (2 * k ≤ n)

/-- A frame sent to a position on a chosen ring (R475). -/
def Dev.sendTo (d : Dev) (r dst : Nat) (f : Frame) : Dev := d.sendDir r (d.eastTo dst) f

/-- The frames that waited in a port's queue leave when the port can carry frames (R429, R475). -/
def Dev.flushPort (d : Dev) (n : Nat) : Dev :=
  if d.canCarry (ringOf n) (decide (n % 2 = 1)) then
    let q := (d.rport n).txq
    q.foldl (fun d f => d.emit n f) (d.updRport n fun x => { x with txq := [] })
  else d

/-! ## Cut-net sets -/

/-- Bindings of one set of partition p in slot order: direction, peer position, peer partition, round (R483). -/
def Dev.setOf (d : Dev) (p : Nat) (inb : Bool) (peer peerPart round : Nat) : List (Nat × Binding) :=
  let l := (d.bindings p).filter fun e => decide (e.2.inb = inb) && decide (e.2.peer = peer) &&
    decide (e.2.peerPart = peerPart) && decide (e.2.round = round)
  (span 0 4096).filterMap fun s => l.find? fun e => decide (e.2.slot = s)

/-- Sets of partition p in a direction and round: peer position and partition, each once. -/
def Dev.setsOf (d : Dev) (p : Nat) (inb : Bool) (round : Nat) : List (Nat × Nat) :=
  ((d.bindings p).filter fun e => decide (e.2.inb = inb) && decide (e.2.round = round)).foldl (fun acc e =>
    if acc.contains (e.2.peer, e.2.peerPart) then acc else acc ++ [(e.2.peer, e.2.peerPart)]) []

/-- Fragments of a set of `n` slots: one for each 64 slots, one for a marker (R483, R491). -/
def fragments (n : Nat) : Nat := max 1 ((n + 63) / 64)

/-- Slots of a set that carry values: none for a marker (R483). -/
def slotsOf (l : List (Nat × Binding)) : List (Nat × Binding) := l.filter fun e => !e.2.marker

/-- The inbound frames of round r of the partition's design cycle have all arrived (R491). -/
def Dev.roundArrived (d : Dev) (p r : Nat) : Bool :=
  (d.setsOf p true r).all fun s =>
    let n := (slotsOf (d.setOf p true s.1 s.2 r)).length
    (span 0 (fragments n)).all fun f => (d.part p).eng.cutBuf.any fun c =>
      decide (c.src = s.1) && decide (c.spart = s.2) && decide (c.round = r) && decide (c.frag = f) &&
      decide (c.cycle = (d.part p).cycle.toNat)

/-- Every inbound frame of every round of the design cycle has arrived (R165 order 1). -/
def Dev.allArrived (d : Dev) (p : Nat) : Bool := (span 0 16).all fun r => d.roundArrived p r

/-- A fault found now that belongs to the next design cycle (R169). -/
def Dev.faultNext (d : Dev) (p code detail : Nat) (plot : Option Nat) (src : Nat := evtSource code) : Dev :=
  let f : FaultRec := { code := BitVec.ofNat 16 code, detail := BitVec.ofNat 32 detail, src := src, plot := plot }
  d.updEng p fun e => { e with nextFaults := if e.nextFaults.contains f then e.nextFaults else e.nextFaults ++ [f] }

/-- The inbound values of round r of design cycle k are presented (R162, R487), and its frames leave the buffer; a
fault-marked one faults the design cycle that sees it, without a scrub (R493), and so does one whose carry code disagrees
(R425): this one, or the `next`. -/
def Dev.presentRound (d : Dev) (p r k : Nat) (next : Bool) : Dev :=
  let mine : List CutFrame := (d.part p).eng.cutBuf.filter fun c => decide (c.round = r) && decide (c.cycle = k)
  let d1 := (d.setsOf p true r).foldl (fun d s =>
    (slotsOf (d.setOf p true s.1 s.2 r)).foldl (fun d e =>
      match mine.find? fun (c : CutFrame) => decide (c.src = s.1) && decide (c.spart = s.2) && decide (c.frag = e.2.slot / 64) with
      | some c =>
        let v := BitVec.ofNat 128 (leNat ((c.data.drop (16 * (e.2.slot % 64))).take 16))
        d.updEng p fun g => { g with cutIn := tset g.cutIn e.1 v }
      | none => d) d) d
  let hit := fun (e : Dev) (code detail src : Nat) =>
    if next then e.faultNext p code detail none src else e.faultCycle p code detail none false src
  let d2 := match mine.find? fun (c : CutFrame) => decide (codesOf c.data ≠ c.codes) with
    | some c =>
      let at_ := match (d.setOf p true c.src c.spart r).head? with
        | some b => (d.physical p b.2.plot).getD 0
        | none => 0
      hit { d1 with ime := { d1.ime with ccFabric := sat1 d1.ime.ccFabric } } 0x0422 p (loamStop at_)
    | none => match mine.find? fun (c : CutFrame) => c.fault with
      | some c => hit d1 0x0615 (p + c.src * 256) (norakStop c.port)
      | none => d1
  d2.updEng p fun g => { g with cutBuf := g.cutBuf.filter fun c => !(decide (c.round = r) && decide (c.cycle = k)) }

/-- The CUTNET frames of every OUT set of a round, built from the values of the dwell's last microcycle, in `v`, each with the ring it
goes on and the logical plot of its first slot; their values get their carry codes here (R422, R487, R489). A frame captured once a fault is found carries the fault mark
(R493). -/
def Dev.roundFrames (d v : Dev) (p : Nat) (r : MicroRegs) (round : Nat) : List (Nat × Nat × Frame) :=
  let q := d.part p
  let slot := fun (b : Binding) => match d.physical p b.plot with
    | some n =>
      let ca := 32 * b.block + 15
      let cb := 32 * b.block + 16
      leBytes 16 (v.lines p r n (ca - 1) 0 32 + v.lines p r n (ca - 2) 0 32 * 2 ^ 32 +
        v.lines p r n (cb + 1) 0 32 * 2 ^ 64 + v.lines p r n (cb + 2) 0 32 * 2 ^ 96)
    | none => leBytes 16 0
  (d.setsOf p false round).flatMap fun s =>
    let l := d.setOf p false s.1 s.2 round
    let vals := slotsOf l
    let cnt := fragments vals.length
    let ring := if l.any (fun x => x.2.ringB) then 1 else 0
    (span 0 cnt).map fun f =>
      let data := ((vals.drop (64 * f)).take 64).flatMap fun x => slot x.2
      let plot := ((vals.drop (64 * f)).head?.map fun x => x.2.plot).getD 0
      (ring, plot, { type := 1, fault := !q.eng.faults.isEmpty, last := decide (f + 1 = cnt), src := d.ring.position, dst := s.1,
                     group := q.group, round := round, gen := q.gen, cycle := q.cycle, spart := p, dpart := s.2, frag := f,
                     data := data, codes := codesOf data })

/-- Bits of unit i of the frames' data, the frames one after another, change on their way. -/
def moveFrames : List (Nat × Nat × Frame) → Nat → BitVec 512 → List (Nat × Nat × Frame)
  | [], _, _ => []
  | x :: r, i, c =>
    let n := (x.2.2.data.length + 63) / 64
    if i < n then (x.1, x.2.1, { x.2.2 with data := changeUnit x.2.2.data i c }) :: r else x :: moveFrames r (i - n) c

/-- A frame goes to a Norak port's stop as a POST of its plot's loam port (R443). -/
def Dev.postFrame (d : Dev) (p plot port : Nat) (f : Frame) : Dev :=
  match d.physical p plot with
  | some n => d.send { cls := .post, src := loamStop n, dst := norakStop port, who := plotRequester n % 256 } f.data
  | none => d

/-- The frames of a round leave (R487, R489), with the bits that change on the way to the Norak exit (R425). -/
def Dev.sendRound (d v : Dev) (p : Nat) (r : MicroRegs) (round : Nat) (moved : Option (Nat × BitVec 512)) : Dev :=
  let l := d.roundFrames v p r round
  (match moved with | some m => moveFrames l m.1 m.2 | none => l).foldl (fun e (x : Nat × Nat × Frame) =>
    (e.postFrame p x.2.1 (portOf x.1 (e.eastTo x.2.2.dst)) x.2.2).sendTo x.1 x.2.2.dst x.2.2) d

/-! ## The group freeze -/

/-- A partition freezes at its current microcycle with REWIND set, from RUNNING or FROZEN (R494). -/
def Dev.freezeRewind (d : Dev) (p : Nat) : Dev :=
  if (d.part p).state = .frozen then d.updPlots p fun x => { x with rewind := true } else d.freezeMicro p

/-- A GFREEZE acts on this device's partitions of its group and generation (R494): one that is RUNNING or FROZEN freezes at
once, with event 0x0616. One whose design cycle is already faulted completes R170 first. -/
def Dev.groupFreeze (d : Dev) (group gen : BitVec 8) (src stop : Nat) : Dev :=
  forAll allParts d fun d p =>
    let q := d.part p
    if q.cut && decide (q.group = group) && decide (q.gen = gen) && q.eng.faults.isEmpty &&
        (decide (q.state = .running) || decide (q.state = .frozen)) then
      (d.freezeRewind p).postSrc 0x0616 (group.toNat + src * 256) p stop
    else d

/-- A group freeze is started: a GFREEZE with DST 0xFF on every ring that is ON, and its effect here (R494). -/
def Dev.startGroupFreeze (d : Dev) (p : Nat) : Dev :=
  let q := d.part p
  let f : Frame := { type := 5, src := d.ring.position, dst := 0xFF, group := q.group, gen := q.gen, cycle := q.cycle,
                     spart := p }
  let d1 := if d.ringOn 0 then d.sendDir 0 true f else d
  let d2 := if d.ringOn 1 then d1.sendDir 1 true f else d1
  d2.groupFreeze q.group q.gen d.ring.position (norakStop 1)

end Sys2Proof.Machine
end

