-- ==== Sys2Proof/Machine/Kaolin.lean ====
section
/-! DEFINITION. The configuration tiers (R141 to R152): digests of plots (R497, R547, R548), codewords checked and rewritten (R170, R178,
R545, R546), stream words with their parity and the bonds that carry them, the latches, and the parity of state slots. -/
namespace Sys2Proof.Machine
open Host

/-! ## Digests (R497, R547) -/

/-- A frame's 2,048 bytes (R103). -/
def Dev.frameBytes (d : Dev) (n k c : Nat) : List Byte :=
  (span 0 64).flatMap fun g => leBytes 32 (d.word n k c g)

/-- Digest of a physical plot over cc contexts (R547). -/
def Dev.plotDigest (d : Dev) (n cc : Nat) : BitVec 256 :=
  Config.sha256 ((span 0 cc).flatMap fun k => (span 0 1024).flatMap fun c => d.frameBytes n k c)

/-- One level of the root: pairs hashed, an unpaired last node moves up (R497 step 2). -/
def rootLevel : List (BitVec 256) → List (BitVec 256)
  | a :: b :: r => Config.sha256 (1#8 :: leBytes 32 a.toNat ++ leBytes 32 b.toNat) :: rootLevel r
  | l => l

/-- Levels until one node remains, at most `f` of them. -/
def rootTop : Nat → List (BitVec 256) → BitVec 256
  | 0, l => l.headD 0
  | f + 1, l => if l.length ≤ 1 then l.headD 0 else rootTop f (rootLevel l)

/-- The configuration digest root of n plot digests and cc contexts (R497). -/
def digestRoot (l : List (BitVec 256)) (cc : Nat) : BitVec 256 :=
  let leaves := ((span 0 l.length).zip l).map fun x => Config.sha256 (0#8 :: leBytes 2 x.1 ++ leBytes 32 x.2.toNat)
  Config.sha256 (2#8 :: leBytes 2 l.length ++ leBytes 1 cc ++ leBytes 32 (rootTop 16 leaves).toNat)

/-- The digest of a logical plot is recorded as its stored configuration gives it (R231, R243, R548). -/
def Dev.recordDigest (d : Dev) (p logical : Nat) : Dev :=
  match d.physical p logical with
  | some n => d.updPart p fun q => { q with digests := tset q.digests logical (d.plotDigest n (ctxCount q.ctx)) }
  | none => d

/-- The root follows the recorded digests; the next scrubber pass makes it comparable again (R497, R498). -/
def Dev.updateRoot (d : Dev) (p : Nat) : Dev :=
  d.updPart p fun q =>
    { q with root := digestRoot ((span 0 q.plots).map fun l => tget q.digests l 0) (ctxCount q.ctx), rooted := false }

/-- A plot is damaged (R178, R549): the partition's set of damaged plots grows. -/
def Dev.addDamage (d : Dev) (p logical : Nat) : Dev :=
  d.updPart p fun q => { q with damaged := if q.damaged.contains logical then q.damaged else logical :: q.damaged }

/-! ## Codewords -/

/-- A stored word lies in the tiers (R141). -/
def onTier (l : CfgLoc) : Bool := decide (l.plot < 512) && decide (l.ctx < 8) && decide (l.clod < 1024) && decide (l.grain < 64)

/-- Key of a stored word. -/
def wordKey (l : CfgLoc) : Nat := grainKey l.plot l.ctx l.clod l.grain

/-- Kaolin class of a plot (R378). -/
def kaolinClass (n : Nat) : Nat := if n < 256 then 1 else 2

/-- L of quarter q of a stored word, by its key (R336). -/
def quarterLoc (key q : Nat) : Nat := locKaolin (keyPlot key) (keyCtx key) (keyClod key) (keyGrain key) q

/-- Stored bits of codewords of the tiers change: each named by its word and quarter (R339). -/
def Dev.upsetStored (d : Dev) (l : List (CfgLoc × Nat × BitVec 80)) : Dev :=
  l.foldl (fun e x =>
    if onTier x.1 ∧ x.2.1 < 4 then
      let i := 4 * wordKey x.1 + x.2.1
      let v := tget e.fab.kupsets i 0 ^^^ x.2.2
      { e with fab := { e.fab with kupsets := if v = 0 then tdel e.fab.kupsets i else tset e.fab.kupsets i v } }
    else e) d

/-- A codeword rewritten with data. -/
def Dev.setQuarter (d : Dev) (key q : Nat) (v : BitVec 64) : Dev :=
  let old := tget d.fab.kaolin key 0
  let w := (old &&& ~~~((BitVec.allOnes 64).setWidth 256 <<< (64 * q))) ||| (v.setWidth 256 <<< (64 * q))
  { d with fab := { d.fab with
      kaolin := if w = 0 then tdel d.fab.kaolin key else tset d.fab.kaolin key w, kupsets := tdel d.fab.kupsets (4 * key + q) } }

/-- Contexts of a plot's partition that are used; none for a plot of no partition (R546). -/
def Dev.usedPlanes (d : Dev) (n : Nat) : Nat :=
  let x := d.plot n
  if x.part = 0 ∨ x.state = .free then 0 else ctxCount (d.part x.part).ctx

/-- What is recorded of a codeword's read: a correction counts, another failure is logged (R150, R379, R382). -/
def Dev.noteQuarter (d : Dev) (key q : Nat) (v : Verdict) : Dev :=
  let cl := kaolinClass (keyPlot key)
  match v with
  | .clean => d
  | .corrected => d.countCorrected cl (quarterLoc key q)
  | .fold => d.logUe cl 2 (quarterLoc key q)
  | .uncorrectable => d.logUe cl 1 (quarterLoc key q)

/-- A codeword is read and, where the read was corrected, rewritten; one of an unused plane whose read is not clean becomes a zero
codeword, uncounted (R545, R546). -/
def Dev.scrubQuarter (d : Dev) (key q : Nat) : Dev :=
  let x := d.readQuarter key q
  if x.1 = .clean then d
  else if d.usedPlanes (keyPlot key) ≤ keyCtx key then d.setQuarter key q 0
  else
    let e := d.noteQuarter key q x.1
    if x.1 = .corrected then e.setQuarter key q x.2 else e

/-- Every codeword of some plots is checked, and corrected where it can be (R170 step 4, R178, R545). -/
def Dev.scrubPlots (d : Dev) (mine : Nat → Bool) : Dev :=
  ((d.fab.kupsets.map (·.1)).filter fun i => mine (keyPlot (i / 4))).foldl (fun e i => e.scrubQuarter (i / 4) (i % 4)) d

/-- Words of a plot's used planes with a codeword that cannot be read. -/
def Dev.badWords (d : Dev) (n : Nat) : List Nat :=
  ((d.fab.kupsets.filter fun e => decide (keyPlot (e.1 / 4) = n) && decide (keyCtx (e.1 / 4) < d.usedPlanes n) &&
    match (d.readQuarter (e.1 / 4) (e.1 % 4)).1 with
    | .uncorrectable | .fold => true
    | _ => false).map fun e => e.1 / 4)

/-- The digest derived for a plot: of the stored frames; a free value where a word of it cannot be read (log 13). -/
def Dev.derived (d : Dev) (n : Nat) : BitVec 256 :=
  if (d.badWords n).isEmpty then d.plotDigest n (d.usedPlanes n)
  else (Config.freeWord d.free ++ Config.freeWord (d.free + 1) ++ Config.freeWord (d.free + 2) ++ Config.freeWord (d.free + 3) : BitVec 256)

/-- The recorded digest of a physical plot of partition p (R548). -/
def Dev.recorded (d : Dev) (p n : Nat) : Option (BitVec 256) :=
  ((d.part p).digests.find? fun e => decide (e.1 = (d.plot n).logical)).map (·.2)

/-! ## Stream words and latches -/

/-- The four parity bits of a stream word: P_q over bits [64q + 63:64q], P_3 over bits [251:192] (R145). -/
def streamParity (w : Nat) : Nat :=
  b2n (parity (bits w 0 64) 64) + 2 * b2n (parity (bits w 64 64) 64) + 4 * b2n (parity (bits w 128 64) 64) +
    8 * b2n (parity (bits w 192 60) 60)

/-- The stream word of a grain: its data bits after correction with their parity, that of a quarter inverted whose codeword cannot be
read (R145, R150). -/
def Dev.streamWord (d : Dev) (key : Nat) : BitVec 256 :=
  let w := bits (d.word (keyPlot key) (keyCtx key) (keyClod key) (keyGrain key)) 0 252
  let inverted := (span 0 4).foldl (fun n q => match (d.readQuarter key q).1 with
    | .uncorrectable | .fold => n + 2 ^ q
    | _ => n) 0
  BitVec.ofNat 256 (w + (streamParity w ^^^ inverted) * 2 ^ 252)

/-- The parity bits that a latch holds disagree with those of its data bits (R147, R151). -/
def latchWrong (w : BitVec 256) : Bool := decide (streamParity w.toNat ≠ bits w.toNat 252 4)

/-- The bits of the stream word that configuration bond b carries in microcycle u of a refill: the lowest of four (R146). -/
def bondBits (u b : Nat) : Nat := 64 * u + 4 * b

/-- A latch with bits changed; a zero one is not listed. -/
def latchUpset (t : Tab (BitVec 256)) (key : Nat) (c : BitVec 256) : Tab (BitVec 256) :=
  let v := tget t key 0 ^^^ c
  if v = 0 then tdel t key else tset t key v

/-- Latches of the running plots of a partition with new contents. -/
def Dev.refillLatches (d : Dev) (p : Nat) (t : Tab (BitVec 256)) (new : List (Nat × BitVec 256)) : Tab (BitVec 256) :=
  new.foldr (fun x m => if x.2 = 0 then tdel m x.1 else tset m x.1 x.2) (t.filter fun e => !(d.running p).contains (e.1 / 65536))

/-- The shadow latches of a partition take context k's stream words, with the bits that a bond has changed on the way (R144 to R147). -/
def Dev.fillShadow (d : Dev) (p k : Nat) (bonds : List (CfgLoc × Nat × Nat × BitVec 4)) : Dev :=
  let words := (d.running p).flatMap fun n => (d.configured n k).map fun key => (latchKey n (keyClod key) (keyGrain key), d.streamWord key)
  let t := bonds.foldl (fun t (x : CfgLoc × Nat × Nat × BitVec 4) =>
    if (d.running p).contains x.1.plot ∧ x.1.clod < 1024 ∧ x.1.grain < 64 ∧ x.2.1 < 4 ∧ x.2.2.1 < 16 then
      latchUpset t (latchKey x.1.plot x.1.clod x.1.grain) ((x.2.2.2 : BitVec 4).setWidth 256 <<< bondBits x.2.1 x.2.2.1)
    else t) (d.refillLatches p d.fab.shadow words)
  { d with fab := { d.fab with shadow := t } }

/-- The swap: the shadow latches of a partition's running plots go into the active ones (R144). -/
def Dev.swapLatches (d : Dev) (p : Nat) : Dev :=
  { d with fab := { d.fab with
      active := d.refillLatches p d.fab.active (d.fab.shadow.filter fun e => (d.running p).contains (e.1 / 65536)) } }

/-- Bits of active latches of a partition's running plots change. -/
def Dev.upsetActive (d : Dev) (p : Nat) (l : List (CfgLoc × BitVec 256)) : Dev :=
  l.foldl (fun e x =>
    if (e.running p).contains x.1.plot ∧ x.1.clod < 1024 ∧ x.1.grain < 64 then
      { e with fab := { e.fab with active := latchUpset e.fab.active (latchKey x.1.plot x.1.clod x.1.grain) x.2 } }
    else e) d

/-- Keys of the latches of a partition's running plots whose parity disagrees. -/
def Dev.wrongLatches (d : Dev) (p : Nat) (t : Tab (BitVec 256)) : List Nat :=
  (t.filter fun e => (d.running p).contains (e.1 / 65536) && latchWrong e.2).map (·.1)

/-- A configuration fault's detail (R564). -/
def cfgDetail (n k c g kind : Nat) : Nat := n * 2 ^ 23 + k * 2 ^ 20 + c * 2 ^ 10 + g * 2 ^ 4 + kind

/-- Detail of a latch's fault, by its key. -/
def latchDetail (key k kind : Nat) : Nat := cfgDetail (key / 65536) k (key / 64 % 1024) (key % 64) kind

/-! ## State slots -/

/-- Stored bits of state slots of a partition's plots change, values or parity (R152). -/
def Dev.upsetSlots (d : Dev) (p : Nat) (l : List (CfgLoc × BitVec 6)) : Dev :=
  l.foldl (fun e x =>
    if onTier x.1 ∧ (e.plot x.1.plot).part = p then
      let v := tget e.fab.slots (wordKey x.1) 0 ^^^ x.2
      { e with fab := { e.fab with slots := if v = 0 then tdel e.fab.slots (wordKey x.1) else tset e.fab.slots (wordKey x.1) v } }
    else e) d

/-- The parity of the slots of some contexts of a partition's running or frozen plots is checked: each that disagrees faults the design
cycle (R152, R169). -/
def Dev.checkSlots (d : Dev) (p : Nat) (ctx : Nat → Bool) : Dev :=
  let mine := (d.plotsOf p).filter fun n => (d.plot n).inDesign
  (d.fab.slots.filter fun e => mine.contains (keyPlot e.1) && ctx (keyCtx e.1)).foldl (fun e x => match slotWrong x.2 with
    | some kind => e.faultCycle p 0x0803 (cfgDetail (keyPlot x.1) (keyCtx x.1) (keyClod x.1) (keyGrain x.1) kind) (some (keyPlot x.1)) false
    | none => e) d

/-! ## Refresh (R174 to R176) -/

/-- The gray code of an 8-bit count. -/
def gray (x : BitVec 8) : BitVec 8 := x ^^^ (x >>> 1)

/-- The count of a gray code. -/
def ungray (x : BitVec 8) : BitVec 8 :=
  let a := x ^^^ (x >>> 1)
  let b := a ^^^ (a >>> 2)
  b ^^^ (b >>> 4)

end Sys2Proof.Machine
end

