-- ==== Sys2Proof/Machine/MemOps.lean ====
section
/-! DEFINITION. Memory through the IME (R376, R394, R395, R406, R407), memory models wherever they lie (R211, R361, R366), the
journal (R369 to R373), and snapshot areas (R514 to R519). -/
namespace Sys2Proof.Machine
open Host

/-! ## Writes through the IME -/

/-- A write of a line under a VERIFIED KeyID advances the line's minor counter; at 127 the page is re-encrypted under the
next major counter, and with that exhausted the device seals (R394, R395). -/
def Dev.advanceLine (d : Dev) (line : Nat) : Dev :=
  let a := 64 * line
  let c := d.classOf a - 7
  let off := a - (d.chan c).base * 2 ^ 26
  let key := c * 2 ^ 32 + off / 4096
  let i := off / 64 % 64
  let x := tget d.ime.counters key {}
  if tget x.minors i 0 < 127 then
    let e := (d.lookups a 64).1.dirtyLine a
    { e with ime := { e.ime with counters := tset e.ime.counters key { x with minors := tupd x.minors i 0 (· + 1) } } }
  else if x.major + 1 = 2 ^ 64 then d.sealHalt 0x0404 (addrDetail a) (d.stopOf a)
  else
    let page := a / 4096 * 4096
    let e := forAll (span 0 64) ((d.lookups a 64).1.lookups page 4096).1 fun y n => y.dirtyLine (page + 64 * n)
    { e with ime := { e.ime with
        counters := tset e.ime.counters key { major := x.major + 1, minors := [] }, reenc := sat1 e.ime.reenc } }

/-- The bytes of a write that fall into one line. -/
def linePiece (a : Nat) (l : List Byte) (line : Nat) : Nat × List Byte :=
  let lo := max a (64 * line)
  (lo, (l.drop (lo - a)).take (64 * line + 64 - lo))

/-- What goes on only while the device is not sealed: a seal halt ends everything in progress (R418). -/
def Dev.ifOpen (d : Dev) (f : Dev → Dev) : Dev := if d.ime.sealed then d else f d

/-- Bytes written at a system address under a KeyID. Under a VERIFIED one each line's counter advances before the line is
written (R393, R406), and a seal halt ends the writing (R395, R418). -/
def Dev.memStore (d : Dev) (k a : Nat) (l : List Byte) : Dev :=
  if d.ime.sealed then d
  else if (d.keyid k).mode = .verified ∧ a < marlBase ∧ !l.isEmpty then
    (span (a / 64) ((a + l.length - 1) / 64 - a / 64 + 1)).foldl (fun e line =>
      if e.ime.sealed then e
      else
        let f := e.advanceLine line
        if f.ime.sealed then f
        else
          let x := linePiece a l line
          f.memWrite k x.1 x.2) d
  else d.memWrite k a l

/-- The reads that a write makes first: each line that it covers in part, and under a VERIFIED KeyID the counter block and MAC-area line of
a whole one (R376, R406 step 1, R407). -/
def Dev.lookWrite (d : Dev) (k a n : Nat) (rd : ReadOutcome) : Looked :=
  match partialLines a n with
  | l :: r => match d.look k (64 * l) 64 rd true with
    | .good e => match r with
      | m :: _ => e.look k (64 * m) 64 .clean true
      | [] => .good e
    | x => x
  | [] =>
    if (d.keyid k).mode = .verified then
      let t := d.lookups a n
      let found := t.1.bearing rd a t.2
      match d.sealCause found a with
      | some (code, detail) => .halt ((d.logMeta found a).sealHalt code detail (d.stopOf a))
      | none =>
        let e := d.countMeta found a
        match e.macLineBad found a with
        | some (y, b) => .bad e y b
        | none => .good e
    else .good d

/-- A write with the outcome of its way to memory and of the reads it makes there (R376, R406, R407, R424, R425): what becomes of the
device, and where and why the bytes were discarded, if they were. The line then stands unchanged, with event 0x0318 for what a read
found; data that disagree with their carry code count, and their event 0x0424 is the requester's to post. -/
def Dev.memStoreChecked (d : Dev) (k a : Nat) (l : List Byte) (rd : ReadOutcome) : Dev × Option (Nat × Bad) :=
  match rd with
  | .moved c =>
    if carryWrong c then ({ d with ime := { d.ime with ccMemory := sat1 d.ime.ccMemory } }, some (a, .moved)) else (d.memStore k a l, none)
  | .abort => (d, some (a, .abort))
  | _ => match d.lookWrite k a l.length rd with
    | .halt e => (e, none)
    | .bad e y b => ((e.noteBad b y).postSrc 0x0318 (addrDetail y) 0 (d.stopOf a), some (y, b))
    | .good e => (e.memStore k a l, none)

/-- A whole line is written as poisoned (R377). -/
def Dev.storePoisoned (d : Dev) (k line : Nat) (l : List Byte) : Dev :=
  (d.memStore k (64 * line) l).ifOpen fun e =>
    { e with mem := { e.mem with poison := if e.mem.poison.contains line then e.mem.poison else line :: e.mem.poison } }

/-! ## Reads of several ranges -/

/-- Bytes from the start of a read to what its outcome is about. -/
def outcomeAt : ReadOutcome → Nat
  | .upset w _ => 8 * w
  | .carry l _ | .mac l _ | .macUpset l _ | .tree l _ _ _ | .treeUpset l _ _ _ | .root l _ _ _ => 64 * l
  | .clean | .moved _ | .cache _ _ _ | .abort => 0

/-- The outcome of a read as the rest of it sees it, `n` lines on. -/
def outcomePast (rd : ReadOutcome) (n : Nat) : ReadOutcome :=
  match rd with
  | .upset w c => .upset (w - 8 * n) c
  | .carry l c => .carry (l - n) c
  | .mac l c => .mac (l - n) c
  | .macUpset l c => .macUpset (l - n) c
  | .tree l v i c => .tree (l - n) v i c
  | .treeUpset l v i c => .treeUpset (l - n) v i c
  | .root l x y z => .root (l - n) x y z
  | .clean | .moved _ | .cache _ _ _ | .abort => rd

/-- A read of ranges one after another, each a KeyID, an address and a length: the outcome is about the range at its place. -/
def Dev.lookAll (d : Dev) : List (Nat × Nat × Nat) → ReadOutcome → Looked
  | [], _ => .good d
  | (k, a, n) :: r, rd =>
    let here := decide (outcomeAt rd < n)
    match d.look k a n (if here then rd else .clean) false with
    | .good e => e.lookAll r (if here then .clean else outcomePast rd ((n + 63) / 64))
    | x => x

/-- A read of a line by a device operation, or a rewind, has failed: its log and its event 0x0315, or 0x0311 under BUSERR
(R380). -/
def Dev.opReadBad (d : Dev) (b : Bad) (a part : Nat) : Dev :=
  (d.noteBad b a).postSrc (if d.busErr (d.classOf a) then 0x0311 else 0x0315) (addrDetail a) part (d.stopOf a)

/-- Reads that an operation makes under KeyIDs, one range after another, each a KeyID, an address and a length: what the IME refuses comes
first (R387, R403), then what the reads find (R380, R405); `fail` takes the line that failed, and a seal halt ends it all (R418). -/
def Dev.readFor (d : Dev) (l : List (Nat × Nat × Nat)) (rd : ReadOutcome) (part : Nat) (fail : Dev → Nat → Dev) (body : Dev → Dev) : Dev :=
  match l.findSome? fun x => (d.refuse 0 x.1 x.2.1 x.2.2 false).map fun r => (r, x.1, x.2.1) with
  | some x => fail (d.postRefuse x.1 0 x.2.1 x.2.2 false 1) x.2.2
  | none => match d.lookAll l rd with
    | .halt e => e
    | .bad e y b => fail (e.opReadBad b y part) y
    | .good e => body e

/-! ## Lines and rows moved -/

/-- An operation's write of whole lines, with the outcome of one of them: the lines before it stay written (R317). Answered is where and why it
ended there, if it did; data that disagree with their carry code post event 0x0424 (R425). -/
def Dev.storeFor (d : Dev) (k a : Nat) (l : List Byte) (rd : ReadOutcome) : Dev × Option (Nat × Bad) :=
  let h := outcomeAt rd / 64 * 64
  if rd = .clean ∨ l.length ≤ h then (d.memStore k a l, none)
  else
    let r := (d.memStore k a (l.take h)).memStoreChecked k (a + h) ((l.drop h).take 64) (outcomePast rd (h / 64))
    match r.2 with
    | none => (r.1.ifOpen fun e => e.memStore k (a + h + 64) (l.drop (h + 64)), none)
    | some (y, .moved) => (r.1.postSrc 0x0424 (addrDetail y) 0 (d.stopOf y), some (y, .moved))
    | some x => (r.1, some x)

/-- `n` lines read for a move, each with whether it goes on as poisoned, up to one that ends the move: under REQUESTER one that cannot be used,
under BUSERR only one that did not arrive (R380, R425, R453). -/
def Dev.readLines (d : Dev) (k a part : Nat) (rd : ReadOutcome) : Nat → Dev × List (List Byte × Bool) × Option Nat
  | 0 => (d, [], none)
  | n + 1 =>
    let next := outcomePast rd 1
    match d.look k a 64 (if outcomeAt rd < 64 then rd else .clean) false with
    | .halt e => (e, [], some a)
    | .good e =>
      let r := e.readLines k (a + 64) part (if outcomeAt rd < 64 then .clean else next) n
      (r.1, (e.memRead k a 64, false) :: r.2.1, r.2.2)
    | .bad e y .moved =>
      ({ e with ime := { e.ime with ccMemory := sat1 e.ime.ccMemory } }.postSrc 0x0424 (addrDetail y) part (e.stopOf y), [], some a)
    | .bad e y b =>
      let f := e.opReadBad b y part
      if b ≠ .abort ∧ d.busErr (d.classOf a) then
        let r := f.readLines k (a + 64) part (if outcomeAt rd < 64 then .clean else next) n
        (r.1, (f.memRead k a 64, true) :: r.2.1, r.2.2)
      else (f, [], some a)

/-- Lines written one after another, poisoned ones as such (R377, R380). -/
def Dev.writeLines (d : Dev) (k : Nat) : Nat → List (List Byte × Bool) → Dev
  | _, [] => d
  | a, x :: r => (if x.2 then d.storePoisoned k (a / 64) x.1 else d.memStore k a x.1).writeLines k (a + 64) r

/-- The row port of a marl address: its tower and pseudo-channel (R342, R346). -/
def rowPort (a : Nat) : Nat × Nat := ((a - marlBase) / towerSize, bits ((a - marlBase) % towerSize) 10 5)

/-- A row move between a bank and a row buffer counts in its tower; an address in DDR5 makes none (R346, R385). -/
def Dev.countRow (d : Dev) (a : Nat) : Dev :=
  if marlBase ≤ a then d.updTower (rowPort a).1 fun t => { t with rowMoves := sat1 t.rowMoves } else d

/-- The row buffer that stages a row on its way from `s` to `t`: the first one of the pseudo-channel of its marl end (R319, R346; log 129). -/
def stagePort (s t : Nat) : Nat × Nat := if marlBase ≤ s then rowPort s else if marlBase ≤ t then rowPort t else (0, 0)

/-- A row buffer takes plaintext data with their carry codes (R346). -/
def Dev.stage (d : Dev) (at_ : Nat × Nat) (l : List Byte) : Dev :=
  d.updTower at_.1 fun t => { t with rowBufs := tset t.rowBufs (4 * at_.2) { data := l, codes := codesOf l } }

/-- One unit of 1 KiB moved through a row buffer: read and decrypted under the source's KeyID, written and encrypted under the destination's
(R216, R319, R346). Answered is the line of the source that ended the move, if one did; those before it are written (R317). -/
def Dev.moveRow (d : Dev) (ks s kd t part who : Nat) (rd : ReadOutcome) : Dev × Option Nat :=
  let r := (d.served 49 who).readLines ks s part rd 16
  (r.1.ifOpen fun e => (((e.countRow s).stage (stagePort s t) (r.2.1.flatMap (·.1))).countRow t).writeLines kd t r.2.1, r.2.2)

/-- `n` units of 1 KiB moved, up to one that ends the move. -/
def Dev.moveRows (d : Dev) (ks s kd t part who : Nat) (rd : ReadOutcome) : Nat → Dev × Option Nat
  | 0 => (d, none)
  | n + 1 =>
    let here := decide (outcomeAt rd < 1024)
    let r := d.moveRow ks s kd t part who (if here then rd else .clean)
    match r.2 with
    | some y => (r.1, some y)
    | none => r.1.moveRows ks (s + 1024) kd (t + 1024) part who (if here then .clean else outcomePast rd 16) n

/-! ## Memory models -/

/-- A model of a partition by number. -/
def Part.model (q : Part) (m : Nat) : Option ModelAt :=
  match q.placement with
  | some pl => pl.models.find? fun x => decide (x.model = m)
  | none => none

/-- A partition's models changed. -/
def Part.updModels (q : Part) (f : ModelAt → ModelAt) : Part :=
  { q with placement := q.placement.map fun pl => { pl with models := pl.models.map f } }

/-- Row key of a byte of a model in block memory (R211): its blocks in order, rows of 8 bytes. -/
def Dev.modelRow (d : Dev) (p : Nat) (x : ModelAt) (off : Nat) : Option Nat :=
  match x.blocks[off / 8192]? with
  | some (l, j) => (d.physical p l).map fun n => rowKey n j (off % 8192 / 8)
  | none => none

/-- A byte of a row's data. -/
def rowByte (v : BitVec 64) (i : Nat) : Byte := (v >>> (8 * i)).setWidth 8

/-- Data of a row that is kept as codewords, as a read corrects them (R128, R338). -/
def Dev.rowRead (d : Dev) (key : Nat) : BitVec 64 := (readCode (rowLoc key) (d.rowWord key (d.row key))).2

/-- `n` bytes of a model as it stands (R366). -/
def Dev.modelBytes (d : Dev) (p : Nat) (x : ModelAt) (off n : Nat) : List Byte :=
  if x.tier = 1 then
    (span off n).map fun o => match d.modelRow p x o with
      | some key => rowByte (d.rowRead key) (o % 8)
      | none => 0
  else d.memRead x.keyid (x.addrAt off) n

/-- A byte of a block-memory row written, as a codeword. -/
def Dev.setRowByte (d : Dev) (key i : Nat) (b : Byte) : Dev :=
  let m : BitVec 64 := 0xFF#64 <<< (8 * i)
  d.codeRow key ((d.rowRead key &&& ~~~m) ||| (b.setWidth 64 <<< (8 * i)))

/-- Bytes of a model in block memory written, from offset `off`. -/
def Dev.setRowBytes (d : Dev) (p : Nat) (x : ModelAt) (off : Nat) : List Byte → Dev
  | [] => d
  | b :: r =>
    let e := match d.modelRow p x off with
      | some key => d.setRowByte key (off % 8) b
      | none => d
    e.setRowBytes p x (off + 1) r

/-! ## Page sampling (R215) -/

/-- Set of a page number: the exclusive OR of its four 8-bit fields. -/
def pageSet (page : Nat) : Nat := bits page 0 8 ^^^ bits page 8 8 ^^^ bits page 16 8 ^^^ bits page 24 8

/-- The entry of a set that a sample of a page uses: the one that holds it, else the one with the lowest count, the lowest-numbered of
them. -/
def pageEntry (t : Tab (Nat × Nat)) (base page : Nat) : Nat :=
  match (span base 16).find? fun i => t.any fun e => decide (e.1 = i) && decide (e.2.1 = page) with
  | some i => i
  | none => (span base 16).foldl (fun low i => if (tget t i (0, 0)).2 < (tget t low (0, 0)).2 then i else low) base

/-- A channel's table after a sample of a page. -/
def samplePage (t : Tab (Nat × Nat)) (c page : Nat) : Tab (Nat × Nat) :=
  let i := pageEntry t (4096 * c + 16 * pageSet page) page
  let old := tget t i (0, 0)
  tset t i (page, if old.1 = page then min 65535 (old.2 + 1) else 1)

/-- An access of the design to a model in DDR5 that allows migration, at its front end: one in 16 is sampled (log 127). -/
def Dev.sampleAccess (d : Dev) (p : Nat) (x : ModelAt) (off : Nat) : Dev :=
  if (d.part p).migr.en ∧ x.inDdr off ∧ !x.nomigr then
    let a := x.addrAt off
    let c := (d.physAt a).1
    let n := tget d.plc.sampled c 0 + 1
    if n < 16 then { d with plc := { d.plc with sampled := tset d.plc.sampled c n } }
    else { d with plc := { d.plc with sampled := tset d.plc.sampled c 0, pages := samplePage d.plc.pages c (a / 4096) } }
  else d

/-- The page of a model that a page number names: (model, page). -/
def Part.pageOf (q : Part) (page : Nat) : Option (Nat × Nat) :=
  (q.placement.bind fun pl => pl.models.find? fun x =>
    decide (x.tier = 3) && decide (x.base ≤ 4096 * page) && decide (4096 * page < x.base + x.size)).map fun x => (x.model, page - x.base / 4096)

/-- The counts of a partition's pages: (model, page, count). -/
def Dev.pageCountsOf (d : Dev) (p : Nat) : List (Nat × Nat × Nat) :=
  d.plc.pages.filterMap fun e => if e.2.2 = 0 then none else ((d.part p).pageOf e.2.1).map fun x => (x.1, x.2, e.2.2)

/-! ## The journal -/

/-- KeyID of slot s of a partition's set, 0 when empty. -/
def Part.keyAt (q : Part) (s : Nat) : Nat := q.keys.getD s 0

/-- The journalled models in DDR5 of a placement (R372, R373). -/
def Part.journalled (q : Part) : List ModelAt :=
  match q.placement with
  | some pl => pl.models.filter fun x => x.journal && decide (x.tier = 3)
  | none => []

/-- Headroom H of a partition's journal, with MAX_PAGES as its period took it; above 64 it acts as 64 (R220, R372). -/
def Dev.headroom (d : Dev) (p : Nat) : Nat :=
  128 * (16 * ((d.part p).journalled.foldl (fun n x => n + x.ports) 0) + 64 * min 64 (d.part p).migr.maxPages.toNat)

/-- A journal record of 128 bytes (R371). -/
def journalRecord (model line cycle : Nat) (data : List Byte) : List Byte :=
  leBytes 2 model ++ leBytes 2 0 ++ leBytes 4 line ++ leBytes 8 cycle ++ leBytes 48 0 ++ data.take 64

/-- The old content of one line of a journalled model is recorded, once an epoch (R370). Where that content cannot be read, event 0x0315
reports it and the record's data are stored as poisoned, so that a rewind finds a record it cannot read (R373, R377; log 125). A record
without room is not written: the freeze of R372 came before it. -/
def Dev.journalLine (d : Dev) (p : Nat) (x : ModelAt) (line : Nat) : Dev :=
  let q := d.part p
  match q.placement.bind (·.jrnl) with
  | some (base, size) =>
    if q.jLines.contains (x.model, line) ∨ size < q.jUsed + 128 then d
    else
      let a := x.addrAt (64 * line)
      let at_ := base + q.jUsed
      let rec_ := journalRecord x.model line q.cycle.toNat (d.memRead x.keyid a 64)
      let d1 := match d.look x.keyid a 64 .clean false with
        | .halt e => e
        | .good e => e.memStore (q.keyAt 0) at_ rec_
        | .bad e y b => (((e.noteBad b y).postSrc 0x0315 (addrDetail y) p (d.stopOf y)).memStore (q.keyAt 0) at_ (rec_.take 64)).ifOpen
            fun f => f.storePoisoned (q.keyAt 0) (at_ / 64 + 1) (leBytes 64 0)
      d1.ifOpen fun e => e.updPart p fun q => { q with jUsed := q.jUsed + 128, jLines := (x.model, line) :: q.jLines }
  | none => d

/-- The lines of a journalled model's range that lie in DDR5 are recorded before a write of the design (R370). -/
def Dev.journalRange (d : Dev) (p : Nat) (x : ModelAt) (off n : Nat) : Dev :=
  if x.journal ∧ x.inDdr off then
    (span (off / 64) ((off + n - 1) / 64 - off / 64 + 1)).foldl (fun e l => e.journalLine p x l) d
  else d

/-- Free space of the journal below H: FULL with event 0x0330 once, and a freeze at the next boundary, at every boundary until a
snapshot clears FULL, so that the journal never overflows (R372). -/
def Dev.journalCheck (d : Dev) (p : Nat) : Dev :=
  let q := d.part p
  match q.placement.bind (·.jrnl) with
  | some (_, size) =>
    if !d.ime.sealed && decide (size < q.jUsed + d.headroom p) then
      let d1 := if q.jFull then d else (d.updPart p fun q => { q with jFull := true }).post 0x0330 (q.jUsed / 1024) p
      if q.freeze.contains .journal then d1 else d1.addFreeze p .journal
    else d
  | none => d

/-- The journal is emptied: a capture starts an epoch; lines then in marl are with the snapshot (R370, R372). -/
def Dev.journalClear (d : Dev) (p : Nat) : Dev :=
  d.updPart p fun q => { q with
    jUsed := 0, jFull := false,
    jLines := (match q.placement with
      | some pl => pl.models.flatMap fun x => x.pages.flatMap fun e => (span (64 * e.1) 64).map fun l => (x.model, l)
      | none => []) }

/-- The stop of the fabric that a model's accesses leave from. -/
def Dev.modelStop (d : Dev) (p : Nat) (x : ModelAt) : Nat :=
  match x.carriers.head? with
  | some (lp, _) => loamStop ((d.physical p lp).getD 0)
  | none => 17

/-- A model's bytes written for the design: block memory at once, marl and DDR5 through the IME after any journal record
(R366, R370, R393). A write that granule binding or the KeyID refuses is discarded (R403, R412). One that is discarded for what a read
found meets its class's UE policy (R376, R380, R406, R407); one that disagrees with its carry code, or that a disable or a watchdog
aborts, faults the design cycle (R425, R453; log 124). -/
def Dev.modelWrite (d : Dev) (p : Nat) (x : ModelAt) (off : Nat) (l : List Byte) (rd : ReadOutcome) : Dev :=
  if x.tier = 1 then d.setRowBytes p x off l
  else
    let a := x.addrAt off
    match d.refuse 0 x.keyid a l.length true with
    | some r => d.postRefuse r (67 + d.modelStop p x) x.keyid a true (d.modelStop p x)
    | none =>
      let r := ((d.sampleAccess p x off).journalRange p x off l.length).memStoreChecked x.keyid a l rd
      match r.2 with
      | none => r.1
      | some (y, .moved) => r.1.faultCycle p 0x0424 (addrDetail y) none false (d.stopOf y)
      | some (y, .abort) => r.1.faultCycle p 0x0310 (addrDetail y) none false (d.stopOf y)
      | some (y, _) =>
        if d.busErr (d.classOf y) then r.1.postSrc 0x0311 (addrDetail y) p (d.stopOf y)
        else r.1.faultCycle p 0x0310 (addrDetail y) none true (d.stopOf y)

/-- Journal records of the epoch, as read back: (model, line, data) (R371). -/
def Dev.journalRecords (d : Dev) (p : Nat) : List (Nat × Nat × List Byte) :=
  let q := d.part p
  match q.placement.bind (·.jrnl) with
  | some (base, _) => (span 0 (q.jUsed / 128)).map fun i =>
      let r := d.memRead (q.keyAt 0) (base + 128 * i) 128
      (leNat (r.take 2), leNat ((r.drop 4).take 4), (r.drop 64).take 64)
  | none => []

/-- Every journal record of the epoch is written back to its line's current place (R373, R519 step 1). -/
def Dev.journalRestore (d : Dev) (p : Nat) : Dev :=
  (d.journalRecords p).foldl (fun e r =>
    match (e.part p).model r.1 with
    | some x => e.memStore x.keyid (x.addrAt (64 * r.2.1)) r.2.2
    | none => e) d

/-! ## Snapshot areas -/

/-- IN bindings of a partition in slot order of their numbers (R488). -/
def Dev.inBindings (d : Dev) (p : Nat) : List (Nat × Binding) :=
  if (d.part p).cut then (d.bindings p).filter fun e => e.2.inb && !e.2.marker else []

/-- Models in marl in MODEL order (R515). -/
def Part.marlModels (q : Part) : List ModelAt :=
  match q.placement with
  | some pl => (span 0 1024).filterMap fun m => pl.models.find? fun x => decide (x.model = m) && decide (x.tier = 2)
  | none => []

/-- Promoted pages: (model, page, address) (R515). -/
def Part.promotedPages (q : Part) : List (ModelAt × Nat × Nat) :=
  match q.placement with
  | some pl => pl.models.flatMap fun x => x.pages.map fun e => (x, e.1, e.2)
  | none => []

/-- Sizes of STATE, BMEM, MODELS, PAGES and CUTIN (R515). -/
def Dev.snapSizes (d : Dev) (p : Nat) : List Nat :=
  let q := d.part p
  [q.plots * ctxCount q.ctx * 32768, q.plots * 262144,
   q.marlModels.foldl (fun n x => n + roundUp x.size 4096) 0, q.promotedPages.length * 4160,
   (d.inBindings p).length * 32]

/-- Offsets of the five sections in the area, each at a 4 KiB boundary after the header (R515), then the end. -/
def sectionOffsets (at_ : Nat) : List Nat → List Nat
  | [] => [at_]
  | n :: r => at_ :: sectionOffsets (at_ + roundUp n 4096) r

/-- Bytes of a snapshot area (R514, R524 NEED_KIB). -/
def Dev.snapNeed (d : Dev) (p : Nat) : Nat :=
  if (d.part p).placement.isSome then (sectionOffsets 4096 (d.snapSizes p)).getLastD 0 else 0

/-- Bytes of eight flags each. -/
def packBits : Nat → (Nat → Bool) → Nat → List Byte
  | 0, _, _ => []
  | n + 1, f, i =>
    BitVec.ofNat 8 ((span 0 8).foldl (fun acc j => acc + b2n (f (8 * i + j)) * 2 ^ j) 0) :: packBits n f (i + 1)

/-- STATE of a partition (R515). -/
def Dev.stateSection (d : Dev) (p : Nat) : List Byte :=
  let q := d.part p
  (span 0 q.plots).flatMap fun l =>
    let n := (d.physical p l).getD 512
    (span 0 (ctxCount q.ctx)).flatMap fun k =>
      (span 0 4).flatMap fun plane => packBits 8192 (fun i => (d.slotBits (grainKey n k (i / 64) (i % 64))).getLsbD plane) 0

/-- BMEM of a partition (R515). -/
def Dev.bmemSection (d : Dev) (p : Nat) : List Byte :=
  (span 0 (d.part p).plots).flatMap fun l =>
    let n := (d.physical p l).getD 512
    (span 0 32768).flatMap fun i => leBytes 8 (d.rowData (n * 32768 + i)).toNat

/-- MODELS of a partition (R515). -/
def Dev.modelsSection (d : Dev) (p : Nat) : List Byte :=
  (d.part p).marlModels.flatMap fun x =>
    d.modelBytes p x 0 x.size ++ leBytes (roundUp x.size 4096 - x.size) 0

/-- PAGES of a partition (R515). -/
def Dev.pagesSection (d : Dev) (p : Nat) : List Byte :=
  (d.part p).promotedPages.flatMap fun e =>
    leBytes 2 e.1.model ++ leBytes 2 0 ++ leBytes 4 e.2.1 ++ leBytes 56 0 ++ d.memRead e.1.keyid e.2.2 4096

/-- CUTIN of a partition (R515). -/
def Dev.cutinSection (d : Dev) (p : Nat) : List Byte :=
  (d.inBindings p).flatMap fun e =>
    leBytes 1 e.2.peer ++ leBytes 1 e.2.peerPart ++ leBytes 1 e.2.round ++ leBytes 2 e.2.slot ++ leBytes 11 0 ++
      leBytes 16 (tget (d.part p).eng.cutIn e.1 0).toNat

/-- The header of a snapshot area (R515), with STATUS. -/
def Dev.snapHeader (d : Dev) (p seq cycle serial stat : Nat) : List Byte :=
  let q := d.part p
  let sizes := d.snapSizes p
  let offs := sectionOffsets 4096 sizes
  leBytes 4 0x4E535A56 ++ leBytes 2 1 ++ leBytes 1 stat ++ leBytes 1 q.ctx ++ leBytes 1 p ++ leBytes 1 0 ++
    leBytes 2 q.plots ++ leBytes 4 0 ++ leBytes 8 cycle ++ leBytes 8 seq ++ leBytes 8 serial ++ leBytes 32 q.root.toNat ++
    (span 0 5).flatMap (fun i => leBytes 8 (offs.getD i 0) ++ leBytes 8 (sizes.getD i 0)) ++ leBytes 3944 0

/-- An area for a snapshot may be used (R514): aligned, within the marl allocation, clear of marl models, promoted pages, the
journal and captures in progress. -/
def Dev.snapAreaOk (d : Dev) (p a : Nat) : Bool :=
  let q := d.part p
  let n := d.snapNeed p
  let x := a % 2 ^ 48
  decide (x % 2 ^ 20 = 0) && decide (0 < n) &&
  (match q.marl with | some (b, m) => within x n b m | none => false) &&
  !(q.marlModels.any fun y => meets x n y.base y.size) &&
  !(q.promotedPages.any fun e => meets x n e.2.2 4096) &&
  !(match q.placement.bind (·.jrnl) with | some (b, m) => meets x n b m | none => false) &&
  !(q.capture.any fun c => meets x n (c.addr % 2 ^ 48) c.size)

/-- The row moves of a capture or rewind, by the sizes of its sections: a row of STATE or BMEM takes one between a row buffer and its bank,
a row of MODELS or PAGES one out of its bank and one into it; each row is a grant of the row-move engine to `who`, a trip's capture to
none (R457, R458, R517, R519; log 142). -/
def Dev.snapRows (d : Dev) (who addr : Nat) (sizes : List Nat) : Dev :=
  let rows (i : Nat) : Nat := (sizes.getD i 0 + 1023) / 1024
  let one := rows 0 + rows 1
  let two := rows 2 + rows 3
  let e := if 66 < who then d else (span 0 (one + two)).foldl (fun e _ => e.served 49 who) d
  e.updTower (rowPort (addr % 2 ^ 48)).1 fun t => { t with rowMoves := satAdd t.rowMoves (one + 2 * two) }

/-- A capture starts (R515 to R517): STATUS 0 first, then everything but the final STATUS; the capture count advances and
every earlier snapshot in the area, or with a journal every earlier one, is invalid, so that the last of the others is the last snapshot
(R315, R373); a journal epoch begins (R370). -/
def Dev.captureStart (d : Dev) (serial p : Nat) (x : Snap) : Dev :=
  let q := d.part p
  let k := x.addr / 2 ^ 48
  let a := x.addr % 2 ^ 48
  let n := d.snapNeed p
  let seq := q.capSeq + 1
  let offs := sectionOffsets 4096 (d.snapSizes p)
  let d0 := d.snapRows (if x.thread ≤ 64 then x.thread else 67) x.addr (d.snapSizes p)
  let d1 := d0.memStore k a (d.snapHeader p seq q.cycle.toNat serial 0)
  let d2 := d1.memStore k (a + offs.getD 0 0) (d.stateSection p)
  let d3 := d2.memStore k (a + offs.getD 1 0) (d.bmemSection p)
  let d4 := d3.memStore k (a + offs.getD 2 0) (d.modelsSection p)
  let d5 := d4.memStore k (a + offs.getD 3 0) (d.pagesSection p)
  let r := d5.memStoreChecked k (a + offs.getD 4 0) (d.cutinSection p) .clean
  r.1.ifOpen fun d6 => (d6.updPart p fun q =>
    let left := if q.journalled.isEmpty then q.snaps.filter fun y => !meets (y.addr % 2 ^ 48) y.size a n else []
    { q with capSeq := seq, snaps := left, lastSnap := left.head?,
             capture := q.capture ++ [{ x with seq := seq, cycle := q.cycle.toNat, size := n, bad := r.2.map (·.1) }] }).journalClear p

/-- The ranges of marl that a capture reads, with their KeyIDs: MODELS, then the pages of PAGES (R515, R517). -/
def Dev.snapReads (d : Dev) (p : Nat) : List (Nat × Nat × Nat) :=
  (d.part p).marlModels.map (fun x => (x.keyid, x.base, x.size)) ++
    (d.part p).promotedPages.map fun e => (e.1.keyid, e.2.2, 4096)

/-- What the IME refuses a capture: its area as written under its KeyID, or a range that it reads; the KeyID, the address, and
whether it is the write (R387, R403, R412, R415). -/
def Dev.snapRefused (d : Dev) (p addr : Nat) : Option (Refuse × Nat × Nat × Bool) :=
  let k := addr / 2 ^ 48
  let a := addr % 2 ^ 48
  match d.refuse 0 k a (d.snapNeed p) true with
  | some r => some (r, k, a, true)
  | none => (d.snapReads p).findSome? fun y => (d.refuse 0 y.1 y.2.1 y.2.2 false).map fun r => (r, y.1, y.2.1, false)

/-- A SNAP request is taken up: refused with 0x0C05 when its area may not be used, ended with 0x0915 where the row-move engine has
quarantined its thread and with 0x0916 where the IME refuses an access of it, else its capture starts (R403, R462, R514). -/
def Dev.takeSnap (d : Dev) (serial p : Nat) (x : Snap) : Dev :=
  if d.snapAreaOk p x.addr then
    if (d.arb 49 x.thread).quar then (d.refuseQuar 49 x.thread).complete x.thread x.slot 0x0915 0 else
    match d.snapRefused p x.addr with
    | some y => (d.postRefuse y.1 0 y.2.1 y.2.2.1 y.2.2.2 1).complete x.thread x.slot 0x0916 (addrDetail y.2.2.1)
    | none => d.captureStart serial p x
  else (d.post 0x0C05 (addrDetail (x.addr % 2 ^ 48)) p).complete x.thread x.slot 0x0C05 0

/-- The snapshots of a partition become invalid (R315). -/
def Dev.invalidateSnaps (d : Dev) (p : Nat) : Dev :=
  d.updPart p fun q => { q with invSeq := q.capSeq, snaps := [], lastSnap := none }

/-- A field of an area's header. -/
def Dev.snapField (d : Dev) (addr off n : Nat) : Nat := leNat (d.memRead (addr / 2 ^ 48) (addr % 2 ^ 48 + off) n)

/-- The area holds a valid snapshot of the partition (R516, R373). -/
def Dev.snapValid (d : Dev) (serial p addr : Nat) : Bool :=
  let q := d.part p
  let seq := d.snapField addr 0x18 8
  decide (d.snapField addr 0 4 = 0x4E535A56) && decide (d.snapField addr 4 2 = 1) &&
  decide (d.snapField addr 6 1 = 1) && decide (d.snapField addr 8 1 = p) &&
  decide (d.snapField addr 0x20 8 = serial) && decide (d.snapField addr 0x28 32 = q.root.toNat) &&
  decide (q.invSeq < seq) && (q.journalled.isEmpty || decide (seq = q.capSeq))

/-- The ranges that a rewind reads: the area, and the records of the epoch (R316, R373). -/
def Dev.rewindReads (d : Dev) (p addr : Nat) : List (Nat × Nat × Nat) :=
  let q := d.part p
  (addr / 2 ^ 48, addr % 2 ^ 48, d.snapNeed p) ::
    (match q.placement.bind (·.jrnl) with
      | some (base, _) => if q.jUsed = 0 then [] else [(q.keyAt 0, base, q.jUsed)]
      | none => [])

/-- Bits of a plane of STATE go into the slots of a plot and context. -/
def Dev.restorePlanes (d : Dev) (n k : Nat) (l : List Byte) : Dev :=
  (span 0 65536).foldl (fun e i =>
    let b := fun (plane : Nat) => (l.getD (8192 * plane + i / 8) 0).getLsbD (i % 8)
    e.setSlot (grainKey n k (i / 64) (i % 64))
      (BitVec.ofNat 4 (b2n (b 0) + 2 * b2n (b 1) + 4 * b2n (b 2) + 8 * b2n (b 3)))) d

/-- STATE is written back (R519 step 2). -/
def Dev.restoreState (d : Dev) (p key a : Nat) : Dev :=
  let q := d.part p
  let cc := ctxCount q.ctx
  (span 0 q.plots).foldl (fun e l =>
    let n := (d.physical p l).getD 512
    (span 0 cc).foldl (fun e k => e.restorePlanes n k (d.memRead key (a + (l * cc + k) * 32768) 32768)) e) d

/-- BMEM is written back, rows as codewords (R519 step 2). -/
def Dev.restoreBmem (d : Dev) (p key a : Nat) : Dev :=
  (span 0 (d.part p).plots).foldl (fun e l =>
    let n := (d.physical p l).getD 512
    (span 0 32768).foldl (fun e i =>
      e.codeRow (n * 32768 + i) (leWord (d.memRead key (a + l * 262144 + 8 * i) 8))) e) d

/-- MODELS is written back by model (R519 step 2). -/
def Dev.restoreModels (d : Dev) (key : Nat) : Dev → Nat → List ModelAt → Dev
  | e, _, [] => e
  | e, a, x :: r => d.restoreModels key (e.memStore x.keyid x.base (d.memRead key a x.size)) (a + roundUp x.size 4096) r

/-- PAGES are written back to each page's current place (R216, R373, R519 step 2). -/
def Dev.restorePages (d : Dev) (p key a n : Nat) : Dev :=
  (span 0 n).foldl (fun e i =>
    let h := d.memRead key (a + 4160 * i) 8
    match (d.part p).model (leNat (h.take 2)) with
    | some x => e.memStore x.keyid (x.addrAt (4096 * leNat (h.drop 4))) (d.memRead key (a + 4160 * i + 64) 4096)
    | none => e) d

/-- CUTIN values are presented again (R488, R519 step 2). -/
def Dev.restoreCutin (d : Dev) (p key a n : Nat) : Dev :=
  (span 0 n).foldl (fun e i =>
    let h := d.memRead key (a + 32 * i) 32
    match (d.inBindings p).find? fun b => decide (b.2.peer = leNat (h.take 1)) &&
        decide (b.2.peerPart = leNat ((h.drop 1).take 1)) && decide (b.2.round = leNat ((h.drop 2).take 1)) &&
        decide (b.2.slot = leNat ((h.drop 3).take 2)) with
    | some b => e.updEng p fun g => { g with cutIn := tset g.cutIn b.1 (BitVec.ofNat 128 (leNat (h.drop 16))) }
    | none => e) d

/-- A snapshot is restored for the requester `who` of the row-move engine (R172 item 3, R373, R457, R519): journal, the five sections, the design cycle number; REWIND clears and
the design cycle in progress is gone. -/
def Dev.restoreSnap (d : Dev) (p addr who : Nat) : Dev :=
  let key := addr / 2 ^ 48
  let a := addr % 2 ^ 48
  let off := fun (i : Nat) => a + d.snapField addr (0x48 + 16 * i) 8
  let len := fun (i : Nat) => d.snapField addr (0x50 + 16 * i) 8
  let cycle := d.snapField addr 0x10 8
  let d1 := (d.snapRows who addr ((span 0 4).map len)).journalRestore p
  let d2 := d1.restoreState p key (off 0)
  let d3 := d2.restoreBmem p key (off 1)
  let d4 := d3.restoreModels key d3 (off 2) (d3.part p).marlModels
  let d5 := d4.restorePages p key (off 3) (len 3 / 4160)
  let d6 := d5.restoreCutin p key (off 4) (len 4 / 32)
  (d6.updPlots p fun x => { x with rewind := false }).updPart p fun q =>
    { q with cycle := BitVec.ofNat 64 cycle, eng := q.eng.drop }

end Sys2Proof.Machine
end

