-- ==== Sys2Proof/Machine/Observe.lean ====
section
/-! DEFINITION. Observation at a boundary: probe samples (R502, R503), trigger units (R511 to R513), trace records (R508 to
R510) and the PROBE_OUT pins (R506). -/
namespace Sys2Proof.Machine
open Host

/-! ## Probe lanes -/

/-- A lane's fields (R502): EN, CTX, KIND, GRAIN, CLOD. -/
def laneFields (w : BitVec 32) : Bool × Nat × Nat × Nat × Nat :=
  let x := w.toNat
  (bit x 31, bits x 18 3, bits x 16 2, bits x 10 6, bits x 0 10)

/-- The X and Y lanes of context k take the grains' outputs of the last microcycle of its dwell (R503). -/
def Dev.sampleXY (d : Dev) (p k : Nat) (r : MicroRegs) (into : Dev) : Dev :=
  match (d.part p).sel with
  | none => into
  | some s =>
    ((span 0 s.entries.length).zip s.entries).foldl (fun e x =>
      ((span 0 64).zip x.2.lanes).foldl (fun e y =>
        let f := laneFields y.2
        if f.1 && decide (f.2.1 = k) && decide (f.2.2.1 < 2) then
          let v := match d.physical p x.2.plot with
            | some n =>
              if f.2.2.1 = 0 then d.sig p r sigFuel (.x n f.2.2.2.2 f.2.2.2.1)
              else d.sig p r sigFuel (.y n f.2.2.2.2 f.2.2.2.1)
            | none => false
          e.updEng p fun g => { g with probes := tset g.probes (64 * x.1 + y.1) v }
        else e) e) into

/-- A lane's sample at a boundary, after the commit (R503). -/
def Dev.laneSample (d : Dev) (p idx i : Nat) (x : PmuEntry) : Bool :=
  let f := laneFields (x.lanes.getD i 0)
  if !f.1 then false
  else if f.2.2.1 < 2 then decide (f.2.1 < ctxCount (d.part p).ctx) && tget (d.part p).eng.probes (64 * idx + i) false
  else match d.physical p x.plot with
    | some n => (d.slotBits (grainKey n f.2.1 f.2.2.2.2 f.2.2.2.1)).getLsbD (if f.2.2.1 = 2 then 0 else 2)
    | none => false

/-- The 64 lane samples of an entry as a word, lane i in bit i (R509). -/
def Dev.sampleWord (d : Dev) (p idx : Nat) (x : PmuEntry) : Word :=
  BitVec.ofNat 64 ((span 0 64).foldl (fun acc i => acc + b2n (d.laneSample p idx i x) * 2 ^ i) 0)

/-- The sample words of every entry of a selection. -/
def Dev.sampleWords (d : Dev) (p : Nat) : List Word :=
  match (d.part p).sel with
  | none => []
  | some s => ((span 0 s.entries.length).zip s.entries).map fun x => d.sampleWord p x.1 x.2

/-! ## Trigger units -/

/-- What the units that act at one boundary ask for (R513). -/
structure TrigActs where
  /-- a unit acted -/
  acted : Bool := false
  /-- TRACE_ON -/
  on : Bool := false
  /-- TRACE_OFF with the largest POST -/
  off : Option Nat := none
  deriving DecidableEq, Repr

/-- The condition of a trigger state on this design cycle's samples and the previous one's (R511). -/
def TrigState.holds (t : TrigState) (now : List Word) (prev : Option (List Word)) : Bool :=
  match now[t.entry]? with
  | none => false
  | some v => match t.oper with
    | 0 => true
    | 1 => decide (v &&& t.mask = t.value)
    | 2 => decide (v &&& t.mask ≠ t.value)
    | _ => match prev with
      | some l => decide (v &&& t.mask ≠ l.getD t.entry 0 &&& t.mask)
      | none => false

/-- One armed unit evaluates the committed design cycle (R512). -/
def Dev.evalUnit (d : Dev) (p u cycle : Nat) (now : List Word) (acc : TrigActs) : Dev × TrigActs :=
  let x := d.trig u
  match x.prog[x.state]? with
  | none => (d, acc)
  | some t =>
    if t.holds now x.prev then
      if x.count.toNat + 1 < max 1 t.count then
        (d.updTrig u fun x => { x with count := x.count + 1, prev := some now }, acc)
      else
        let d1 := if t.action.getLsbD 0 then
            d.post 0x0C01 (u + 16 * x.state + cycle % 2 ^ 24 * 256) p else d
        let d2 := if t.action.getLsbD 3 then d1.addFreeze p .trigger else d1
        let acc1 : TrigActs :=
          { acted := true, on := acc.on || t.action.getLsbD 1,
            off := if t.action.getLsbD 2 then some (max (acc.off.getD 0) t.post) else acc.off }
        (d2.updTrig u fun x =>
          { x with count := 0, prev := some now, state := if t.disarm then x.state else t.next,
                   armed := !t.disarm }, acc1)
    else (d.updTrig u fun x => { x with prev := some now }, acc)

/-- Every armed unit of the partition evaluates a committed design cycle that lies above HW (R512). -/
def Dev.evalTriggers (d : Dev) (p cycle : Nat) (now : List Word) : Dev × TrigActs :=
  if cycle + 1 ≤ (d.part p).trace.hw then (d, {})
  else (span 0 16).foldl (fun s u =>
    if (d.part p).trigs.getLsbD u && (s.1.trig u).armed then s.1.evalUnit p u cycle now s.2 else s) (d, {})

/-! ## Trace -/

/-- Trace records lost: counted, with event 0x0C02 at most once a millisecond (R510). -/
def Dev.traceLost (d : Dev) (p : Nat) : Dev :=
  let t := (d.part p).trace
  let due := match t.lostTime with
    | some x => decide (x.toNat + 250000 ≤ d.evt.time.toNat)
    | none => true
  let d1 := d.updPart p fun q => { q with trace := { q.trace with
    lost := sat1 q.trace.lost, lostNow := q.trace.lostNow + 1, lostEvt := q.trace.lostEvt + 1 } }
  if due then
    (d1.post 0x0C02 (t.lostEvt + 1) p).updPart p fun q =>
      { q with trace := { q.trace with lostEvt := 0, lostTime := some d.evt.time } }
  else d1

/-- Bytes written into a ring of `size` bytes at `base`, from `at_` on (R509). -/
def Dev.ringStore (d : Dev) (k base size at_ : Nat) (l : List Byte) : Dev :=
  if at_ + l.length ≤ size then d.memStore k (base + at_) l
  else (d.memStore k (base + at_) (l.take (size - at_))).memStore k base (l.drop (size - at_))

/-- The record of a committed design cycle (R509). -/
def traceRecord (cycle p flags : Nat) (words : List Word) : List Byte :=
  let e := words.length
  let body := leBytes 8 cycle ++ leBytes 1 p ++ leBytes 1 flags ++ leBytes 2 e ++ leBytes 4 0 ++
    words.flatMap fun w => leBytes 8 w.toNat
  body ++ leBytes (roundUp (16 + 8 * e) 64 - (16 + 8 * e)) 0

/-- The trace writer's stop and that of the tower that holds a trace allocation take data: a stop that is off or disabled accepts none (R44,
R452). -/
def Dev.traceOpen (d : Dev) (a : Nat) : Bool :=
  decide ((d.stop 4).state = .on) && decide ((d.stop (towerStop ((a - marlBase) / towerSize))).state = .on)

/-- The bursts of a trace record, up to 1 KiB each: a grant of the trace writer and a POST to the tower's stop (R443, R458). -/
def Dev.sendTrace (d : Dev) (p a : Nat) (l : List Byte) : Dev :=
  ((span 0 ((l.length + 1023) / 1024)).foldl (fun e _ => e.served 50 p) d).send
    { cls := .post, src := 4, dst := towerStop ((a - marlBase) / towerSize), addr := a, write := true } l

/-- One record of the committed design cycle is written, or lost; LINEAR trace that is full ends (R509, R510). A record
longer than the allocation finds no room (log 23). -/
def Dev.writeTrace (d : Dev) (p cycle : Nat) (now : List Word) (trig room : Bool) : Dev :=
  let q := d.part p
  match q.sel with
  | none => d
  | some s =>
    if cycle + 1 ≤ q.trace.hw then d
    else
      let words := (s.entries.zip now).filterMap fun x => if x.1.trace then some x.2 else none
      let len := roundUp (16 + 8 * words.length) 64
      let r := d.traceRange p
      if s.tmode = 2 ∧ r.2 < q.trace.written + len then
        (d.post 0x0C03 q.trace.written p).updPart p fun q => { q with trace := { q.trace with state := 0, post := 0 } }
      else if (d.arb 50 p).quar then (d.refuseQuar 50 p).traceLost p
      else if !room ∨ r.2 < len ∨ !d.traceOpen r.1 then d.traceLost p
      else
        let flags := b2n (0 < q.trace.lostNow) + 2 * b2n trig + 4 * b2n q.trace.first
        let rec_ := traceRecord cycle p flags words
        ((d.sendTrace p r.1 rec_).ringStore (q.keyAt s.keySlot) r.1 r.2 q.trace.wptr rec_).updPart p fun q =>
          { q with trace := { q.trace with
              wptr := (q.trace.wptr + len) % r.2, written := q.trace.written + len, lostNow := 0, first := false,
              wrapped := q.trace.wrapped || decide (r.2 < q.trace.wptr + len), hw := cycle + 1 } }

/-- Trace at a boundary: TRACE_ON, the record, then TRACE_OFF and the end of POST (R510, R513). -/
def Dev.traceStep (d : Dev) (p cycle : Nat) (now : List Word) (acts : TrigActs) (room : Bool) : Dev :=
  let t := (d.part p).trace
  let set := fun (e : Dev) (f : Trace → Trace) => e.updPart p fun q => { q with trace := f q.trace }
  let d1 :=
    if acts.off.isNone && acts.on && (decide (t.state = 1) || decide (t.state = 3)) then
      set d fun x => { x with state := 2, first := x.first || decide (t.state = 1), post := 0 }
    else d
  let was := (d1.part p).trace.state
  let d2 := if 2 ≤ was then d1.writeTrace p cycle now acts.acted room else d1
  if (d2.part p).trace.state = 0 then d2
  else match acts.off with
    | some n => set d2 fun x => { x with state := if n = 0 then 0 else 3, post := n }
    | none =>
      if was = 3 then
        set d2 fun x => { x with state := if x.post ≤ 1 then 0 else 3, post := x.post - 1 }
      else d2

/-! ## PROBE_OUT -/

/-- Pins that a partition's selection drives (R506). -/
def Dev.poutOf (d : Dev) (p : Nat) : BitVec 32 :=
  match (d.part p).sel with
  | some s => if d.feat 10 then (d.part p).pout &&& s.pomask else 0
  | none => 0

/-- Pins driven by any selection; the others are high-impedance with a weak pull-down (R506). -/
def Dev.poutDriven (d : Dev) : BitVec 32 := allParts.foldl (fun m p => m ||| d.poutOf p) 0

/-- The PROBE_OUT pins update at a boundary whose design cycle number is a multiple of PODIV + 1, unless less than 20 ns
have passed since the previous update (R506). -/
def Dev.poutStep (d : Dev) (p cycle : Nat) (now : List Word) (ns : Nat) : Dev :=
  match (d.part p).sel with
  | none => d
  | some s =>
    let mine := d.poutOf p
    if mine = 0 ∨ cycle % (s.podiv + 1) ≠ 0 then d
    else if ns < 20 then { d with obs := { d.obs with skipped := sat1 d.obs.skipped } }
    else
      let lv := (span 0 32).foldl (fun (acc : BitVec 32) i =>
        if mine.getLsbD i then
          let m := s.pomap.getD i (0, 0, false)
          let v := if m.2.2 then !d.obs.level.getLsbD i else (now.getD m.1 0).getLsbD m.2.1
          if v then acc ||| (1#32 <<< i) else acc &&& ~~~(1#32 <<< i)
        else acc) d.obs.level
      { d with obs := { d.obs with level := lv } }

/-! ## Selections and trigger programs taking effect (R322, R504, R510, R511) -/

/-- A selection takes effect: it replaces the whole previous one, sets trace OFF, ON or WAIT, and HW takes the current
design cycle number (R504, R510). -/
def Dev.setSel (d : Dev) (p : Nat) (s : Selection) : Dev :=
  d.updPart p fun q =>
    { q with sel := some s, eng := { q.eng with probes := [] },
             trace := { q.trace with
               state := if s.tmode = 0 then 0 else if s.tstart then 1 else 2, first := decide (s.tmode ≠ 0),
               wrapped := false, lost := 0, lostNow := 0, wptr := 0, written := 0, post := 0, hw := q.cycle.toNat } }

/-- Trigger programs take effect: each named unit is armed in state 0 with its count at 0 (R511). -/
def Dev.setTrig (d : Dev) (p : Nat) (l : List (Nat × List TrigState)) : Dev :=
  let d1 := l.foldl (fun e x =>
    e.updTrig x.1 fun _ => { armed := true, state := 0, count := 0, prog := x.2, prev := none }) d
  d1.updPart p fun q => { q with trace := { q.trace with hw := q.cycle.toNat } }

/-- What waited for the boundary takes effect, and its tickets complete (R322). -/
def Dev.takeSelections (d : Dev) (p : Nat) : Dev :=
  let q := d.part p
  let d1 := q.selNext.foldl (fun e x => (e.setSel p x.1).done x.2.1 x.2.2) d
  let d2 := q.trigNext.foldl (fun e x => (e.setTrig p x.1).done x.2.1 x.2.2) d1
  d2.updPart p fun q => { q with selNext := [], trigNext := [] }

end Sys2Proof.Machine
end

