-- ==== Sys2Proof/Machine/Place.lean ====
section
/-! DEFINITION. The head tables of an image (R154 to R158, R187 to R192) and what a placement is made of: the checks of its
inputs (R207 step 1), routes (R201 to R204), schedule extension (R206), memory models (R213, R214, R361, R369), the
placement record (R211) and the move of a plot (R217). -/
namespace Sys2Proof.Machine
open Host

/-- A little-endian field of bytes. -/
def field (l : List Byte) (off n : Nat) : Nat := leNat ((l.drop off).take n)

/-- Every byte of a range is zero. -/
def zeros (l : List Byte) (off n : Nat) : Bool := ((l.drop off).take n).all fun b => decide (b = 0)

/-! ## Schedules -/

/-- An entry word as an entry (R157). -/
def entryOf (w : Nat) : Entry :=
  { ctx := bits w 29 3, steps := bits w 20 9, msync := bit w 19,
    xwait := if bit w 18 then some (bits w 14 4) else none, xsend := if bit w 13 then some (bits w 9 4) else none,
    rounds := (bits w 14 4, bits w 9 4) }

/-- The schedule of a SCHEDULE section (R154). -/
def schedOf (l : List Byte) : Sched :=
  { ticks := BitVec.ofNat 64 (field l 0 8), head := BitVec.ofNat 64 (field l 8 8),
    entries := (span 0 (bits (field l 8 8) 0 7)).map fun e => entryOf (field l (16 + 4 * e) 4) }

/-- A TICKd field is valid (R155, R158). -/
def tickOk (t : Nat) : Bool :=
  let arg := bits t 0 6
  match bits t 6 2 with
  | 2 => decide (1 ≤ arg)
  | 3 => decide (bits arg 4 2 = 0)
  | _ => decide (arg = 0)

/-- Entry e of a schedule breaks R158. -/
def entryBad (l : List Entry) (raw cc : Nat) (cut : Bool) (e : Nat) : Bool :=
  let x := entryOf raw
  let before := l.take e
  let after := l.drop (e + 1)
  decide (cc ≤ x.ctx) || decide (x.steps < 4) || decide (bits raw 0 9 ≠ 0) ||
  (!cut && (x.xwait.isSome || x.xsend.isSome)) ||
  (match x.xsend with | some r => before.any fun y => decide (y.xsend = some r) | none => false) ||
  (match x.xwait with
    | some r => (before.any fun y => decide (y.xwait = some r)) ||
        ((x.xsend = some r) || after.any fun y => decide (y.xsend = some r))
    | none => false)

/-- The first fault of a schedule under R158: an entry index, or 0xFFFF for the header. -/
def schedFault (l : List Byte) (ctx : Nat) (cut : Bool) : Option Nat :=
  let h := field l 8 8
  let cnt := bits h 0 7
  let s := schedOf l
  if l.length ≠ 16 + 4 * cnt ∨ cnt = 0 ∨ 64 < cnt ∨ bits h 8 2 ≠ ctx ∨ bits h 17 47 ≠ 0 ∨ bits h 10 2 ≠ 0 ∨
      bits h 7 1 ≠ 0 ∨ !(span 0 8).all (fun d => tickOk (bits (field l 0 8) (8 * d) 8)) then some 0xFFFF
  else (span 0 cnt).find? fun e => entryBad s.entries (field l (16 + 4 * e) 4) (ctxCount ctx) cut e

/-! ## Nets, pairings, models -/

/-- A NETS record (R188). -/
def netOf (l : List Byte) (i : Nat) : Net :=
  { src := field l (16 * i) 2, dst := field l (16 * i + 2) 2, srcPort := BitVec.ofNat 16 (field l (16 * i + 4) 2),
    dstPort := BitVec.ofNat 16 (field l (16 * i + 6) 2), budget := field l (16 * i + 8) 1,
    ctxMask := BitVec.ofNat 8 (field l (16 * i + 9) 1), hard := bit (field l (16 * i + 10) 1) 0,
    chain := field l (16 * i + 12) 2 }

/-- The nets of a section with `n` records. -/
def netsOf (l : List Byte) (n : Nat) : List Net := (span 0 n).map (netOf l)

/-- The NETS section is well formed (R188). -/
def netsOk (l : List Byte) (n plots cc : Nat) : Bool :=
  decide (n ≤ 131072) && decide (l.length = 16 * n) &&
  (span 0 n).all fun i =>
    let x := netOf l i
    decide (x.src < plots) && decide (x.dst < plots) && decide (x.src ≠ x.dst) &&
    decide (bits x.srcPort.toNat 0 8 = 0) && decide (bits x.dstPort.toNat 0 8 = 0) && decide (1 ≤ x.budget) &&
    decide (x.ctxMask ≠ 0) && decide (x.ctxMask.toNat < 2 ^ cc) && decide (field l (16 * i + 10) 1 < 2) &&
    zeros l (16 * i + 11) 1 && zeros l (16 * i + 14) 2

/-- Length of a pairing record of an image of cc contexts (R191). -/
def pairLen (cc : Nat) : Nat := 16 + 2048 * cc

/-- The pairings of a PAIRS section (R191). -/
def pairsOf (l : List Byte) (n cc : Nat) : List Pair :=
  (span 0 n).map fun i =>
    let o := pairLen cc * i
    { p := field l o 2, q := field l (o + 2) 2, lanes := (l.drop (o + 16)).take (2048 * cc) }

/-- The nibble of lane l in context k of a pairing's lane map (R191). -/
def Pair.nibble (x : Pair) (k l : Nat) : Nat :=
  let i := 4096 * k + l
  bits (x.lanes.getD (i / 2) 0).toNat (4 * (i % 2)) 4

/-- Distinct elements. -/
def distinct : List Nat → Bool
  | [] => true
  | x :: r => !r.contains x && distinct r

/-- The PAIRS section is well formed (R191). -/
def pairsOk (l : List Byte) (n plots cc : Nat) : Bool :=
  decide (n ≤ 240) && decide (l.length = pairLen cc * n) &&
  (pairsOf l n cc).all (fun x => decide (x.p < plots) && decide (x.q < plots)) &&
  distinct ((pairsOf l n cc).flatMap fun x => [x.p, x.q]) &&
  (span 0 n).all fun i => zeros l (pairLen cc * i + 4) 12

/-- The first lane that both ends of a pairing drive in one context: lane, context, PLOT_P, pairing (R207, R212). -/
def laneClash (pairs : List Pair) (cc : Nat) : Option (Nat × Nat × Nat × Nat) :=
  ((span 0 pairs.length).zip pairs).findSome? fun x =>
    (span 0 cc).findSome? fun k => ((span 0 4096).find? fun l => decide (x.2.nibble k l = 5)).map fun l =>
      (l, k, x.2.p, x.1)

/-- A MODELS record (R192). -/
structure ModelRec where
  /-- MODEL -/
  model : Nat
  /-- PORTS -/
  ports : Nat
  /-- bytes per access -/
  width : Nat
  /-- TIER -/
  tier : Nat
  /-- FLAGS -/
  flags : Nat
  /-- KEYSLOT -/
  slot : Nat
  /-- SIZE -/
  size : Nat
  /-- RATE -/
  rate : Nat
  deriving DecidableEq, Repr

/-- Bytes of the free-block masks (R192). -/
def maskLen (plots : Nat) : Nat := roundUp (4 * plots) 64

/-- Free-block masks by logical plot (R192). -/
def masksOf (l : List Byte) (plots : Nat) : List Nat := (span 0 plots).map fun i => field l (4 * i) 4

/-- Record i of a MODELS section. -/
def modelOf (l : List Byte) (plots i : Nat) : ModelRec :=
  let o := maskLen plots + 32 * i
  { model := field l o 2, ports := field l (o + 2) 1, width := 8 * 2 ^ field l (o + 3) 1, tier := field l (o + 4) 1,
    flags := field l (o + 5) 1, slot := field l (o + 6) 1, size := field l (o + 8) 8, rate := field l (o + 16) 4 }

/-- The model records of a section. -/
def modelRecs (l : List Byte) (plots n : Nat) : List ModelRec := (span 0 n).map (modelOf l plots)

/-- The MODELS section is well formed, and every KEYSLOT holds a KeyID (R192). -/
def modelsOk (l : List Byte) (plots n : Nat) (keys : List Nat) : Bool :=
  let m := maskLen plots
  decide (n ≤ 1024) && decide (l.length = m + 32 * n) && zeros l (4 * plots) (m - 4 * plots) &&
  distinct ((modelRecs l plots n).map (·.model)) &&
  (span 0 n).all fun i =>
    let x := modelOf l plots i
    let o := m + 32 * i
    decide (x.model < 1024) && decide (1 ≤ x.ports) && decide (x.ports ≤ 4) && decide (field l (o + 3) 1 ≤ 3) &&
    decide (x.tier ≤ 3) && decide (x.flags < 16) && decide (x.slot < 8) && decide (keys.getD x.slot 0 ≠ 0) &&
    zeros l (o + 7) 1 && decide (0 < x.size) && decide (x.size % 4096 = 0) && zeros l (o + 20) 12

/-! ## Head tables of an accepted head -/

/-- Directory index of the first section of a type. -/
def Head.secIdx (h : Head) (ty : Nat) : Option Nat :=
  (span 0 h.secs.length).find? fun i => match h.secs[i]? with
    | some s => decide (s.type = ty)
    | none => false

/-- Bytes and record count of a head table, empty when the image has none (R182). -/
def Head.table (h : Head) (ty : Nat) : List Byte × Nat :=
  match h.secIdx ty with
  | some i => (((h.tables.find? fun e => decide (e.1 = i)).map (·.2)).getD [], (h.secs.map (·.count)).getD i 0)
  | none => ([], 0)

/-- The first failure of step 1 of placement (R207): code and detail. -/
def Dev.placeFault (d : Dev) (p buf : Nat) : Option (Nat × Nat) :=
  let q := d.part p
  match q.headFull with
  | none => some (0x0209, 1)
  | some h =>
    let cc := ctxCount q.ctx
    let sch := h.table 3
    let nets := h.table 5
    let pairs := h.table 6
    let models := h.table 7
    let idx := fun (ty : Nat) => (h.secIdx ty).getD 0
    let need := 64 + roundUp (4 * q.plots) 8 + roundUp (16 + 4 * (schedOf sch.1).entries.length) 8 +
      roundUp (4 * nets.2) 8 + 16 * models.2
    if q.state ≠ .blank ∨ q.placement.isSome then some (0x0209, 2)
    else match schedFault sch.1 q.ctx q.cut with
      | some e => some (0x0206, e)
      | none =>
        if !netsOk nets.1 nets.2 q.plots cc then some (0x0209, 3 + idx 5 * 2 ^ 16)
        else if !pairsOk pairs.1 pairs.2 q.plots cc then some (0x0209, 3 + idx 6 * 2 ^ 16)
        else if !modelsOk models.1 q.plots models.2 q.keys then some (0x0209, 3 + idx 7 * 2 ^ 16)
        else match laneClash (pairsOf pairs.1 pairs.2 cc) cc with
          | some (l, k, pp, i) => some (0x0207, l * 2 ^ 20 + k * 2 ^ 17 + pp * 2 ^ 8 + i)
          | none => if buf < need then some (0x0209, 4) else none

/-! ## Routes (R201 to R204) -/

/-- Outbound position of a source port: 64 × side + 32 × track + position (R188, R202). -/
def portOut (port : BitVec 16) : Nat := 64 * bits port.toNat 14 2 + 32 * bits port.toNat 8 1 + bits port.toNat 9 5

/-- A route followed from a plot that is entered at an inbound position: transit plots and their outbound positions, then
the destination (R203). Answers the switch settings (plot, outbound position, inbound position), or none when the
route breaks the rules. `mine` are the placement's plots. -/
def followRoute (mine : List Nat) (dst dstIn : Nat) : Nat → Nat → List (Nat × Nat) → Option (List (Nat × Nat × Nat))
  | n, inb, [] => if n = dst ∧ inb = dstIn then some [] else none
  | n, inb, (m, out) :: r =>
    if m ≠ n ∨ 256 ≤ out ∨ !mine.contains n ∨ inb / 64 = out / 64 then none
    else match neighbour n (out / 64) with
      | none => none
      | some n' => (followRoute mine dst dstIn n' (64 * ((out / 64 + 2) % 4) + out % 64) r).map fun l => (n, out, inb) :: l

/-- A net's route under a plot map: its switch settings (R203). -/
def routeOf (map : List Nat) (x : Net) (r : List (Nat × Nat)) : Option (List (Nat × Nat × Nat)) :=
  let src := map.getD x.src 512
  let dst := map.getD x.dst 512
  let out := portOut x.srcPort
  match neighbour src (out / 64) with
  | none => none
  | some n => followRoute map dst (portOut x.dstPort) n (64 * ((out / 64 + 2) % 4) + out % 64) r

/-- Usable plots of a tier (R138). -/
def Dev.usable (d : Dev) (tier : Nat) : Nat :=
  min 240 (256 - ((span (256 * tier) 256).filter fun n => decide ((d.plot n).state = .mappedOut)).length)

/-- Plots of a tier that belong to partitions (R138, R140). -/
def Dev.inUse (d : Dev) (tier : Nat) : Nat :=
  ((span (256 * tier) 256).filter fun n => decide ((d.plot n).part ≠ 0)).length

/-- Length d of each net's route: one more than its transit plots (R203). -/
def routeLens (routes : List (List (Nat × Nat))) : List Nat := routes.map fun r => r.length + 1

/-- Transit settings of all routes by plot: outbound position ↦ 1 + inbound position (R202). -/
def transitOf (map : List Nat) (nets : List Net) (routes : List (List (Nat × Nat))) (n : Nat) : Tab Nat :=
  ((nets.zip routes).flatMap fun x => (routeOf map x.1 x.2).getD []).foldl (fun t s =>
    if s.1 = n then tset t s.2.1 (s.2.2 + 1) else t) []

/-! ## Schedule extension (R206) -/

/-- Overruns of the nets that carry values in context k: CHAIN and overrun. -/
def overruns (nets : List Net) (lens : List Nat) (k : Nat) : List (Nat × Nat) :=
  (nets.zip lens).filterMap fun x =>
    if x.1.ctxMask.getLsbD k then some (x.1.chain, x.2 - x.1.budget) else none

/-- E(k). -/
def extension (nets : List Net) (lens : List Nat) (k : Nat) : Nat :=
  let l := overruns nets lens k
  l.foldl (fun m x =>
    let v := if x.1 = 0 then x.2 else (l.filter fun y => decide (y.1 = x.1)).foldl (fun a y => a + y.2) 0
    max m v) 0

/-- The schedule with each entry's STEPS at its compiled value plus E(k) (R206, R218). -/
def extended (s : Sched) (compiled : List Nat) (nets : List Net) (lens : List Nat) : Sched :=
  { s with entries := (s.entries.zip compiled).map fun x => { x.1 with steps := x.2 + extension nets lens x.1.ctx } }

/-- The failure of step 7: a HARD net beyond its BUDGET, or an entry above 511 steps (R207, R212). -/
def extensionFault (nets : List Net) (lens : List Nat) (s : Sched) : Option Nat :=
  match (span 0 nets.length).find? fun i => match nets[i]? with
      | some x => x.hard && decide (x.budget < lens.getD i 0)
      | none => false with
  | some i => some i
  | none => ((span 0 s.entries.length).find? fun e => match s.entries[e]? with
      | some x => decide (511 < x.steps)
      | none => false).map fun e => 0x80000000 + e

/-! ## Memory models (R213, R214, R361, R369) -/

/-- Free blocks in ascending (logical plot, block) order (R192, R361). -/
def freeBlocks (masks : List Nat) : List (Nat × Nat) :=
  ((span 0 masks.length).zip masks).flatMap fun x =>
    (span 0 32).filterMap fun j => if bit x.2 j then some (x.1, j) else none

/-- Carriers of each model in record order, the blocks that remain, and the first model without one (R361). -/
def takeCarriers : List ModelRec → List (Nat × Nat) → List (List (Nat × Nat)) × List (Nat × Nat) × Option Nat
  | [], free => ([], free, none)
  | m :: r, free =>
    if free.length < m.ports then ([], free, some m.model)
    else
      let t := takeCarriers r (free.drop m.ports)
      (free.take m.ports :: t.1, t.2)

/-- Models by descending RATE ÷ SIZE, ties in ascending MODEL (R214). -/
def modelBefore (a b : ModelRec) : Bool :=
  decide (b.rate * a.size < a.rate * b.size) || (decide (a.rate * b.size = b.rate * a.size) && decide (a.model < b.model))

/-- Insert into the order of R214. -/
def insertModel (x : ModelRec × List (Nat × Nat)) : List (ModelRec × List (Nat × Nat)) → List (ModelRec × List (Nat × Nat))
  | [] => [x]
  | y :: r => if modelBefore x.1 y.1 then x :: y :: r else y :: insertModel x r

/-- Model placement under way. -/
structure ModelAcc where
  /-- blocks left -/
  free : List (Nat × Nat)
  /-- next free byte of the marl allocation, and its end -/
  marl : Nat × Nat
  /-- next free byte of the DDR5 allocation, and its end -/
  ddr : Nat × Nat
  /-- models placed -/
  out : List ModelAt := []
  /-- models outside their preferred tier -/
  moved : List Nat := []
  /-- the model that fits nowhere -/
  fail : Option Nat := none
  deriving DecidableEq, Repr

/-- A tier is permitted for a model (R213, R369). -/
def Dev.tierOk (d : Dev) (m : ModelRec) (keyid tier : Nat) (acc : ModelAcc) (jrnl : Bool) : Bool :=
  (!bit m.flags 0 || decide (m.tier = 0) || decide (m.tier = tier)) &&
  match tier with
  | 1 => decide (m.tier ≤ 1) && decide ((m.size + 8191) / 8192 ≤ acc.free.length)
  | 2 => decide (m.tier ≤ 2) && decide ((d.keyid keyid).mode ≠ .verified) && decide (acc.marl.1 + m.size ≤ acc.marl.2)
  | _ => d.feat 14 && (bit m.flags 3 || (bit m.flags 1 && d.feat 17)) && (!bit m.flags 1 || jrnl) &&
      decide (acc.ddr.1 + m.size ≤ acc.ddr.2)

/-- One model takes its place: its preferred tier first, then block memory, marl and DDR5 (R214); within an allocation it
takes the lowest bytes left (log 24). -/
def Dev.placeModel (d : Dev) (keys : List Nat) (jrnl : Bool) (acc : ModelAcc) (x : ModelRec × List (Nat × Nat)) : ModelAcc :=
  let m := x.1
  let k := keys.getD m.slot 0
  if acc.fail.isSome then acc
  else
    let order := if m.tier = 0 then [1, 2, 3] else [m.tier, 1, 2, 3]
    match order.find? fun t => d.tierOk m k t acc jrnl with
    | none => { acc with fail := some m.model }
    | some t =>
      let nb := (m.size + 8191) / 8192
      let b := acc.free.headD (0, 0)
      let y : ModelAt :=
        { model := m.model, ports := m.ports, width := m.width, rdonly := bit m.flags 3, journal := bit m.flags 1,
          nomigr := bit m.flags 2, keyid := k, size := m.size, tier := t, carriers := x.2,
          base := if t = 1 then b.1 + b.2 * 2 ^ 9 else if t = 2 then acc.marl.1 else acc.ddr.1,
          blocks := if t = 1 then acc.free.take nb else [] }
      { acc with
        free := if t = 1 then acc.free.drop nb else acc.free,
        marl := if t = 2 then (acc.marl.1 + m.size, acc.marl.2) else acc.marl,
        ddr := if t = 3 then (acc.ddr.1 + m.size, acc.ddr.2) else acc.ddr,
        out := acc.out ++ [y], moved := if m.tier ≠ 0 ∧ m.tier ≠ t then acc.moved ++ [m.model] else acc.moved }

/-- Bytes of a partition's journal (R369). -/
def Part.journalSize (q : Part) : Nat := (if q.jSize = 0 then 256 else q.jSize.toNat) * 2 ^ 20

/-- The journal is reserved before any model (R369): base, and whether it lies in marl. -/
def Dev.reserveJournal (d : Dev) (p : Nat) (recs : List ModelRec) : Option (Nat × Bool) :=
  let q := d.part p
  let n := q.journalSize
  let wanted := recs.any fun m => bit m.flags 1 && d.feat 14 && (bit m.flags 3 || d.feat 17) &&
    (!bit m.flags 0 || decide (m.tier = 0) || decide (m.tier = 3))
  let k := q.keyAt 0
  if !wanted ∨ k = 0 then none
  else match q.marl, q.ddr with
    | some (b, m), y =>
      if (d.keyid k).mode ≠ .verified ∧ n ≤ m then some (b + m - n, true)
      else (match y with | some (b2, m2) => if n ≤ m2 then some (b2 + m2 - n, false) else none | none => none)
    | none, some (b2, m2) => if n ≤ m2 then some (b2 + m2 - n, false) else none
    | none, none => none

/-- Step 8 of placement (R207): models, the journal, the models outside their preferred tier, or the model that fails. -/
def Dev.placeModels (d : Dev) (p : Nat) (recs : List ModelRec) (masks : List Nat) :
    Option Nat × List ModelAt × Option (Nat × Nat) × List Nat :=
  let q := d.part p
  let c := takeCarriers recs (freeBlocks masks)
  match c.2.2 with
  | some m => (some m, [], none, [])
  | none =>
    let j := d.reserveJournal p recs
    let n := q.journalSize
    let rng := fun (x : Option (Nat × Nat)) => match x with | some (b, m) => (b, b + m) | none => (0, 0)
    let cut := fun (x : Nat × Nat) (here : Bool) => if here then (x.1, x.2 - n) else x
    let acc : ModelAcc :=
      { free := c.2.1, marl := cut (rng q.marl) (decide (j.map (·.2) = some true)),
        ddr := cut (rng q.ddr) (decide (j.map (·.2) = some false)) }
    let order := (recs.zip c.1).foldl (fun l x => insertModel x l) []
    let a := order.foldl (d.placeModel q.keys j.isSome) acc
    (a.fail, recs.filterMap (fun m => a.out.find? fun y => decide (y.model = m.model)), j.map fun x => (x.1, n), a.moved)

/-! ## The placement record (R211) -/

/-- The head of the record. -/
def recordHead (code detail plots ctx compiled placed nets models us cost : Nat) : List Byte :=
  leBytes 2 code ++ leBytes 2 plots ++ leBytes 1 ctx ++ leBytes 3 0 ++ leBytes 4 compiled ++ leBytes 4 placed ++
    leBytes 4 nets ++ leBytes 2 models ++ leBytes 2 0 ++ leBytes 4 us ++ leBytes 4 detail ++ leBytes 4 cost ++ leBytes 28 0

/-- Bytes padded with zeros to a multiple of 8. -/
def pad8 (l : List Byte) : List Byte := l ++ leBytes (roundUp l.length 8 - l.length) 0

/-- Sum of STEPS. -/
def Sched.total (s : Sched) : Nat := s.entries.foldl (fun n e => n + e.steps) 0

/-- An entry as its word (R157). -/
def entryWord (e : Entry) : Nat :=
  e.ctx * 2 ^ 29 + e.steps * 2 ^ 20 + b2n e.msync * 2 ^ 19 +
    b2n e.xwait.isSome * 2 ^ 18 + e.rounds.1 * 2 ^ 14 + b2n e.xsend.isSome * 2 ^ 13 + e.rounds.2 * 2 ^ 9

/-- The record of a placement that has been committed. -/
def recordBytes (q : Part) (pl : Placement) (routes : List (List (Nat × Nat))) (compiled detail us cost : Nat) : List Byte :=
  let crossings := fun (n : Nat) => min 255 (routes.filter fun r => r.any fun x => decide (x.1 = n)).length
  recordHead 0 detail q.plots q.ctx compiled pl.sched.total pl.nets.length pl.models.length us cost ++
  pad8 (pl.map.flatMap fun n => leBytes 4 (n + crossings n * 2 ^ 16)) ++
  pad8 (leBytes 8 pl.sched.ticks.toNat ++ leBytes 8 pl.sched.head.toNat ++ pl.sched.entries.flatMap fun e => leBytes 4 (entryWord e)) ++
  pad8 ((pl.nets.zip pl.netLens).flatMap fun x => leBytes 4 (x.2 % 256 + (x.2 - x.1.budget) % 256 * 256)) ++
  pl.models.flatMap fun m => leBytes 1 m.tier ++ leBytes 1 m.keyid ++ leBytes 6 0 ++ leBytes 8 m.base

/-! ## Moving a plot (R217) -/

/-- Entries of one plot copied to another in a table whose keys hold the plot above `size`. -/
def copyTab {α : Type} (t : Tab α) (size src dst : Nat) : Tab α :=
  (t.filter fun e => decide (e.1 / size = src)).foldl (fun t e => tset t (dst * size + e.1 % size) e.2)
    (t.filter fun e => decide (e.1 / size ≠ dst))

/-- One codeword with changed bits is read for a copy of its frame: corrected data go into the copy, one that cannot be corrected is as damaged
there (R150, R217 step 2, R379). -/
def Dev.copyQuarter (d : Dev) (dst key q : Nat) : Dev :=
  let x := d.readQuarter key q
  let goal := dst * 524288 + key % 524288
  let e := d.noteQuarter key q x.1
  match x.1 with
  | .clean | .corrected => e.setQuarter goal q x.2
  | _ => { e with fab := { e.fab with kupsets := tset e.fab.kupsets (4 * goal + q) (tget d.fab.kupsets (4 * key + q) 0) } }

/-- The frames of every used context of a plot are copied (R217 step 2). -/
def Dev.copyFrames (d : Dev) (src dst : Nat) : Dev :=
  let hit := (d.fab.kupsets.filter fun e => decide (keyPlot (e.1 / 4) = src)).map (·.1)
  hit.foldl (fun e i => e.copyQuarter dst (i / 4) (i % 4))
    { d with fab := { d.fab with
        kaolin := copyTab d.fab.kaolin 524288 src dst, kupsets := d.fab.kupsets.filter fun e => decide (keyPlot (e.1 / 4) ≠ dst) } }

/-- A row of block memory moves to another plot: corrected in ECC mode, and its codeword becomes that of its new location (R128, R217 step 5,
R335). -/
def Dev.moveBlockRow (d : Dev) (src dst : Nat) (e : Nat × BRow) : Dev :=
  let goal := dst * 32768 + e.1 % 32768
  let x := readCode (rowLoc e.1) e.2.word
  if d.eccOn src (e.1 / 1024 % 32) ∧ x.1 = .corrected then (d.countCorrected 0 (rowLoc e.1)).codeRow goal x.2
  else d.setRow goal (e.2.word ^^^ codeword (rowLoc e.1) 0 ^^^ codeword (rowLoc goal) 0)

/-- A plot enters CLEARING and leaves its partition (R137, R217 step 6); its arbiter requester is at its default (R463). -/
def Dev.startClearing (d : Dev) (n : Nat) : Dev :=
  (d.updPlot n fun x => { x with part := 0, logical := 0, state := .clearing, rewind := false, transit := [],
                                 icpLeave := false, icpLoading := false, icpRejoin := false, icpFrames := [] }).priDefaults
    [plotRequester n]

/-- Step 5 of a migration for one plot: frames rewritten since the copy, slots, block memory and REWIND are copied, the
logical number moves, and the destination takes the source's state (R217, R219). -/
def Dev.movePlot (d : Dev) (p logical src dst : Nat) : Dev :=
  let x := d.plot src
  let d0 := d.copyFrames src dst
  let rows := d0.fab.bram.filter fun e => decide (e.1 / 32768 = src)
  let d1 := { d0 with fab := { d0.fab with
    slots := copyTab d.fab.slots 524288 src dst, active := copyTab d.fab.active 65536 src dst,
    bram := d0.fab.bram.filter fun e => decide (e.1 / 32768 ≠ dst) } }
  let d2 := (rows.foldl (fun e r => e.moveBlockRow src dst r) d1).updPlot dst fun y =>
    { y with part := p, logical := logical, state := x.state, rewind := x.rewind, bmemZero := x.bmemZero }
  d2.startClearing src

/-- Step 5 and 6 of a migration (R217, R218): every plot of it moves, the switches and the extension are set, event 0x0210
and its ticket. The time the hold took is free (log 13). -/
def Dev.applyMig (d : Dev) (g : Mig) : Dev :=
  let p := g.part
  let d1 := g.moves.foldl (fun e m => e.movePlot p m.1 m.2.1 m.2.2) d
  let d2 := d1.updPart p fun q => { q with placement := q.placement.map fun pl =>
    { pl with map := (span 0 pl.map.length).map fun l =>
                match g.moves.find? fun m => decide (m.1 = l) with
                | some m => m.2.2
                | none => pl.map.getD l 0,
              netLens := g.lens, sched := extended pl.sched pl.compiled pl.nets g.lens } }
  let d3 := (d2.plotsOf p).foldl (fun e n =>
    e.updPlot n fun x => { x with transit := ((g.transit.find? fun t => decide (t.1 = n)).map (·.2)).getD [] }) d2
  let d4 := g.moves.foldl (fun e m => e.post 0x0210 (m.1 * 2 ^ 23 + m.2.1 * 2 ^ 9 + m.2.2) p) d3
  let m := g.moves.headD (0, 0, 0)
  { (d4.draw 1) with plc := { d4.plc with
      moveHold := (Config.freeWord d4.free).setWidth 21,
      migs := d4.plc.migs.filter fun y => !(decide (y.thread = g.thread) && decide (y.slot = g.slot)) } }.complete
    g.thread g.slot 0 (m.1 * 2 ^ 23 + m.2.1 * 2 ^ 9 + m.2.2)

/-- The migrations of a partition whose copy is complete proceed (R217 step 5, R219). -/
def Dev.applyMigs (d : Dev) (p : Nat) : Dev :=
  (d.plc.migs.filter fun g => decide (g.part = p) && g.copied).foldl Dev.applyMig d

/-- The logical plots that a migration of one moves: a pairing moves as a unit (R217). -/
def Part.moved (q : Part) (l : Nat) : List Nat :=
  match q.placement with
  | some pl => match pl.pairs.find? fun x => decide (x.p = l) || decide (x.q = l) with
    | some x => [l, if x.p = l then x.q else x.p]
    | none => [l]
  | none => [l]

/-- A migration ends before its move: its destinations enter CLEARING with event 0x0214, its ticket completes (R219). -/
def Dev.dropMig (d : Dev) (g : Mig) (code detail : Nat) : Dev :=
  let d1 := g.moves.foldl (fun e m => (e.startClearing m.2.2).post 0x0214 m.1 g.part) d
  { d1 with plc := { d1.plc with
      migs := d1.plc.migs.filter fun y => !(decide (y.thread = g.thread) && decide (y.slot = g.slot)) } }.complete g.thread g.slot code detail

/-- The MIGR whose step 1 runs for a partition: its search and logical plot. -/
def Dev.migrSearch (d : Dev) (p : Nat) : Option (Search × Nat) :=
  match d.plc.search with
  | some sr => match sr.migr with
    | some (l, _) => if sr.part = p ∧ (d.op sr.thread sr.slot).isSome then some (sr, l) else none
    | none => none
  | none => none

/-- Migrations of a partition before step 5 that move a plot of `f` are abandoned with 0x0214, step 1 of a MIGR among them; a later
migration of the partition was searched for on top of them and is abandoned too (R212, R219, R307; log 118). -/
def Dev.abandonMigs (d : Dev) (p : Nat) (f : Nat → Bool) : Dev :=
  let l := (d.plc.migs.filter fun g => decide (g.part = p)).dropWhile fun g => !g.moves.any fun m => f m.1
  let d1 := l.foldl (fun e g => e.dropMig g 0x0214 (g.moves.headD (0, 0, 0)).1) d
  match d1.migrSearch p with
  | some (sr, n) => if !l.isEmpty ∨ ((d1.part p).moved n).any f then (d1.post 0x0214 n p).complete sr.thread sr.slot 0x0214 n else d1
  | none => d1

end Sys2Proof.Machine
end

