-- ==== Sys2Proof/Machine/Repairs.lean ====
section
/-! DEFINITION. Keep registers as they are written and read (R71 to R75), and the repair map that they hold (R556 to R559, R561).
-/
namespace Sys2Proof.Machine
open Host

/-! ## Entries -/

/-- KIND of a repair-map entry (R556). -/
def repairKind (w : Nat) : Nat := bits w 28 4

/-- Entries of the repair map: keep index and word, registers 16 to 255 that are not free (R556). -/
def Dev.repairs (d : Dev) : List (Nat × Nat) :=
  ((span 16 240).map fun i => (i, d.keepVal i)).filter fun e => decide (e.2 ≠ 0)

/-- Physical plots that a KIND 1, 2 or 3 entry concerns (R556, R558). -/
def repairPlots (w : Nat) : List Nat :=
  let xy := bits w 20 8
  match repairKind w with
  | 1 => [xy, 256 + xy]
  | 2 => [xy]
  | 3 => [256 + xy]
  | _ => []

/-- The condition of R558 under which an entry of KIND 1, 2 or 3 comes into force or ceases to be. -/
def Dev.repairDue (d : Dev) (w : Nat) : Bool :=
  match repairKind w with
  | 1 => (repairPlots w).all fun n => match (d.plot n).state with
      | .ready | .running | .frozen => false
      | _ => true
  | 2 | 3 => (repairPlots w).all fun n => match (d.plot n).state with
      | .free | .mappedOut | .loading => true
      | _ => false
  | _ => false

/-- The range of a marl die (R342). -/
def dieRange (tower die : Nat) : Nat × Nat := (marlBase + tower * towerSize + die * 2 ^ 32, 2 ^ 32)

/-- No marl allocation, trace allocation, journal or staging area lies on a die (R561). Journals lie in allocations (R369). -/
def Dev.dieFree (d : Dev) (tower die : Nat) : Bool :=
  let r := dieRange tower die
  !meets r.1 r.2 stagingBase 0x800000 &&
  allParts.all fun p =>
    !(meets r.1 r.2 (d.traceRange p).1 (d.traceRange p).2) &&
    match (d.part p).marl with
    | some m => !meets r.1 r.2 m.1 m.2
    | none => true

/-- A tower enters FAILED with event 0x0340 and its reason: 1 training, 2 no spare bump, 3 die 0 mapped out (R344, R345, R384). -/
def Dev.failTower (d : Dev) (m reason : Nat) : Dev :=
  (d.updTower m fun t => { t with state := .failed, pause := false }).postSrc 0x0340 (m + reason * 2 ^ 8) 0 (towerStop m)

/-- A KIND 6 entry in force takes its die out; die 0 takes the whole tower out of service (R345, R384, R561). -/
def Dev.dieOut (d : Dev) (w : Nat) : Dev :=
  let m := bits w 26 2
  let die := bits w 22 4
  let e := d.updTower m fun t => { t with diesOut := t.diesOut ||| (1#12 <<< die) }
  if die = 0 then e.failTower m 3 else e

/-- Entries of a list of words come into force or cease to be, where `due` (R558). -/
def Dev.applyWhere (d : Dev) (due : Nat → Bool) : Dev :=
  let now := (d.repairs.map (·.2)) ++ d.rel.unrecorded.map (·.toNat)
  let kept := d.rel.applied.filter fun w => now.contains w.toNat || !due w.toNat
  let fresh := now.filter fun w => due w && !kept.contains (BitVec.ofNat 32 w)
  { d with rel := { d.rel with applied := kept ++ fresh.map (BitVec.ofNat 32) } }

/-- The repairs of fabric lanes and bonds whose plots allow it come into force (R558). -/
def Dev.applyRepairs (d : Dev) : Dev := d.applyWhere d.repairDue

/-- The repairs of an interface come into force at its training: KIND 7 of a tower, KIND 8 of a port, KIND 4 (R558). -/
def Dev.applyTraining (d : Dev) (kind unit : Nat) : Dev :=
  d.applyWhere fun w => decide (repairKind w = kind) && decide (bits w 26 2 = unit)

/-- A KIND 5 entry comes into force: the spare of its bank serves it. -/
def Dev.applyEntry (d : Dev) (w : Nat) : Dev :=
  { d with rel := { d.rel with
      applied := if d.rel.applied.contains (BitVec.ofNat 32 w) then d.rel.applied else d.rel.applied ++ [BitVec.ofNat 32 w] } }

/-- KIND 5 entries of the same die as `w`, other than keep index `i` (R561). -/
def Dev.dieSpares (d : Dev) (i w : Nat) : Nat :=
  (d.repairs.filter fun e => decide (e.1 ≠ i) && decide (repairKind e.2 = 5) && decide (bits e.2 22 6 = bits w 22 6)).length

/-- A KIND 5 entry can come into force: a die has four spare banks, and each stands in for one bank (R341, R561; log 117). -/
def Dev.spareFree (d : Dev) (w : Nat) : Bool :=
  let l := (d.rel.applied.map (·.toNat)).filter fun x => decide (repairKind x = 5) && decide (bits x 22 6 = bits w 22 6) && decide (x ≠ w)
  decide (l.length < 4) && l.all fun x => decide (bits x 10 2 ≠ bits w 10 2)

/-- What a changed register of the repair map does at once (R558, R561): bad-plot bits, KIND 5 copies, KIND 6 dies. -/
def Dev.repairChanged (d : Dev) (i old : Nat) : Dev :=
  let new := d.keepVal i
  if i < 16 then
    forAll (span (32 * i) 32) d fun d n =>
      if bit new (n % 32) ∧ !bit old (n % 32) then
        d.updPlot n fun x => if x.state = .free then { x with state := .mappedOut } else x
      else if bit old (n % 32) ∧ !bit new (n % 32) then
        (d.updPlot n fun x => if x.state = .mappedOut then { x with state := .clearing } else x).priDefaults [plotRequester n]
      else d
  else if i < 256 then
    let d0 := d.applyRepairs
    let d1 := { d0 with rel := { d0.rel with copies := d0.rel.copies.filter (· ≠ i) } }
    let d2 := if repairKind new = 5 then
        if 4 ≤ d1.dieSpares i new then d1.postSrc 0x0814 (bits new 0 28) 0 (towerStop (bits new 26 2))
        else { d1 with rel := { d1.rel with copies := d1.rel.copies ++ [i] } }
      else d1
    if repairKind new = 6 ∧ d2.dieFree (bits new 26 2) (bits new 22 4) then (d2.dieOut new).applyEntry new else d2
  else d

/-! ## Keep registers -/

/-- A write of keep register i (R71, R72): the value already stored is no write; one past 100,000 is refused and leaves WORN; the
90,000th posts its event. -/
def Dev.keepStore (d : Dev) (i : Nat) (v : BitVec 32) : Dev :=
  let x := d.keepReg i
  if 512 ≤ i ∨ x.value = v then d
  else if 100000 ≤ x.wcount then
    ({ d with keep := { d.keep with regs := tset d.keep.regs i { x with worn := true } } }).post 0x0A30 i
  else
    let y := { x with value := v, wcount := x.wcount + 1 }
    let d1 := { d with keep := { d.keep with
      regs := tset d.keep.regs i y,
      persisting := d.keep.persisting.filter (fun (e : Nat × BitVec 32) => decide (e.1 ≠ i)) ++ [(i, x.value)] } }
    let d2 := if x.wcount + 1 = 90000 then d1.post 0x0A31 i else d1
    d2.repairChanged i x.value.toNat

/-- The value of keep register i as it is read: zero, with READERR and event 0x0A32, where the stored bits are uncorrectable (R75).
-/
def Dev.keepRead (d : Dev) (i : Nat) (bad : Bool) : Dev × BitVec 32 :=
  if bad then ({ d with keep := { d.keep with readErr := true } }.post 0x0A32 i, 0) else (d, (d.keepReg i).value)

/-! ## Recording repairs -/

/-- A repair that training or a bond test found is written into the lowest free register, or used unrecorded (R557). -/
def Dev.recordRepair (d : Dev) (kind body : Nat) : Dev :=
  let w := kind % 16 * 2 ^ 28 + body % 2 ^ 28
  if (d.repairs.map (·.2)).contains w then d
  else match (span 16 240).find? fun i => decide (d.keepVal i = 0) with
    | some i => (d.keepStore i (BitVec.ofNat 32 w)).post 0x0811 i
    | none =>
      let d1 := { d with rel := { d.rel with unrecorded := d.rel.unrecorded ++ [BitVec.ofNat 32 w] } }
      d1.post 0x0812 kind

/-- A plot is marked bad (R559). -/
def Dev.markBad (d : Dev) (n : Nat) : Dev :=
  if bit (d.keepVal (n / 32)) (n % 32) then d
  else (d.keepStore (n / 32) (BitVec.ofNat 32 (d.keepVal (n / 32) + 2 ^ (n % 32)))).post 0x0811 (0xFFFF + n * 2 ^ 16)

/-- A plot with two or more recorded bond failures in one group cannot stream: it is marked bad (R559). -/
def Dev.markUnstreamable (d : Dev) (n : Nat) : Dev :=
  let kind := if n < 256 then 2 else 3
  let l := d.repairs.filter fun e => decide (repairKind e.2 = kind) && decide (bits e.2 20 8 = n % 256)
  if l.any fun e => decide (2 ≤ (l.filter fun f => decide (bits f.2 6 14 = bits e.2 6 14)).length) then d.markBad n else d

end Sys2Proof.Machine
end

