-- ==== Sys2Proof/Machine/Design.lean ====
section
/-! DEFINITION. The design cycle: user clock edges, dwells, refills, memory-model responses and writes, the boundary
(R160 to R167), configuration faults and automatic rewind (R169 to R172), clearing, refresh and verification (R137, R174 to
R178), and rejoined plots (R243). -/
namespace Sys2Proof.Machine
open Host

/-- The low 64 bits of the device serial number, ID_SERIAL (R66, R91). -/
def State.serial (s : State) : Nat := s.fuse.serial.toNat % 2 ^ 64

/-! ## Vertical lanes over a rewind (R119) -/

/-- A rewind re-enables the lanes that contention disabled and that are not failed, once the scrubber is done; they are
watched for a design cycle (R119). -/
def Plot.rearm (x : Plot) : Plot :=
  let keep := x.lanesOff.filter fun l => x.lanesFailed.contains l
  { x with lanesRearmed := x.lanesOff.filter (fun l => !x.lanesFailed.contains l), lanesOff := keep,
           vldis := BitVec.ofNat 13 keep.length }

/-- The lanes of a partition's plots over a rewind. -/
def Dev.rearmLanes (d : Dev) (p : Nat) : Dev := if (d.part p).scrubbing then d else d.updPlots p Plot.rearm

/-! ## Before a dwell -/

/-- The grain clock runs: not while its PLLs are lost or stopped (R37, R45, R57), nor before self-test has checked that every PLL
has locked (R55 step 3; log 6). -/
def Dev.clocked (d : Dev) : Bool :=
  d.sysClocked && !d.clk.stopped && !d.clk.bothLost && decide (d.boot.phase ≠ .selftest)

/-- The entry that the engine of a partition is at. -/
def Part.curEntry (q : Part) : Option Entry := q.placement.bind fun pl => pl.sched.entries[q.eng.entry]?

/-- The count of a partition's entries. -/
def Part.entries (q : Part) : Nat := match q.placement with | some pl => pl.sched.entries.length | none => 0

/-- USERCLK_EDGE: an edge of pin `pin` reaches every schedule engine (R43, R160, R163). -/
def execUserclkEdge (pin : Nat) (falling : Bool) (s : State) : Outcome State Fault Refusal :=
  s.work fun x =>
    if 8 ≤ pin ∨ !x.clocked then x
    else forAll allParts x fun d p =>
      match (d.part p).placement with
      | none => d
      | some pl =>
        let h := pl.sched.head.toNat
        d.updEng p fun e =>
          { e with edges := if e.edges.contains (pin, falling) then e.edges else (pin, falling) :: e.edges,
                   paceEdge := e.paceEdge ||
                     (bit h 12 && decide (bits h 13 3 = pin) && decide (bit h 16 = falling)) }

/-- A design cycle may start (R160 step 1): RUNNING, the boundary done, and paced. -/
def Dev.mayStart (d : Dev) (p : Nat) : Bool :=
  let q := d.part p
  decide (q.state = .running) && d.clocked && !q.eng.running && !q.eng.held && q.capture.isEmpty &&
  match q.placement with
  | some pl => !pl.sched.head.getLsbD 12 || q.eng.paceEdge
  | none => false

/-- The engine at the start of a design cycle: responses without a later MSYNC are presented (R161), counts clear (R365),
and a fault found in the refill of entry 0 belongs to this cycle (R169). -/
def Engine.start (e : Engine) : Engine :=
  { e with
    running := true, entry := 0, inDwell := false,
    faults := e.nextFaults, nextFaults := [],
    noAuto := false, paceEdge := false, probes := [], writes := [], applied := [], roDrop := false,
    ports := e.ports.map fun x => (x.1, { x.2 with
      dropped := 0, lost := 0, reads := 0, writes := 0, req := none, cur := none, range := if x.2.next.isSome then false else x.2.range,
      resp := x.2.next.getD x.2.resp, poison := if x.2.next.isSome then x.2.nextPoison else x.2.poison,
      next := none, nextPoison := false }) }

/-- DESIGN_CYCLE_START (R160 step 1, R235). -/
def execDesignCycleStart (p : Nat) (s : State) : Outcome State Fault Refusal :=
  s.work fun x => if x.mayStart p then (x.pinsLeaveSafe p).updEng p Engine.start else x

/-- The dwell the engine waits before may start: its context is in the shadow latches, and its waits are satisfied (R160 step 2, R167). -/
def Dev.dwellReady (d : Dev) (p : Nat) : Bool :=
  let q := d.part p
  decide (q.state = .running) && d.clocked && q.eng.running && !q.eng.inDwell && q.eng.filled &&
  match q.curEntry with
  | none => false
  | some e => (!e.msync || q.eng.ports.all fun x => x.2.req.isNone) &&
      match e.xwait with
      | some r => d.roundArrived p r
      | none => true

/-- The responses held are presented (R161, R364). -/
def Engine.present (e : Engine) : Engine :=
  { e with ports := e.ports.map fun x => (x.1, { x.2 with
      range := if x.2.next.isSome then false else x.2.range, resp := x.2.next.getD x.2.resp,
      poison := if x.2.next.isSome then x.2.nextPoison else x.2.poison, next := none, nextPoison := false }) }

/-- DWELL_START: the waits of the entry are satisfied, what they wait for is presented, and the context is swapped in, with the bits of the
latches that have changed; transit switches whose parity disagrees fault the cycle (R144, R160 steps 2 and 3, R161, R162, R205). -/
def execDwellStart (p : Nat) (upset : DwellUpset) (s : State) : Outcome State Fault Refusal :=
  s.work fun x =>
    if x.dwellReady p then
      match (x.part p).curEntry with
      | none => x
      | some e =>
        let d1 := if e.msync then x.updEng p Engine.present else x
        let d2 := match e.xwait with
          | some r => d1.presentRound p r (d1.part p).cycle.toNat false
          | none => d1
        let d3 := ((d2.swapLatches p).upsetActive p upset.latch).updEng p fun g => { g with inDwell := true, filled := false }
        (upset.transit.filter fun y => decide ((d3.plot y.1).part = p)).foldl (fun d y =>
          d.faultCycle p 0x0801 (cfgDetail y.1 e.ctx (y.2 % 512) 0 3) (some y.1) false) d3
    else x

/-- A refill may run: in a dwell, once; or before the first dwell of a design cycle where the shadow latches do not hold entry 0's context
(R147, R149, R167). -/
def Part.mayRefill (q : Part) : Bool :=
  decide (q.state = .running) && q.eng.running && !q.eng.filled && (q.eng.inDwell || decide (q.eng.entry = 0))

/-- The entry whose context a refill fetches: after a dwell the next one, or entry 0 of the next design cycle (R147). -/
def Part.refillEntry (q : Part) : Nat :=
  if q.eng.inDwell then (if q.eng.entry + 1 < q.entries then q.eng.entry + 1 else 0) else q.eng.entry

/-- The context of that entry. -/
def Part.refillCtx (q : Part) : Nat :=
  match q.placement.bind fun pl => pl.sched.entries[q.refillEntry]? with
  | some e => e.ctx
  | none => 0

/-- REFILL_END: the codewords are read, with the stored bits that have changed; corrections count, other failures are logged; the stream
words cross the bonds into the shadow latches, and each that arrives with wrong parity is a fault of the design cycle whose dwell would
run under it (R144 to R150, R169). -/
def execRefillEnd (p : Nat) (stored : List (CfgLoc × Nat × BitVec 80)) (bonds : List (CfgLoc × Nat × Nat × BitVec 4)) (s : State) :
    Outcome State Fault Refusal :=
  s.work fun x =>
    let q := x.part p
    if q.mayRefill ∧ x.clocked then
      let k := q.refillCtx
      let d1 := x.upsetStored (stored.filter fun y => (x.running p).contains y.1.plot && decide (y.1.ctx = k))
      let read := (d1.fab.kupsets.map (·.1)).filter fun i => (d1.running p).contains (keyPlot (i / 4)) && decide (keyCtx (i / 4) = k)
      let d2 := read.foldl (fun d i => d.noteQuarter (i / 4) (i % 4) (d.readQuarter (i / 4) (i % 4)).1) d1
      let d3 := d2.fillShadow p k bonds
      let next := q.eng.inDwell && decide (q.entries ≤ q.eng.entry + 1)
      ((d3.wrongLatches p d3.fab.shadow).foldl (fun d key =>
        if next then d.faultNext p 0x0801 (latchDetail key k 1) (some (key / 65536))
        else d.faultCycle p 0x0801 (latchDetail key k 1) (some (key / 65536)) false) d3).updEng p fun g => { g with filled := true }
    else x

/-- Both ends of vertical lane `lane` of plot a drive it, and nothing keeps them apart (R118). -/
def Dev.contends (d : Dev) (a lane : Nat) : Bool :=
  let drives := fun (m : Nat) => decide (bits (d.act m (lane / 4) (lane % 4)) 169 2 = 1)
  decide (a < 256) && d.fenceOpen a (a + 256) && drives a && drives (a + 256) && !(d.plot a).lanesOff.contains lane

/-- A lane contends in context ctx: it is disabled and logged, and the cycle is faulted; one that contends again in the first design cycle
after a rewind has failed (R118, R119). -/
def Dev.contention (d : Dev) (p a lane ctx : Nat) : Dev :=
  let failed := (d.plot a).lanesRearmed.contains lane
  let off := fun (y : Plot) =>
    { y with lanesOff := lane :: y.lanesOff, vldis := y.vldis + 1,
             lanesFailed := if failed then lane :: y.lanesFailed else y.lanesFailed }
  let d1 := (d.updPlot a off).updPlot (a + 256) off
  let d2 := { d1 with fab := { d1.fab with
    vlValid := true, vlCtx := BitVec.ofNat 3 ctx, vlPlot := BitVec.ofNat 9 a, vlLane := BitVec.ofNat 12 lane,
    vlCount := sat1 d1.fab.vlCount } }
  d2.faultCycle p 0x0802 (a * 2 ^ 23 + ctx * 2 ^ 20 + lane * 2 ^ 8) (some a) failed

/-- Lanes of a partition that both ends drive under the active latches: plot and lane (R118). -/
def Dev.contending (d : Dev) (p : Nat) : List (Nat × Nat) :=
  ((d.running p).filter fun n => decide (n < 256)).flatMap fun n =>
    ((d.latched n).filterMap fun key => if key % 64 < 4 then some (n, key / 64 % 1024 * 4 + key % 64) else none).filter fun x =>
      d.contends x.1 x.2

/-- VLANE_CONTENTION: both ends of a lane drive it in the context of the dwell, under the active latches with the bits of them that have
changed (R118, R119). -/
def execVlaneContention (p n lane : Nat) (latch : List (CfgLoc × BitVec 256)) (s : State) : Outcome State Fault Refusal :=
  s.work fun x =>
    let q := x.part p
    match q.curEntry with
    | none => x
    | some e =>
      if q.eng.inDwell ∧ q.state = .running ∧ lane < 4096 ∧ (x.plot (n % 256)).part = p then
        let d := x.upsetActive p latch
        if d.contends (n % 256) lane then d.contention p (n % 256) lane e.ctx else d
      else x

/-- DWELL_END: the dwell's microcycles, with the block-memory rows whose stored bits have changed; the slot check and the capture; lanes
that contend; the check of the active latches, with their bits that have changed; the outbound frames of an XSEND dwell, with the
bits that change on the way to the Norak exit; and the probe samples (R118, R151, R152, R160 steps 4 and 5, R487, R503). -/
def execDwellEnd (p : Nat) (latch : List (CfgLoc × BitVec 256)) (slots : List (CfgLoc × BitVec 6)) (rows : List (Nat × BitVec 80))
    (norakExit : Option (Nat × BitVec 512)) (s : State) : Outcome State Fault Refusal :=
  s.work fun x =>
    let q := x.part p
    match q.curEntry with
    | none => x
    | some e =>
      if q.state = .running ∧ x.clocked ∧ q.eng.running ∧ q.eng.inDwell ∧ q.eng.filled then
        let x1 := (x.upsetRows p rows).upsetSlots p (slots.filter fun y => decide (y.1.ctx = e.ctx))
        let v := Dev.microcycles p (e.steps - 1) (x1, {})
        let w := Dev.microcycle p v
        let d1 := v.1.captureAll p e.ctx v.2 (w.1.checkSlots p fun k => decide (k = e.ctx))
        let d2 := (d1.contending p).foldl (fun d y => d.contention p y.1 y.2 e.ctx) d1
        let d3 := d2.upsetActive p latch
        let d4 := (d3.wrongLatches p d3.fab.active).foldl (fun d key =>
          d.faultCycle p 0x0801 (latchDetail key e.ctx 2) (some (key / 65536)) false) d3
        let d5 := match e.xsend with
          | some r => d4.sendRound v.1 p v.2 r norakExit
          | none => d4
        (v.1.sampleXY p e.ctx v.2 d5).updEng p fun g => { g with inDwell := false, entry := g.entry + 1 }
      else x

/-! ## Memory models -/

/-- The stop a model's access goes through: the memory's, or the fabric for block memory (R608). -/
def Dev.modelSrc (d : Dev) (x : ModelAt) (off : Nat) : Nat := if x.tier = 1 then 0x45 else d.stopOf (x.addrAt off)

/-- A dwell still to start in this design cycle has MSYNC (R161). -/
def Part.msyncAhead (q : Part) : Bool :=
  match q.placement with
  | some pl => (pl.sched.entries.drop (q.eng.entry + b2n q.eng.inDwell)).any (·.msync)
  | none => false

/-- A port's response has arrived and is held for presentation (R161). -/
def Dev.respond (d : Dev) (p t : Nat) (l : List Byte) (poison : Bool) : Dev :=
  d.setPort p t fun m => { m with req := none, next := some l, nextPoison := poison }

/-- A read of a model's bytes in block memory finds what it finds: each row's codeword in turn, the outcome's change joining its row first
(R338, R339, R380). -/
def Dev.lookRows (d : Dev) (p : Nat) (x : ModelAt) (off n : Nat) (rd : ReadOutcome) : Dev × Option (Nat × Verdict) :=
  let keys := (span 0 ((n + 7) / 8)).filterMap fun i => d.modelRow p x (off + 8 * i)
  let e := match rd with
    | .upset w c => match keys[w]? with
      | some key => d.setRow key (d.rowWord key (d.row key) ^^^ c)
      | none => d
    | _ => d
  keys.foldl (fun (acc : Dev × Option (Nat × Verdict)) key =>
    match (acc.1.row key).map fun y => (readCode (rowLoc key) y.word).1 with
    | some .corrected => (acc.1.countCorrected 0 (rowLoc key), acc.2)
    | some .clean | none => acc
    | some v => (acc.1, acc.2.orElse fun _ => some (key, v))) (e, none)

/-- A port's request and its model (R361, R363). -/
def Dev.portRequest (d : Dev) (p port : Nat) : Option (Nat × ModelAt) :=
  match (tget (d.part p).eng.ports port {}).req, (d.part p).model (port / 4) with
  | some idx, some m => some (idx, m)
  | _, _ => none

/-- The plot of a port's carrier, and its stop. -/
def Dev.portPlot (d : Dev) (p port : Nat) (m : ModelAt) : Nat :=
  match m.carriers[port % 4]? with
  | some (lp, _) => (d.physical p lp).getD 0
  | none => 0

/-- A model read that cannot be used meets its class's UE policy: under BUSERR the response is presented as poisoned, else the design cycle
is faulted, with no automatic rewind (R380). -/
def Dev.portBad (d : Dev) (p port cl det src : Nat) (l : List Byte) : Dev :=
  let e := d.respond p port l true
  if d.busErr cl then e.postSrc 0x0311 det p src else e.faultCycle p 0x0310 det none true src

/-- A response whose carry code disagrees at the fabric's exit faults the design cycle that would see it, without a scrub (R425). -/
def Dev.portMoved (d : Dev) (p port stop : Nat) (l : List Byte) : Dev :=
  let e := { d with ime := { d.ime with ccFabric := sat1 d.ime.ccFabric } }.respond p port l false
  if (d.part p).msyncAhead then e.faultCycle p 0x0422 p none false stop else e.faultNext p 0x0422 p none stop

/-- A model read of partition p that a reset aborts: the design has its poisoned completion as a memory error under the class's UE policy, with
no design-cycle result (R79 step 6, R80). -/
def Dev.abortRead (d : Dev) (p port : Nat) : Dev :=
  match d.portRequest p port with
  | none => d
  | some (idx, m) =>
    let off := idx * m.width
    let a := m.addrAt off
    let cl := if m.tier = 1 then 0 else d.classOf a
    let det := if m.tier = 1 then ((d.modelRow p m off).map fun k => rowDetail (k / 32768) (k / 1024 % 32) (k % 1024)).getD 0 else addrDetail a
    let e := (d.respond p port (freeBytes d.free m.width) true).draw m.width
    e.postSrc (if d.busErr cl then 0x0311 else 0x0310) det p (d.modelSrc m off)

/-- Every model read of partition p that is still under way is aborted. -/
def Dev.abortReads (d : Dev) (p : Nat) : Dev :=
  ((d.part p).eng.ports.filter fun x => x.2.req.isSome).foldl (fun e x => e.abortRead p x.1) d

/-- MODEL_READ_RESPONSE: the content as it stood at the boundary before, or the class's UE policy (R161, R366, R380, R403,
R425, R453, R462); one that comes after the partition has frozen within its design cycle reaches no design cycle (R79 step 5, R136). -/
def execModelReadResponse (p port : Nat) (rd : ReadOutcome) (s : State) : Outcome State Fault Refusal :=
  s.work fun x =>
    match x.portRequest p port with
    | none => x
    | some (idx, m) =>
      if (x.part p).state ≠ .running then x.setPort p port fun y => { y with req := none }
      else
        let off := idx * m.width
        let at_ := x.portPlot p port m
        let stop := loamStop at_
        let y := ((x.sampleAccess p m off).answerModel p at_ port m off false (x.modelBytes p m off m.width)).draw m.width
        let moved := match rd with
          | .moved c => carryWrong c
          | _ => false
        if m.tier = 1 then
          let r := y.lookRows p m off m.width rd
          let data := r.1.modelBytes p m off m.width
          match r.2 with
          | some (key, v) =>
            let det := rowDetail (key / 32768) (key / 1024 % 32) (key % 1024)
            (r.1.logUe 0 (if v = .fold then 2 else 1) det).portBad p port 0 det 0x45 data
          | none => if moved then r.1.portMoved p port stop data else r.1.respond p port data false
        else
          let a := m.addrAt off
          let src := x.stopOf a
          let open_ := fun (e : Dev) => e.portBad p port (x.classOf a) (addrDetail a) src (freeBytes x.free m.width)
          if m.tier = 3 ∧ (x.arb stop (plotRequester at_ % 256)).quar then open_ (y.refuseQuar stop (plotRequester at_ % 256))
          else match x.refuse 0 m.keyid a m.width false with
          | some r => open_ (y.postRefuse r (67 + stop) m.keyid a false stop)
          | none => match y.look m.keyid a m.width rd false with
            | .halt e => e
            | .bad e z b =>
              if b = .moved then e.portMoved p port stop (x.memRead m.keyid a m.width)
              else if b = .abort then e.portBad p port (x.classOf a) (addrDetail a) src (freeBytes x.free m.width)
              else (e.noteBad b z).portBad p port (x.classOf z) (addrDetail z) src (e.memRead m.keyid a m.width)
            | .good e => e.respond p port (e.memRead m.keyid a m.width) false

/-- Every dwell of the design cycle has run and every read has been answered (R165 order 1, R366). -/
def Part.dwellsDone (q : Part) : Bool :=
  q.eng.running && !q.eng.inDwell && decide (q.entries ≤ q.eng.entry) && q.eng.ports.all fun x => x.2.req.isNone

/-- The first write in the order of R366, and the rest. -/
def firstWrite : List ModelWrite → Option (ModelWrite × List ModelWrite)
  | [] => none
  | w :: r => match firstWrite r with
    | none => some (w, [])
    | some (m, l) =>
      if m.entry * 4096 + m.port < w.entry * 4096 + w.port then some (m, w :: l) else some (w, m :: l)

/-- MODEL_WRITE_ACK: the next write of the design cycle in the order of R366 is applied, after its journal records (R165
order 1, R366, R370, R372, R376, R403, R425). -/
def execModelWriteAck (p : Nat) (rd : ReadOutcome) (s : State) : Outcome State Fault Refusal :=
  s.work fun x =>
    let q := x.part p
    match firstWrite q.eng.writes with
    | none => x
    | some (w, rest) =>
      if q.state = .running ∧ q.dwellsDone then
        let d1 := x.updEng p fun g => { g with writes := rest, applied := g.applied ++ [w] }
        match q.model (w.port / 4) with
        | none => d1
        | some m =>
          let n := x.portPlot p w.port m
          let d2 := (d1.sendModel p n w.port m w.off (some w.bytes)).answerModel p n w.port m w.off true []
          ((d2.modelWrite p m w.off w.bytes rd).ifOpen fun e => e.journalCheck p)
      else x

/-! ## The boundary -/

/-- Design clock c ticks in design cycle k (R163). -/
def Part.ticks (q : Part) (c : Nat) : Bool :=
  match q.placement with
  | none => false
  | some pl =>
    let t := bits pl.sched.ticks.toNat (8 * c) 8
    let arg := bits t 0 6
    match bits t 6 2 with
    | 1 => true
    | 2 => decide (q.cycle.toNat % (arg + 1) = 0)
    | 3 => q.eng.edges.contains (bits arg 0 3, bit arg 3)
    | _ => false

/-- Event 0x0320 of a design cycle in which a port dropped an access (R365, R384); writes to a read-only model have their own event
(R367). -/
def Dev.dropEvent (d : Dev) (p : Nat) : Dev :=
  let l := (d.part p).eng.ports
  match l.find? fun x => decide (0 < x.2.lost) with
  | some x =>
    let n := (l.filter fun y => decide (y.1 / 4 = x.1 / 4)).foldl (fun a y => a + y.2.lost) 0
    d.post 0x0320 (x.1 / 4 * 2 ^ 22 + n) p
  | none => d

/-- The automatic rewind of R170 step 5 begins, or event 0x0805 says of each plot with a second fault that it does not (R171). -/
def Dev.afterFault (d : Dev) (serial p : Nat) : Dev :=
  let q := d.part p
  let again := q.faultPlots.filter fun n => q.lastAuto.any fun e => decide (e.1 = n)
  if q.state ≠ .frozen then d
  else if !again.isEmpty then again.foldl (fun e n => e.post 0x0805 (n * 2 ^ 23) p) d
  else if q.eng.noAuto then d
  else match q.lastSnap with
    | some sn =>
      if q.autoRw && !q.cut && d.snapValid serial p sn.addr then
        d.updPart p fun q => { q with rewinding := some { addr := sn.addr, auto := true, thread := 65, slot := 0 } }
      else d
    | none => d

/-- Plots that the scrubber checks after a fault: the one it was found in, and the other end of a lane that contended (R119, R170 step 4).
-/
def FaultRec.scrubs (f : FaultRec) : List Nat :=
  match f.plot with
  | some n => if f.code = 0x0801 then [n] else if f.code = 0x0802 then [n, overPlot n] else []
  | none => []

/-- The boundary of a faulted design cycle: every fault found posts its event, the partition is FROZEN with REWIND set and with its pending
DESIGN writes, and the scrubber has the plots of configuration checks to go through (R165 order 2, R170 steps 3 to 6, R494). -/
def Dev.faultBoundary (d : Dev) (serial p : Nat) : Dev :=
  let q := d.part p
  let e := q.eng
  let d1 := e.faults.foldl (fun d f => d.postSrc f.code.toNat f.detail.toNat p f.src) d
  let scrub := (e.faults.flatMap FaultRec.scrubs).eraseDups
  let d2 := ((d1.updPlots p fun x => { x with rewind := true }).plotsTo p .frozen).updPart p fun r =>
    { r with state := .frozen, eng := { r.eng.drop true with noAuto := e.noAuto, edges := [] },
             faultPlots := (e.faults.filterMap (·.plot)).eraseDups, scrubPlots := scrub,
             scrubbing := !scrub.isEmpty, resume := !d.freezeDue p }
  let d3 := (((d2.noTripCapture p).frozenTickets p).partResetFrozen p)
  let d4 := if q.cut then d3.startGroupFreeze p else d3
  if scrub.isEmpty then d4.afterFault serial p else d4

/-- User pins take the design's outputs of the commit (R166, R235). A bank below its minimum stays high-impedance (R591).
-/
def Dev.commitPins (d : Dev) (p : Nat) (pins : List (Nat × Bool)) : Dev :=
  let mine := d.pinsOf p
  pins.foldl (fun e x =>
    if mine.contains x.1 && !d.fab.vccioLow.contains (x.1 / 48) then
      { e with pins := tset e.pins x.1 { drive := driveOf x.2, driven := true } }
    else e) d

/-- The commit (R165 orders 3 and 4): slots, block memory, the design cycle number, the inbound rounds no dwell waits for
(R162), the 1,024 design cycles of R171, and the meter's increment (R569). -/
def Dev.commit (d : Dev) (p : Nat) : Dev :=
  let q := d.part p
  let k := q.cycle.toNat
  let d1 := (d.commitSlots p q.ticks).commitBlocks p q.ticks
  let d2 := d1.updPart p fun r =>
    { r with cycle := r.cycle + 1, dcycInc := r.dcycInc + 1, migrCycles := r.migrCycles + 1,
             lastAuto := r.lastAuto.filterMap fun e => if e.2 ≤ 1 then none else some (e.1, e.2 - 1) }
  let waited := fun (r : Nat) => match q.placement with
    | some pl => pl.sched.entries.any fun e => decide (e.xwait = some r)
    | none => false
  let d3 := forAll ((span 0 16).filter fun r => !waited r) d2 fun e r => e.presentRound p r k true
  (d3.updPlots p fun x => { x with lanesRearmed := [] }).updEng p fun e =>
    { e with running := false, entry := 0, edges := [], applied := [] }

/-- A capture of a trip is taken at the freezing boundary, or event 0x0709 says that it is not (R540 steps 3 and 4). -/
def Dev.tripCapture (d : Dev) (serial p : Nat) : Dev :=
  let q := d.part p
  let w := q.tsnap.toNat
  if d.ime.sealed ∨ !d.thm.trip ∨ !bit w 63 then d
  else
    let k := q.keyAt (bits w 56 3)
    let a := bits w 20 24 * 2 ^ 20
    let tower := (a - marlBase) / towerSize
    let x : Snap := { addr := k * 2 ^ 48 + a, thread := 65 }
    if d.rst.svc.isSome then d.post 0x0709 (p + 4 * 2 ^ 8) p
    else if d.thm.towerTrip.contains tower then d.post 0x0709 (p + 1 * 2 ^ 8) p
    else if !d.snapAreaOk p x.addr then d.post 0x0709 (p + 3 * 2 ^ 8) p
    else match d.snapRefused p x.addr with
      | some y => (d.postRefuse y.1 0 y.2.1 y.2.2.1 y.2.2.2 1).post 0x0709 (p + 3 * 2 ^ 8) p
      | none => d.captureStart serial p x

/-- A WRITE to a logical plot is in flight at the ICP (R243 step 3). -/
def Dev.icpBusy (d : Dev) (p logical : Nat) : Bool :=
  d.icp.any fun r => decide (r.part = p) && decide (r.plot = logical) && decide (r.count ≠ 0)

/-- A plot rejoins (R243 step 4, R244): the slots of each frame written take INIT, the digest and root are derived afresh,
and the plot takes the partition's plot state; every REJOIN that waits for it is answered. -/
def Dev.rejoinPlot (d : Dev) (p n : Nat) : Dev :=
  let x := d.plot n
  let d1 := x.icpFrames.foldl (fun e f => e.initFrame n f.1 f.2) d
  let st : PlotState := if (d.part p).state = .running then .running else .frozen
  let d2 := d1.updPlot n fun y => { y with state := st, icpLoading := false, icpRejoin := false, icpFrames := [] }
  let d3 := ((d2.recordDigest p x.logical).updateRoot p).updPart p fun q => { q with rooted := (d.part p).rooted }
  let d4 := (d3.invalidateSnaps p).post 0x0111 x.logical p
  (d4.icp.filter fun r => decide (r.part = p) && decide (r.count = 0) && decide (r.plot = x.logical)).foldl (fun e r => e.icpAnswer r 0 0) d4

/-- Room for a page in a partition's marl allocation: none of its models, pages, journal or snapshots lies there (R215). -/
def Dev.pageRoom (d : Dev) (p : Nat) : Option Nat :=
  let q := d.part p
  let busy := fun (a : Nat) =>
    (q.marlModels.any fun y => meets a 4096 y.base y.size) || (q.promotedPages.any fun e => decide (e.2.2 = a)) ||
    (match q.placement.bind (·.jrnl) with | some (jb, jm) => meets a 4096 jb jm | none => false) ||
    ((q.snaps ++ q.capture).any fun c => meets a 4096 (c.addr % 2 ^ 48) c.size)
  q.marl.bind fun m => ((span 0 (m.2 / 4096)).find? fun i => !busy (m.1 + 4096 * i)).map fun i => m.1 + 4096 * i

/-- The promoted page with the lowest count of the period (R215). -/
def Part.coldest (q : Part) : Option (ModelAt × Nat × Nat) :=
  let count := fun (e : ModelAt × Nat × Nat) =>
    ((q.pageCounts.find? fun c => decide (c.1 = e.1.model) && decide (c.2.1 = e.2.1)).map (·.2.2)).getD 0
  q.promotedPages.foldl (fun acc e => match acc with
    | some y => if count e < count y then some e else acc
    | none => some e) none

/-- A page of 4 KiB moves by row moves, unless the IME refuses an access or a line of it cannot be used (R216, R346, R380, R403; log 128):
whether it has moved. -/
def Dev.movePage (d : Dev) (p : Nat) (x : ModelAt) (s t : Nat) : Dev × Bool :=
  match d.refuse 0 x.keyid s 4096 false, d.refuse 0 x.keyid t 4096 true with
  | some r, _ => (d.postRefuse r 0 x.keyid s false 1, false)
  | none, some r => (d.postRefuse r 0 x.keyid t true 1, false)
  | none, none =>
    let r := (d.draw 4096).moveRows x.keyid s x.keyid t p 65 .clean 4
    (r.1, r.2.isNone && !r.1.ime.sealed)

/-- The pages of a model changed. -/
def Dev.setPages (d : Dev) (p m : Nat) (f : Tab Nat → Tab Nat) : Dev :=
  d.updPart p fun q => q.updModels fun y => if y.model = m then { y with pages := f y.pages } else y

/-- A page that waits for promotion moves to marl at the boundary (R215, R216, R370): into room of the marl allocation, or into that of the
page with the lowest count, which goes back to DDR5 first. Answered are how many pages were promoted and demoted. -/
def Dev.promotePage (d : Dev) (p : Nat) (m pg : Nat) : Dev × Nat × Nat :=
  match (d.part p).model m with
  | none => (d, 0, 0)
  | some x =>
    if !x.inDdr (4096 * pg) ∨ x.nomigr ∨ (d.keyid x.keyid).mode = .verified then (d, 0, 0)
    else
      let move := fun (e : Dev) (a : Nat) =>
        let e1 := if x.journal then (span (64 * pg) 64).foldl (fun e l => e.journalLine p x l) e else e
        let r := e1.movePage p x (x.addrAt (4096 * pg)) a
        if r.2 then (r.1.setPages p m fun t => tset t pg a, 1) else (r.1, 0)
      match d.pageRoom p with
      | some a => let r := move d a; (r.1, r.2, 0)
      | none => match (d.part p).coldest with
        | none => (d, 0, 0)
        | some y =>
          let back := d.movePage p y.1 y.2.2 (y.1.base + 4096 * y.2.1)
          if !back.2 then (back.1, 0, 0)
          else
            let r := move (back.1.setPages p y.1.model fun t => tdel t y.2.1) y.2.2
            (r.1, r.2, 1)

/-- Page promotions of a boundary, with event 0x0213 (R215, R212). -/
def Dev.promotePages (d : Dev) (p : Nat) : Dev :=
  let q := d.part p
  let l := q.promote.take (min 64 q.migr.maxPages.toNat)
  if l.isEmpty then d
  else
    let r := l.foldl (fun (s : Dev × Nat × Nat) x =>
      let t := s.1.promotePage p x.1 x.2
      (t.1, s.2.1 + t.2.1, s.2.2 + t.2.2)) (d, 0, 0)
    let d1 := r.1.updPart p fun q => { q with promote := q.promote.drop l.length }
    if r.1.ime.sealed then r.1 else
    let d2 := { d1 with plc := { d1.plc with
      promoted := satAdd d1.plc.promoted r.2.1, demoted := satAdd d1.plc.demoted r.2.2 } }
    if r.2.1 + r.2.2 = 0 then d2 else (d2.post 0x0213 (r.2.1 * 2 ^ 16 + r.2.2) p).journalCheck p

/-- Order 7 of the boundary has work to do for a partition (R165, R167). -/
def Dev.boundaryDue (d : Dev) (p : Nat) : Bool :=
  (d.plc.migs.any fun g => decide (g.part = p) && g.copied) || !(((d.part p).promote.take (min 64 (d.part p).migr.maxPages.toNat)).isEmpty) ||
    ((d.plotsOf p).any fun n => (d.plot n).icpLeave || ((d.plot n).icpRejoin && !d.icpBusy p (d.plot n).logical)) || decide (d.seq.swap = 3)

/-- Order 7 of the boundary (R165): plot migration, page moves, plots leaving for and rejoining from the ICP, a live swap's
hold, and selections that take effect (R217, R243, R291, R322). -/
def Dev.boundaryWork (d : Dev) (p : Nat) : Dev :=
  if d.ime.sealed then d else
  let d1 := (d.applyMigs p).promotePages p
  if d1.ime.sealed then d1 else
  let d2 := (d1.plotsOf p).foldl (fun e n =>
    if (e.plot n).icpLeave then e.updPlot n fun x => { x with state := .loading, icpLeave := false, icpLoading := true }
    else if (e.plot n).icpRejoin && !e.icpBusy p (e.plot n).logical then e.rejoinPlot p n else e) d1
  let d3 := d2.takeSelections p
  let d4 := if d.boundaryDue p then d3.updEng p Engine.unfill else d3
  if d4.seq.swap = 3 ∧ (d4.part p).state = .running then d4.updEng p fun e => { e with held := true } else d4

/-- DESIGN_CYCLE_BOUNDARY (R165): the whole boundary after a design cycle. `pins` are the design's outputs, `slots` the state
slots whose bits have changed at the commit, `ns` the time since the last PROBE_OUT update, `room` whether the trace
writer has room. -/
def execDesignCycleBoundary (p : Nat) (pins : List (Nat × Bool)) (slots : List (CfgLoc × BitVec 6)) (ns : Nat) (room : Bool)
    (s : State) : Outcome State Fault Refusal :=
  s.work fun x =>
    let q := x.part p
    if q.state = .running ∧ x.clocked ∧ q.dwellsDone ∧ q.eng.writes.isEmpty ∧ x.allArrived p then
      let d0 := ((x.dropEvent p).upsetSlots p slots).checkSlots p fun k => decide (k < ctxCount q.ctx)
      if !(d0.part p).eng.faults.isEmpty then d0.faultBoundary s.serial p
      else
        let k := q.cycle.toNat
        let d1 := (d0.commit p).commitPins p pins
        let now := d1.sampleWords p
        let t := d1.evalTriggers p k now
        (t.1.traceStep p k now t.2 room).ifOpen fun e =>
          let d2 := e.poutStep p k now ns
          let ends := decide ((d2.part p).count = some (k + 1))
          let d3 := if ends ∨ d2.freezeDue p then
              (if ends then d2.endCount p 0 else d2).enterFrozen p
            else d2
          let d4 := (d3.part p).snapReq.foldl (fun e y => e.takeSnap s.serial p y) d3
          let d5 := d4.updPart p fun r => { r with snapReq := [] }
          let d6 := if (d5.part p).state = .running then d5 else d5.tripCapture s.serial p
          d6.boundaryWork p
    else x

/-! ## After a fault -/

/-- CONFIG_FAULT_SCRUB_DONE: every codeword of the plots of the fault, in every context, has been checked with the stored bits that have
changed, and corrected where it can be; the automatic rewind may begin (R119, R170 steps 4 and 5). -/
def execConfigFaultScrubDone (y : ScrubEnd) (s : State) : Outcome State Fault Refusal :=
  s.work fun x =>
    let p := y.part
    let q := x.part p
    if q.scrubbing then
      let d := (x.upsetStored (y.stored.filter fun z => q.scrubPlots.contains z.1.plot)).scrubPlots fun n => q.scrubPlots.contains n
      (d.updPart p fun q => { q with scrubbing := false, scrubPlots := [] }).afterFault s.serial p
    else x

/-- A rewind whose snapshot cannot be read: the partition is HALTED, with event 0x0128 (R226, R316). -/
def Dev.rewindHalt (d : Dev) (p addr : Nat) : Dev :=
  ((d.post 0x0128 (addrDetail (addr % 2 ^ 48)) p).updPart p fun q => { q with state := .halted, rewinding := none }).pinsSafe p

/-- AUTO_REWIND_DONE: the snapshot is restored and the partition returns to the run it was making, with event 0x0804, or stays FROZEN where
a freeze has become due; one that cannot be read halts it (R46, R170 step 5, R171, R226, R316). -/
def execAutoRewindDone (p : Nat) (rd : ReadOutcome) (s : State) : Outcome State Fault Refusal :=
  s.work fun x =>
    let q := x.part p
    match q.rewinding with
    | none => x
    | some w =>
      if !w.auto ∨ q.state ≠ .frozen then x
      else if (x.arb 49 66).quar then (x.refuseQuar 49 66).rewindHalt p w.addr
      else x.readFor (x.rewindReads p w.addr) rd p (fun e _ => e.rewindHalt p w.addr) fun e =>
        (e.restoreSnap p w.addr 66).ifOpen fun y =>
          let d1 := y.rearmLanes p
          let go := q.resume && !d1.freezeDue p
          let d2 := d1.updPart p fun r =>
            { r with rewinding := none, resume := false, lastAuto := q.faultPlots.foldl (fun t n => tset t n 1024) r.lastAuto,
                     faultPlots := [], state := if go then .running else .frozen }
          let d3 := if go then d2.plotsTo p .running else d2
          d3.post 0x0804 (d3.cycleLow p) p

/-! ## Clearing, refresh, verification -/

/-- Physical plot n is bad in the repair map's keep registers (R556). -/
def Dev.badPlot (d : Dev) (n : Nat) : Bool := bit (d.keepVal (n / 32)) (n % 32)

/-- PLOT_CLEARING_DONE: configuration, slots and block memory are zero; the plot is FREE, or MAPPED_OUT when its bad-plot
bit is set (R137, R558). -/
def execPlotClearingDone (n : Nat) (s : State) : Outcome State Fault Refusal :=
  s.work fun x =>
    if (x.plot n).state = .clearing then
      let d1 := (x.zeroPlot n).zeroBlocks n
      (d1.updPlot n fun y =>
        { y with state := if x.badPlot n then .mappedOut else .free, part := 0, logical := 0, rewind := false,
                 transit := [], vldis := 0, lanesOff := [], lanesRearmed := [], lanesFailed := [] }).applyRepairs
    else x

/-- VERIFICATION_PASS_DONE: every codeword of the plots that are READY, RUNNING or FROZEN has been read, with the stored bits that have
changed, and corrected where it can be, and their digests are derived; a plot with a word that cannot be read, or whose digest is not
the one recorded, leaves its partition FROZEN and damaged, with event 0x0806 (R178, R549). -/
def execVerificationPassDone (stored : List (CfgLoc × Nat × BitVec 80)) (s : State) : Outcome State Fault Refusal :=
  s.work fun x =>
    if !x.clk.verify ∨ !x.clocked then x
    else
      let covered := fun (n : Nat) => (x.plot n).inDesign && decide ((x.plot n).part ≠ 0)
      let d0 := (x.upsetStored (stored.filter fun y => covered y.1.plot)).scrubPlots covered
      let d1 := (allPlots.filter covered).foldl (fun (d : Dev) n =>
        let y := d.plot n
        let word := !(d.badWords n).isEmpty
        let differs := match d.recorded y.part n with
          | some r => decide (d.derived n ≠ r)
          | none => false
        if word || differs then (d.post 0x0806 (n * 2 ^ 23 + if word then 1 else 2) y.part).addDamage y.part y.logical else d) d0
      { d1 with clk := { d1.clk with verify := false } }

/-- Refresh band of a region's tier (R175): a trip refreshes as band C. -/
def Dev.regionBand (d : Dev) (n : Nat) : Nat := min 2 (if n < 256 then d.thm.bandKA else d.thm.bandKB)

/-- CONFIG_REFRESH_TICK: a region's tick count goes up by one. While the grain clock runs, the region refreshes 16 rows for each step of the
gray-coded count since it last saw it, so that ticks of the time in which it stood are made up; at the end of a pass a catch-up ends and a
lower band's tick period applies (R174, R176, R178; log 105). -/
def execConfigRefreshTick (n : Nat) (s : State) : Outcome State Fault Refusal :=
  s.run fun x =>
    if 512 ≤ n then x
    else
      let count := tget x.fab.refreshTicks n 0 + 1
      let x1 := { x with fab := { x.fab with refreshTicks := tset x.fab.refreshTicks n count } }
      if !x.clocked then x1
      else
        let steps := (count - ungray (tget x.fab.refreshSeen n 0)).toNat
        let r := tget x.fab.refreshRow n 0 + 16 * steps
        let wrap := decide (16384 ≤ r)
        { x1 with fab := { x1.fab with
            refreshRow := tset x.fab.refreshRow n (r % 16384), refreshSeen := tset x.fab.refreshSeen n (gray count),
            catchUp := if wrap then x.fab.catchUp.filter (· ≠ n) else x.fab.catchUp,
            refreshBand := if wrap then tset x.fab.refreshBand n (x.regionBand n) else x.fab.refreshBand } }

end Sys2Proof.Machine
end

