-- ==== Sys2Proof/Machine/Devops.lean ====
section
/-! DEFINITION. Device instructions: what is checked when a DEV issues and what its post does (R277, R278, R283, R295 to R297),
the work held during a SERVICE reset (R284), and the failures that operations share (R298). -/
namespace Sys2Proof.Machine
open Host

/-- A bit of a number outside an assigned mask is set (R295). -/
def unassigned (w : Word) (mask : Nat) : Bool := decide (w &&& ~~~(BitVec.ofNat 64 mask) ≠ 0)

/-- The partition number of gA (R295). -/
def partOf (a : Word) : Nat := bits a.toNat 0 7

/-- A thread may name a partition (R283, R295): its own, T0 any, and T0 zero where the operation allows it. -/
def mayName (n p : Nat) (zeroOk : Bool) : Bool :=
  if n = 0 then (zeroOk && decide (p = 0)) || (decide (1 ≤ p) && decide (p ≤ 64)) else decide (p = n)

/-- A system address in gB is one that a thread may name in marl or DDR5, or in marl alone (R297). -/
def Dev.startAddrOk (d : Dev) (n : Nat) (a : Word) (marlOnly : Bool) : Bool :=
  decide (a.toNat < 2 ^ 54) && decide (addrOf a < marlEnd) && (!marlOnly || decide (marlBase ≤ addrOf a)) &&
    d.mayAccess n a 1 (!marlOnly)

/-- What a DEV checks when it issues (R277, R285): rights of its operands, the operand block at gB with its length and whether
it is written, and a start address at gB. -/
structure DevCheck where
  /-- the thread may issue it with this gA -/
  rights : Bool
  /-- operand block at gB: bytes, and whether results are written into it -/
  block : Option (Nat × Bool) := none
  /-- the start address at gB is the thread's to name -/
  addr : Bool := true
  deriving DecidableEq, Repr

/-- The rights trap of a DEV, as TVAL: 0 for an operand, a start address among them, else the address of the operand block (R285, R297). -/
def Dev.devFault (d : Dev) (n : Nat) (b : Word) (c : DevCheck) : Option Word :=
  if !c.rights then some 0
  else match c.block with
    | some (len, wr) =>
      if !(if wr then d.mayStore n b.toNat len else d.mayLoad n b.toNat len) then some b else none
    | none => if !c.addr then some 0 else none

/-- Operations that name a subsystem a SERVICE reset resets (R76, R284): those that use memory, the IME, the ICP, the
trace writer or Norak. -/
def resetsWith (o : Op) : Bool :=
  [0x01, 0x02, 0x04, 0x0A, 0x0B, 0x0C, 0x0D, 0x0E, 0x0F, 0x10, 0x13, 0x14, 0x18, 0x1A].contains o.dop ||
    (decide (o.dop = 0x11) && decide (bits o.a.toNat 8 2 = 2))

/-- A posted operation is held: from step 4 to step 9 of a SERVICE reset when it names a subsystem being reset, and behind a
held operation of its partition (R79, R284). -/
def Dev.holds (d : Dev) (o : Op) : Bool :=
  (match d.rst.svc with
    | some .waiting => resetsWith o && allParts.all fun p => decide ((d.part p).state ≠ .running)
    | some _ => resetsWith o
    | none => false) ||
  (decide (o.part ≠ 0) && d.ops.any fun x => decide (x.part = o.part) && decide (x.phase = .held))

/-- An operation is outstanding, the one of its slot. -/
def Dev.addOp (d : Dev) (o : Op) : Dev :=
  { d with ops := (d.ops.filter fun x => !(decide (x.thread = o.thread) && decide (x.slot = o.slot))) ++ [o] }

/-- A DEV issues (R277, R278, R294): traps by priority, else a free slot is taken with the next generation, its ticket goes to
gD, what its `post` does is done, and the operation starts, or is held; the free values it read are its own. -/
def Dev.devIssue (d : Dev) (i : Issue) (dop : Nat) (r a b : BitVec 5) (part : Word → Nat)
    (check : Dev → Nat → Word → Word → DevCheck) (start : Dev → Op → Dev) (post : Dev → Op → Dev := fun e _ => e) : Dev :=
  d.issue i (wordV dop r a b) fun e =>
    let n := i.thread
    let t := e.thr n
    let va := t.reg a
    let vb := t.reg b
    let c := check e n va vb
    match e.devFault n vb c with
    | some v => e.trap n 0x0903 v
    | none =>
      if c.block.isSome ∧ vb.toNat % 8 ≠ 0 then e.trap n 0x0905 vb
      else match t.freeSlot with
        | none => e.trap n 0x0904 0
        | some s =>
          let gen := (t.slot s).gen + 1
          let o : Op := { thread := n, slot := s, dop := dop, a := va, b := vb, part := part va, order := e.seq.nextOrder }
          let e1 := post ({ e with seq := { e.seq with nextOrder := e.seq.nextOrder + 1 } }.updThr n fun t =>
            { t.setReg r (ticket n s gen) with
              pc := t.pc + 4,
              slots := tset t.slots s { gen := gen, busy := true, done := none, order := o.order } }) o
          if e1.holds o then e1.addOp { o with phase := .held } else (start (e1.addOp o) o).draw 1

/-- An operation ends with a code and detail. -/
def Dev.fail (d : Dev) (o : Op) (code detail : Nat) : Dev := d.complete o.thread o.slot code detail

/-- An operation that the partition's state does not allow: event 0x010A and its ticket (R226, R255). -/
def Dev.refuseOp (d : Dev) (o : Op) (reason : Nat) : Dev := (d.post 0x010A reason o.part).fail o 0x010A reason

/-- An operation ends with the event of its failure (R212, R255, R298). -/
def Dev.failEvt (d : Dev) (o : Op) (code detail : Nat) : Dev := (d.post code detail o.part).fail o code detail

/-- Detail of 0x0913 for gA, gB and a range learned from memory (R298). -/
def badA : Nat := 0x80000000
/-- see badA -/
def badB : Nat := 0x80000001
/-- see badA -/
def badRange : Nat := 0x80000002

/-- The feature set is not locked: 0x0910 (R70, R298). -/
def Dev.needLock (d : Dev) (o : Op) (body : Dev → Dev) : Dev :=
  if d.boot.locked then body d else d.fail o 0x0910 0xFFFFFFFF

/-- A feature is needed that was not accepted: 0x0910 (R70, R298). -/
def Dev.needFeat (d : Dev) (o : Op) (k : Nat) (body : Dev → Dev) : Dev :=
  if !d.boot.locked then d.fail o 0x0910 0xFFFFFFFF else if d.feat k then body d else d.fail o 0x0910 k

/-- gA and gB hold no unassigned bit (R295). -/
def Dev.needBits (d : Dev) (o : Op) (maskA maskB : Nat) (body : Dev → Dev) : Dev :=
  if unassigned o.a maskA then d.fail o 0x0913 badA
  else if unassigned o.b maskB then d.fail o 0x0913 badB
  else body d

/-- The bytes of an operand block (R296). -/
def Dev.block (d : Dev) (o : Op) (n : Nat) : List Byte := d.memRead 0 (seqAddr o.b.toNat) n

/-- An operation reads its operand block, in sequencer memory; a read that fails ends it with 0x0916, by `fail` (R296, R298, R380). -/
def Dev.readBlock (d : Dev) (o : Op) (n : Nat) (body : Dev → Dev)
    (fail : Dev → Nat → Dev := fun e y => e.fail o 0x0916 (addrDetail y)) : Dev :=
  match d.lookPlain (seqAddr o.b.toNat) n .clean with
  | (e, some (y, b)) => fail (e.opReadBad b y o.part) y
  | (e, none) => body e

/-- A read that an operation makes under a KeyID: one that fails ends it with 0x0916 (R298, R380, R403). -/
def Dev.opRead (d : Dev) (o : Op) (k a n : Nat) (rd : ReadOutcome) (body : Dev → Dev) : Dev :=
  d.readFor [(k, a, n)] rd o.part (fun e y => e.fail o 0x0916 (addrDetail y)) body

end Sys2Proof.Machine
end

