-- ==== Sys2Proof/Machine/Placer.lean ====
section
/-! DEFINITION. The placer's decisions (R199 to R209): inputs, tier assignment, cost, the plots that steps 3 and 4 take, the
improvement swaps, routing, and the destination of a migration (R217). What R209 leaves to the placer firmware, the swaps of step 5
and the choice among shortest routes, comes with PLACE_SEARCH_DONE and is held to the rules here. -/
namespace Sys2Proof.Machine
open Host

/-! ## Inputs (R199, R200) -/

/-- The inputs that the placer takes for a partition when it starts (R199). -/
def Dev.placeIn (d : Dev) (p : Nat) : PlaceIn :=
  { plots := (d.part p).plots, cc := ctxCount (d.part p).ctx,
    free := allPlots.filter fun n => decide ((d.plot n).state = .free),
    left := (d.usable 0 - d.inUse 0, d.usable 1 - d.inUse 1),
    lanes := d.rel.applied.filter fun w => decide (bits w.toNat 28 4 = 1),
    est := (span 0 128).map fun i => tget d.thm.est (if i < 64 then 64 + i else 192 + i) 0,
    wTherm := d.plc.wTherm.toNat, improve := min 8 d.plc.improve.toNat }

/-- Tier of a physical plot: 0 loam A, 1 loam B (R93). -/
def tierOf (n : Nat) : Nat := n / 256

/-- Eligible plots of a tier, ascending (R200). -/
def PlaceIn.eligible (x : PlaceIn) (t : Nat) : List Nat := x.free.filter fun n => decide (tierOf n = t)

/-- How many plots of a tier the placement may take (R200). -/
def PlaceIn.room (x : PlaceIn) (t : Nat) : Nat := min (x.eligible t).length (if t = 0 then x.left.1 else x.left.2)

/-- Cell of a plot among the 128 of both tiers (R208). -/
def cellOf (n : Nat) : Nat := 64 * tierOf n + 8 * (n % 256 / 32) + n % 16 / 2

/-- Model estimate of a plot's cell in whole °C (R208; log 119). -/
def PlaceIn.temp (x : PlaceIn) (n : Nat) : Int := (x.est.getD (cellOf n) 0) / 4

/-- The lowest estimate among the eligible cells of a tier (R208). -/
def PlaceIn.coolest (x : PlaceIn) (t : Nat) : Int := (((x.eligible t).map x.temp).min?).getD 0

/-- The eligible cells of a tier. -/
def PlaceIn.cells (x : PlaceIn) (t : Nat) : List Nat :=
  (span (64 * t) 64).filter fun c => (x.eligible t).any fun n => decide (cellOf n = c)

/-- Loam A's eligible cells have a lower mean estimate than loam B's (R207 step 2). -/
def PlaceIn.coolerA (x : PlaceIn) : Bool :=
  let sum (t : Nat) : Int := ((x.cells t).map fun c => (x.est.getD c 0) / 4).foldl (· + ·) 0
  let n (t : Nat) : Int := (x.cells t).length
  if n 0 = 0 ∨ n 1 = 0 then decide (n 1 = 0 ∧ n 0 ≠ 0) else decide (sum 0 * n 1 < sum 1 * n 0)

/-- Failed physical lanes of a group of a position (R556, R559). -/
def PlaceIn.laneFails (x : PlaceIn) (xy group : Nat) : Nat :=
  (x.lanes.filter fun w => decide (bits w.toNat 20 8 = xy) && decide (bits w.toNat 13 7 = group)).length

/-- A logical vertical lane is failed by the repair map (R559). -/
def PlaceIn.laneFailed (x : PlaceIn) (n l : Nat) : Bool :=
  let f := x.laneFails (n % 256) (l / 32)
  decide (33 - f ≤ l % 32) && decide (2 ≤ f)

/-- No lane that a pairing's map uses is failed at a position (R200). -/
def PlaceIn.lanesOk (x : PlaceIn) (y : Pair) (n : Nat) : Bool :=
  x.lanes.isEmpty || (span 0 x.cc).all fun k => (span 0 4096).all fun l => decide (y.nibble k l = 0) || !x.laneFailed n l

/-! ## Step 2: tiers -/

/-- The component of each logical plot, named by its lowest member: plots joined by nets (R207 step 2). -/
def components (plots : Nat) (nets : List Net) : List Nat :=
  nets.foldl (fun l x =>
    let a := l.getD x.src 0
    let b := l.getD x.dst 0
    l.map fun c => if c = max a b then min a b else c) (span 0 plots)

/-- A component before another in step 2: the larger first, then the one of the lower plot. -/
def insertComp (x : Nat × Nat) : List (Nat × Nat) → List (Nat × Nat)
  | [] => [x]
  | y :: r => if y.2 < x.2 ∨ (y.2 = x.2 ∧ x.1 < y.1) then x :: y :: r else y :: insertComp x r

/-- Components with their sizes in the order of step 2. -/
def compOrder (comp : List Nat) : List (Nat × Nat) :=
  (((span 0 comp.length).filter fun i => decide (comp.getD i 0 = i)).map fun i =>
    (i, (comp.filter fun c => decide (c = i)).length)).foldl (fun l x => insertComp x l) []

/-- A failure of a search: code and detail (R212). -/
abbrev Failed := Nat × Nat

/-- Tiers that pairings with oriented components fix for a component: PLOT_P of the pairing and the tier. -/
def fixedTiers (comp : List Nat) (pairs : List Pair) (done : Tab Nat) (c : Nat) : List (Nat × Nat) :=
  pairs.filterMap fun x =>
    let a := comp.getD x.p 0
    let b := comp.getD x.q 0
    if a = c ∧ b ≠ c then (done.find? fun e => decide (e.1 = b)).map fun e => (x.p, 1 - e.2)
    else if b = c ∧ a ≠ c then (done.find? fun e => decide (e.1 = a)).map fun e => (x.p, 1 - e.2)
    else none

/-- Plots that the oriented components take of a tier. -/
def takenOf (order : List (Nat × Nat)) (done : Tab Nat) (t : Nat) : Nat :=
  ((order.filter fun c => done.any fun e => decide (e.1 = c.1) && decide (e.2 = t)).map (·.2)).foldl (· + ·) 0

/-- The tier of one component, and the failure of step 2: 0x0202 where pairings contradict, with the first such pairing's PLOT_P,
0x0201 where the tier has too few plots, with the plots needed of it so far (R207, R212; log 119). -/
def PlaceIn.orient (x : PlaceIn) (comp : List Nat) (pairs : List Pair) (order : List (Nat × Nat)) (done : Tab Nat) (c : Nat × Nat) :
    Sum Failed (Tab Nat) :=
  let fixed := fixedTiers comp pairs done c.1
  let left (t : Nat) : Nat := x.room t - takenOf order done t
  let t := match fixed with
    | e :: _ => e.2
    | [] => if left 1 < left 0 then 0 else if left 0 < left 1 then 1 else if x.coolerA then 0 else 1
  match pairs.find? fun y => decide (comp.getD y.p 0 = c.1) && decide (comp.getD y.q 0 = c.1) with
  | some y => .inl (0x0202, y.p)
  | none => match fixed.find? fun e => decide (e.2 ≠ t) with
    | some e => .inl (0x0202, e.1)
    | none =>
      if left t < c.2 then .inl (0x0201, (takenOf order done t + c.2) * 2 ^ 16 + (if t = 0 then 1 else 4))
      else .inr (tset done c.1 t)

/-- Components oriented one at a time. -/
def PlaceIn.orientAll (x : PlaceIn) (comp : List Nat) (pairs : List Pair) (order : List (Nat × Nat)) :
    List (Nat × Nat) → Tab Nat → Sum Failed (Tab Nat)
  | [], done => .inr done
  | c :: r, done => match x.orient comp pairs order done c with
    | .inl e => .inl e
    | .inr t => x.orientAll comp pairs order r t

/-- Tier of each logical plot, or the failure of step 2 (R207). -/
def PlaceIn.tiers (x : PlaceIn) (nets : List Net) (pairs : List Pair) : Sum Failed (List Nat) :=
  let comp := components x.plots nets
  let order := compOrder comp
  match x.orientAll comp pairs order order [] with
  | .inl e => .inl e
  | .inr done => .inr (comp.map fun c => tget done c 0)

/-! ## The cost (R208) -/

/-- Four sets of plots of a tier, as bits, by the side on which a route enters them. -/
abbrev Front := Nat × Nat × Nat × Nat

/-- Plots of a tier that do not lie on its east edge, and not on its west edge. -/
def notEast : Nat := (2 ^ 256 - 1) / (2 ^ 16 - 1) * (2 ^ 15 - 1)
/-- Plots of a tier that do not lie on its west edge. -/
def notWest : Nat := notEast * 2

/-- The plots beyond a set in a direction (R93). -/
def beyond (s dir : Nat) : Nat :=
  match dir with
  | 0 => s * 2 ^ 16 % 2 ^ 256
  | 1 => (s &&& notEast) * 2
  | 2 => s / 2 ^ 16
  | _ => (s &&& notWest) / 2

/-- One more plot edge: a transit plot leaves by another side than it was entered on (R202, R203). -/
def Front.next (f : Front) : Front :=
  let n := f.1
  let e := f.2.1
  let s := f.2.2.1
  let w := f.2.2.2
  (beyond (n ||| e ||| w) 2, beyond (n ||| e ||| s) 3, beyond (e ||| s ||| w) 0, beyond (n ||| s ||| w) 1)

/-- The set of a side. -/
def Front.side (f : Front) (i : Nat) : Nat :=
  match i with
  | 0 => f.1
  | 1 => f.2.1
  | 2 => f.2.2.1
  | _ => f.2.2.2

/-- The front of one plot edge out of a plot on a side. -/
def Front.start (n side : Nat) : Front :=
  let b := beyond (2 ^ (n % 256)) side
  match side with
  | 0 => (0, 0, b, 0)
  | 1 => (0, 0, 0, b)
  | 2 => (b, 0, 0, 0)
  | _ => (0, b, 0, 0)

/-- Plot edges from a front of `k` edges to an entry of a plot by a side, the first of them only where `direct`. -/
def Front.reach (n side : Nat) (direct : Bool) : Nat → Nat → Front → Option Nat
  | 0, _, _ => none
  | fuel + 1, k, f =>
    if bit (f.side side) (n % 256) ∧ (direct ∨ 1 < k) then some k else Front.reach n side direct fuel (k + 1) f.next

/-- The shortest possible route length between two placed ends: over the tier's plots, whoever has them (R203, R208; log 119). -/
def shortestLen (src dst : Nat) (x : Net) : Option Nat :=
  let out := portOut x.srcPort
  let in_ := portOut x.dstPort
  Front.reach dst (in_ / 64) (decide (out % 64 = in_ % 64)) 1024 1 (Front.start src (out / 64))

/-- Shortest lengths of the nets whose ends are both placed, 0 for others. A map gives 512 for a plot not yet placed. -/
def netLensAt (map : List Nat) (nets : List Net) : List Nat :=
  nets.map fun x =>
    let a := map.getD x.src 512
    let b := map.getD x.dst 512
    if a < 512 ∧ b < 512 then (shortestLen a b x).getD 1024 else 0

/-- The cost of a placement or partial placement whose nets have the lengths `lens` in the schedule's extension (R208). -/
def PlaceIn.costOf (x : PlaceIn) (map : List Nat) (nets : List Net) (sched : Sched) (lens : List Nat) : Int :=
  let ext := (sched.entries.map fun e => extension nets lens e.ctx).foldl (· + ·) 0
  let heat := ((map.filter fun n => decide (n < 512)).map fun n => x.temp n - x.coolest (tierOf n)).foldl (· + ·) 0
  (16 * ext + (netLensAt map nets).foldl (· + ·) 0 : Nat) + x.wTherm * heat

/-- The cost in steps 3 to 5, before any net is routed: the extension from the shortest lengths (R208; log 119). -/
def PlaceIn.cost (x : PlaceIn) (map : List Nat) (nets : List Net) (sched : Sched) : Int :=
  x.costOf map nets sched (netLensAt map nets)

/-! ## Steps 3 and 4 -/

/-- The first of the candidates that give the lowest cost: those of one plot come in ascending order (R208). -/
def cheapest (cost : Nat → Int) : List Nat → Option (Nat × Int)
  | [] => none
  | n :: r => match cheapest cost r with
    | none => some (n, cost n)
    | some (m, c) => if cost n ≤ c then some (n, cost n) else some (m, c)

/-- Logical plots placed in a map. -/
def putPlots (map : List Nat) (l : List (Nat × Nat)) : List Nat := l.foldl (fun m e => m.set e.1 e.2) map

/-- Positions at which a pairing may lie with its PLOT_P on a tier: both plots eligible and free in the map, its lanes not failed
(R200). -/
def PlaceIn.pairPlaces (x : PlaceIn) (map : List Nat) (y : Pair) (t : Nat) : List Nat :=
  (x.eligible t).filter fun n =>
    x.free.contains (overPlot n) && !map.contains n && !map.contains (overPlot n) && x.lanesOk y n

/-- Pairings in ascending order of PLOT_P. -/
def insertPair (x : Pair) : List Pair → List Pair
  | [] => [x]
  | y :: r => if x.p < y.p then x :: y :: r else y :: insertPair x r

/-- Step 3: each pairing at its lowest-cost eligible position, or 0x0202 (R207). -/
def PlaceIn.placePairs (x : PlaceIn) (cost : List Nat → Int) (tiers : List Nat) : List Pair → List Nat → Sum Failed (List Nat)
  | [], map => .inr map
  | y :: r, map =>
    let put (n : Nat) : List Nat := putPlots map [(y.p, n), (y.q, overPlot n)]
    match cheapest (fun n => cost (put n)) (x.pairPlaces map y (tiers.getD y.p 0)) with
    | none => .inl (0x0202, y.p)
    | some (n, _) => x.placePairs cost tiers r (put n)

/-- Nets that a logical plot takes part in. -/
def netCount (nets : List Net) (l : Nat) : Nat := (nets.filter fun x => decide (x.src = l) || decide (x.dst = l)).length

/-- A plot before another in step 4: more nets first, then the lower logical number. -/
def insertPlot (nets : List Net) (l : Nat) : List Nat → List Nat
  | [] => [l]
  | y :: r => if netCount nets y < netCount nets l ∨ (netCount nets y = netCount nets l ∧ l < y) then l :: y :: r
              else y :: insertPlot nets l r

/-- Step 4: each other plot at its lowest-cost eligible plot of its tier, or 0x0201 (R207). -/
def PlaceIn.placeOthers (x : PlaceIn) (cost : List Nat → Int) (tiers : List Nat) : List Nat → List Nat → Sum Failed (List Nat)
  | [], map => .inr map
  | l :: r, map =>
    let t := tiers.getD l 0
    match cheapest (fun n => cost (map.set l n)) ((x.eligible t).filter fun n => !map.contains n) with
    | none => .inl (0x0201, (tiers.filter fun u => decide (u = t)).length * 2 ^ 16 + (if t = 0 then 1 else 4))
    | some (n, _) => x.placeOthers cost tiers r (map.set l n)

/-- Steps 2 to 4 of a placement: the map, or the failure (R207). -/
def PlaceIn.greedy (x : PlaceIn) (nets : List Net) (pairs : List Pair) (sched : Sched) : Sum Failed (List Nat) :=
  match x.tiers nets pairs with
  | .inl e => .inl e
  | .inr tiers =>
    let cost := fun m => x.cost m nets sched
    match x.placePairs cost tiers (pairs.foldl (fun l y => insertPair y l) []) (List.replicate x.plots 512) with
    | .inl e => .inl e
    | .inr map =>
      let rest := (span 0 x.plots).filter fun l => !pairs.any fun y => decide (y.p = l) || decide (y.q = l)
      x.placeOthers cost tiers (rest.foldl (fun o l => insertPlot nets l o) []) map

/-! ## Step 5 -/

/-- One swap of step 5: a plot of no pairing takes an eligible plot of its tier, or changes places with another plot of no pairing
there, where that lowers the cost (R207). -/
def PlaceIn.swap (x : PlaceIn) (nets : List Net) (pairs : List Pair) (sched : Sched) (map : List Nat) (w : Nat × Nat) : Option (List Nat) :=
  let paired (l : Nat) : Bool := pairs.any fun y => decide (y.p = l) || decide (y.q = l)
  let old := map.getD w.1 512
  let new := match (span 0 map.length).find? fun l => decide (map.getD l 512 = w.2) with
    | some m => if paired m then none else some (putPlots map [(m, old), (w.1, w.2)])
    | none => if x.free.contains w.2 then some (map.set w.1 w.2) else none
  if map.length ≤ w.1 ∨ paired w.1 ∨ tierOf old ≠ tierOf w.2 then none
  else new.bind fun m => if x.cost m nets sched < x.cost map nets sched then some m else none

/-- The swaps of step 5: none without an improvement pass, and no more than the passes can make (R207, R220). -/
def PlaceIn.improveMap (x : PlaceIn) (nets : List Net) (pairs : List Pair) (sched : Sched) (map : List Nat) (swaps : List (Nat × Nat)) :
    Option (List Nat) :=
  if x.improve * map.length * 512 < swaps.length then none
  else swaps.foldl (fun m w => m.bind fun m => x.swap nets pairs sched m w) (some map)

/-! ## Step 6: routes -/

/-- A position in use: plot, outbound position, the net's source port, and what feeds it, 1024 for the plot's own wire (R202). -/
structure Used where
  /-- physical plot -/
  plot : Nat
  /-- outbound position -/
  out : Nat
  /-- source plot and port of the net -/
  net : Nat × Nat
  /-- inbound position that feeds it, or 1024 -/
  feed : Nat
  deriving DecidableEq, Repr

/-- What a net's source drives: two records of one source port are destinations of one net (R189, R204). -/
def Net.key (x : Net) : Nat × Nat := (x.src, x.srcPort.toNat)

/-- The positions that a routed net uses: its source port and its switch settings (R204). -/
def usedBy (map : List Nat) (x : Net) (l : List (Nat × Nat × Nat)) : List Used :=
  { plot := map.getD x.src 512, out := portOut x.srcPort, net := x.key, feed := 1024 } ::
    l.map fun s => { plot := s.1, out := s.2.1, net := x.key, feed := s.2.2 }

/-- A position may be taken: no other net has it, and its own net feeds it alike (R204). -/
def positionFree (used : List Used) (u : Used) : Bool :=
  used.all fun y => decide (y.plot ≠ u.plot) || decide (y.out ≠ u.out) || (decide (y.net = u.net) && decide (y.feed = u.feed))

/-- Plots of a tier in which an outbound position carries nothing. -/
def freeAt (mine : Nat) (used : List Used) (tier out : Nat) : Nat :=
  used.foldl (fun m u => if u.out = out ∧ tierOf u.plot = tier ∧ bit m (u.plot % 256) then m - 2 ^ (u.plot % 256) else m) mine

/-- The sets of plots entered at each inbound position after one more edge of a net (R202 to R204). -/
def stepRoute (mine : Nat) (used : List Used) (x : Net) (tier : Nat) (front : List Nat) : List Nat :=
  let on (i : Nat) : Nat := front.getD i 0
  let side (s : Nat) : Nat := (span (64 * s) 64).foldl (fun m i => m ||| on i) 0
  let from_ (dir : Nat) : Nat := (([0, 1, 2, 3].filter fun s => decide (s ≠ dir)).map side).foldl (· ||| ·) 0
  let shared (out : Nat) : Nat := used.foldl (fun m u =>
    if u.out = out ∧ tierOf u.plot = tier ∧ u.net = x.key ∧ u.feed / 64 ≠ out / 64 ∧ bit (on u.feed) (u.plot % 256)
    then m ||| 2 ^ (u.plot % 256) else m) 0
  (span 0 256).map fun i =>
    let out := 64 * ((i / 64 + 2) % 4) + i % 64
    beyond ((from_ (out / 64) &&& freeAt mine used tier out) ||| (shared out &&& mine)) (out / 64)

/-- The length of the shortest route of a net with free positions through the placement's plots, if it has one (R203, R204, R207). -/
def searchRoute (mine : Nat) (used : List Used) (x : Net) (tier dst : Nat) : Nat → Nat → List Nat → Option Nat
  | 0, _, _ => none
  | fuel + 1, k, front =>
    if bit (front.getD (portOut x.dstPort) 0) (dst % 256) then some k
    else searchRoute mine used x tier dst fuel (k + 1) (stepRoute mine used x tier front)

/-- Plots of a map on a tier, as bits. -/
def mapMask (map : List Nat) (tier : Nat) : Nat :=
  map.foldl (fun m n => if n < 512 ∧ tierOf n = tier then m ||| 2 ^ (n % 256) else m) 0

/-- The shortest free route of a net under a map (R207 step 6); its source port must be free for it. -/
def shortestRoute (map : List Nat) (used : List Used) (x : Net) : Option Nat :=
  let src := map.getD x.src 512
  let dst := map.getD x.dst 512
  let out := portOut x.srcPort
  let own : Used := { plot := src, out := out, net := x.key, feed := 1024 }
  if tierOf src ≠ tierOf dst ∨ !positionFree used own then none
  else
    let b := beyond (2 ^ (src % 256)) (out / 64)
    let in_ := 64 * ((out / 64 + 2) % 4) + out % 64
    searchRoute (mapMask map (tierOf src)) used x (tierOf src) dst 65536 1 ((span 0 256).map fun i => if i = in_ then b else 0)

/-- Nets with their record numbers in ascending order of BUDGET, then record order (R207 step 6). -/
def insertNet (x : Nat × Net) : List (Nat × Net) → List (Nat × Net)
  | [] => [x]
  | y :: r => if x.2.budget < y.2.budget ∨ (x.2.budget = y.2.budget ∧ x.1 < y.1) then x :: y :: r else y :: insertNet x r

/-- The order of step 6. -/
def netOrder (nets : List Net) : List (Nat × Net) := ((span 0 nets.length).zip nets).foldl (fun l x => insertNet x l) []

/-- What routing the nets one after another comes to. -/
inductive Routing where
  /-- every net has its route: record number and route -/
  | all (routes : List (Nat × List (Nat × Nat)))
  /-- the net of a record number has no route -/
  | stuck (record : Nat)
  /-- a route offered is none of the placer's: it is not a shortest one with free positions, or routing ends before its time -/
  | wrong
  deriving DecidableEq, Repr

/-- Step 6: the nets take the routes offered, each a shortest one with free positions (R207). -/
def routeAll (map : List Nat) : List (Nat × Net) → List (List (Nat × Nat)) → List Used → Routing
  | [], [], _ => .all []
  | [], _ :: _, _ => .wrong
  | x :: _, [], used => if (shortestRoute map used x.2).isNone then .stuck x.1 else .wrong
  | x :: r, l :: ls, used => match routeOf map x.2 l with
    | none => .wrong
    | some set_ =>
      let mine := usedBy map x.2 set_
      if shortestRoute map used x.2 = some (l.length + 1) ∧ mine.all (positionFree used) then
        match routeAll map r ls (mine ++ used) with
        | .all rest => .all ((x.1, l) :: rest)
        | y => y
      else .wrong

/-- Routes of the nets in record order. -/
def inRecordOrder (n : Nat) (l : List (Nat × List (Nat × Nat))) : List (List (Nat × Nat)) :=
  (span 0 n).map fun i => ((l.find? fun x => decide (x.1 = i)).map (·.2)).getD []

/-! ## The results -/

/-- What the placer decides in steps 2 to 6, with what the firmware's own search contributes (R207, R209): a failure, or the map and
the routes in record order; `none` where the contribution is none of the placer's (log 28). -/
def PlaceIn.decide_ (x : PlaceIn) (nets : List Net) (pairs : List Pair) (sched : Sched) (res : PlaceResult) :
    Option (Sum Failed (List Nat × List (List (Nat × Nat)))) :=
  match x.greedy nets pairs sched with
  | .inl e => some (.inl e)
  | .inr m0 => match x.improveMap nets pairs sched m0 res.swaps with
    | none => none
    | some map => match routeAll map (netOrder nets) res.routes [] with
      | .wrong => none
      | .stuck i => some (.inl (0x0204, i))
      | .all l => some (.inr (map, inRecordOrder nets.length l))

/-- Destinations that a migration of logical plots may take with the others fixed: of the pairing's PLOT_P, or of the one plot, on the
tier it lies on (R200, R217; log 119). -/
def PlaceIn.migrPlaces (x : PlaceIn) (map : List Nat) (pairs : List Pair) (l : Nat) : List (Nat × List Nat) :=
  let t := tierOf (map.getD l 512)
  match pairs.find? fun y => decide (y.p = l) || decide (y.q = l) with
  | some y =>
    let n := tierOf (map.getD y.p 512)
    if x.left.1 = 0 ∨ x.left.2 = 0 then []
    else (x.pairPlaces map y n).map fun a => (if y.p = l then a else overPlot a, putPlots map [(y.p, a), (y.q, overPlot a)])
  | none =>
    if (if t = 0 then x.left.1 else x.left.2) = 0 then []
    else ((x.eligible t).filter fun n => !map.contains n).map fun a => (a, map.set l a)

/-- The map of a migration: at the destination that MIGR names, where it is eligible, else at the one of lowest cost, ties to the lower
physical index (R208, R217 step 1). -/
def PlaceIn.migrMap (x : PlaceIn) (map : List Nat) (nets : List Net) (pairs : List Pair) (sched : Sched) (l : Nat) (dest : Option Nat) :
    Option (List Nat) :=
  let c := x.migrPlaces map pairs l
  let at_ (n : Nat) : Option (List Nat) := (c.find? fun e => decide (e.1 = n)).map (·.2)
  match dest with
  | some n => at_ n
  | none => (cheapest (fun n => x.cost ((at_ n).getD map) nets sched) (c.map (·.1))).bind fun e => at_ e.1

end Sys2Proof.Machine
end

