-- ==== Sys2Proof/Machine/Images.lean ====
section
/-! DEFINITION. Images: the checks of a container's head (R179 to R198, R229, R304), placement (R199 to R214), loading (R230 to
R234, R305), live migration of plots (R217 to R219, R307) and the reading of page counts (R215). -/
namespace Sys2Proof.Machine
open Host

/-! ## Containers -/

/-- Bytes of a container at an offset. -/
def Dev.cont (d : Dev) (o : Op) (off n : Nat) : List Byte := d.memRead (kidOf o.b) (addrOf o.b + off) n

/-- The first offset at which a header breaks R181, CONT_LEN apart. -/
def headerFault (h : List Byte) : Option Nat :=
  let kinds := [(0x00, decide (field h 0 4 = 0x4154424D)), (0x04, decide (field h 4 2 = 1)),
    (0x06, decide (field h 6 2 = 128)),
    (0x10, decide (1 ≤ field h 0x10 2) && decide (field h 0x10 2 ≤ 480)), (0x12, decide (field h 0x12 1 ≤ 3)),
    (0x13, decide (field h 0x13 1 ≤ 1)), (0x14, decide (3 ≤ field h 0x14 2) && decide (field h 0x14 2 ≤ 64)),
    (0x16, zeros h 0x16 2), (0x18, decide (field h 0x18 4 = 128)),
    (0x1C, decide (1 ≤ field h 0x1C 1) && decide (field h 0x1C 1 ≤ 2)), (0x1D, zeros h 0x1D 3), (0x34, zeros h 0x34 76)]
  (kinds.find? fun x => !x.2).map (·.1)

/-- MAGIC, FORMAT and HDR_LEN are right, so that CONT_LEN is one (R181). -/
def lengthKnown (h : List Byte) : Bool :=
  decide (field h 0 4 = 0x4154424D) && decide (field h 4 2 = 1) && decide (field h 6 2 = 128)

/-- Directory entries (R182). -/
def secsOf (l : List Byte) (n : Nat) : List Sec :=
  (span 0 n).map fun i =>
    { type := field l (32 * i) 2, count := field l (32 * i + 4) 4, off := field l (32 * i + 8) 8, len := field l (32 * i + 16) 8 }

/-- Place of a section type in the order of R183; the head tables share one. -/
def secRank (ty : Nat) : Nat :=
  if ty = 1 then 0 else if ty = 2 then 1 else if 3 ≤ ty ∧ ty ≤ 7 then 2 else if ty = 8 then 3 else 4

/-- A section type that an image of a KIND may carry (R182). -/
def typeOk (kind ty : Nat) : Bool := if kind = 0 then decide (1 ≤ ty) && decide (ty ≤ 9) else [1, 2, 8, 9].contains ty

/-- Types that an image of a KIND carries exactly once (R182). -/
def typesNeeded (kind : Nat) : List Nat := if kind = 0 then [1, 2, 3, 4, 7, 8] else [1, 2, 8]

/-- A section's place breaks R180 or R183 against the other sections. -/
def placeBad (l : List Sec) (i : Nat) (s : Sec) : Bool :=
  decide (s.off % 64 ≠ 0) || decide (s.off < 128 + 32 * l.length) ||
  ((span 0 l.length).zip l).any fun x =>
    decide (x.1 ≠ i) &&
      ((decide (secRank x.2.type < secRank s.type) && decide (s.off < x.2.off + x.2.len)) ||
       (decide (secRank x.2.type = secRank s.type) && meets x.2.off x.2.len s.off s.len))

/-- The container offset at which directory entry i breaks R182 or R183, or the PINS rule of R229 order 2. -/
def entryFault (raw : List Byte) (l : List Sec) (kind contLen i : Nat) : Option Nat :=
  match l[i]? with
  | none => none
  | some s =>
    let at_ := 128 + 32 * i
    if !typeOk kind s.type ∨ (l.take i).any (fun y => decide (y.type = s.type)) ∨ (s.type = 4 ∧ s.len ≠ 8 * s.count) then some at_
    else if !zeros raw (32 * i + 2) 2 then some (at_ + 2)
    else if placeBad l i s then some (at_ + 8)
    else if contLen < s.off + s.len then some (at_ + 16)
    else if !zeros raw (32 * i + 24) 8 then some (at_ + 24)
    else none

/-- The first fault of a directory (R182, R183). -/
def dirFault (raw : List Byte) (l : List Sec) (kind contLen : Nat) : Option Nat :=
  match (span 0 l.length).findSome? (entryFault raw l kind contLen) with
  | some o => some o
  | none => if (typesNeeded kind).all fun t => l.any fun s => decide (s.type = t) then none else some 128

/-- End of the head: the header, the directory and the sections up to the last head table (R229 order 2). -/
def headEnd (l : List Sec) : Nat :=
  (l.filter fun s => decide (secRank s.type ≤ 2)).foldl (fun m s => max m (s.off + s.len)) (128 + 32 * l.length)

/-- The first byte of padding in the head that is not zero (R180, R229 order 2). -/
def padFault (head : List Byte) (l : List Sec) : Option Nat :=
  ((span 0 head.length).zip head).findSome? fun x =>
    if x.2 ≠ 0 ∧ 128 + 32 * l.length ≤ x.1 ∧ !l.any (fun s => decide (s.off ≤ x.1) && decide (x.1 < s.off + s.len)) then some x.1
    else none

/-- The section of a type. -/
def secOf (l : List Sec) (ty : Nat) : Option Sec := l.find? fun s => decide (s.type = ty)

/-! ## Manifests -/

/-- Frame runs of a manifest (R184). -/
def runsOf (m : List Byte) : List Run :=
  let d := field m 12 2
  (span 0 (field m 4 4)).map fun i =>
    let o := 64 + 64 * d + 8 * i
    { plot := field m o 2, ctx := field m (o + 2) 1, first := field m (o + 4) 2, count := field m (o + 6) 2 }

/-- Digest entries of a manifest: TYPE, directory index, digest (R184). -/
def digestsOf (m : List Byte) : List (Nat × Nat × BitVec 384) :=
  (span 0 (field m 12 2)).map fun i =>
    (field m (64 + 64 * i) 2, field m (64 + 64 * i + 2) 2, BitVec.ofNat 384 (field m (64 + 64 * i + 16) 48))

/-- The manifest head agrees with the header, and the manifest is as long as its counts say (R184, R229 order 6). -/
def manifestHeadOk (h m : List Byte) : Bool :=
  decide (field m 0 2 = field h 0x10 2) && decide (field m 2 1 = field h 0x12 1) && decide (field m 3 1 = field h 0x13 1) &&
    zeros m 14 2 && decide (m.length = 64 + 64 * field m 12 2 + 8 * field m 4 4)

/-- The first run that breaks R184 or R185 by itself or with an earlier run. -/
def runFault (m : List Byte) (l : List Run) : Option Nat :=
  (span 0 l.length).find? fun i => match l[i]? with
    | none => false
    | some r =>
      !zeros m (64 + 64 * field m 12 2 + 8 * i + 3) 1 || decide (r.count = 0) || decide (1024 < r.first + r.count) ||
      (l.take i).any fun y => decide (y.plot = r.plot) && decide (y.ctx = r.ctx) && meets y.first y.count r.first r.count

/-- Frames of a list of runs. -/
def runTotal (l : List Run) : Nat := l.foldl (fun n r => n + r.count) 0

/-- The digest entries cover each section of types 3 to 7 and 9 exactly once (R185), with RSVD bytes zero. -/
def digestsOk (m : List Byte) (l : List Sec) : Bool :=
  let ds := digestsOf m
  let covered := (span 0 l.length).filter fun i => match l[i]? with
    | some s => (decide (3 ≤ s.type) && decide (s.type ≤ 7)) || decide (s.type = 9)
    | none => false
  decide (ds.length = covered.length) && distinct (ds.map (·.2.1)) &&
  ds.all (fun e => covered.contains e.2.1 && (match l[e.2.1]? with | some s => decide (s.type = e.1) | none => false)) &&
  (span 0 ds.length).all fun i => zeros m (64 + 64 * i + 4) 12

/-- The manifest's runs and digest entries under R184 and R185 (R229 order 8): a run index, or 0xFFFF_FFFF. -/
def manifestFault (m : List Byte) (l : List Sec) (kind plots cc : Nat) : Option Nat :=
  let runs := runsOf m
  match runFault m runs with
  | some i => some i
  | none =>
    if field m 8 4 ≠ runTotal runs ∨ !digestsOk m l ∨ (kind = 0 ∧ runTotal runs ≠ plots * cc * 1024) then some 0xFFFFFFFF
    else none

/-! ## Authentication -/

/-- The form of authentication is permitted, and its keys are installed (R198, R229 order 4): detail of 0x010B. -/
def Part.authFault (q : Part) (auth : Nat) : Option Nat :=
  if auth = 1 then (if q.reqSig then some 1 else if q.imageKey.isNone then some 2 else none)
  else if q.hashes.isNone then some 3 else none

/-- The authentication fails (R196, R197, R229 order 5): code and detail. -/
def Part.verifyFault (q : Part) (auth : Nat) (sec msg : List Byte) : Option (Nat × Nat) :=
  if auth = 1 then
    let tag := BitVec.ofNat 384 (field sec 16 48)
    if sec.length = 64 ∧ field sec 0 2 = 1 ∧ q.imageKey.map (fun k => Config.hmac384 k msg) = some tag then none else some (0x0105, 0)
  else
    let rsa := (sec.drop 0x10).take 388
    let slh := (sec.drop 0x1A0).take 48
    let h := q.hashes.getD (0, 0)
    if sec.length ≠ 17072 ∨ field sec 0 2 ≠ 2 ∨ Config.sha384 rsa ≠ h.1 then some (0x0106, 1)
    else if Config.sha384 slh ≠ h.2 then some (0x0106, 2)
    else if !Config.rsaVerify rsa msg ((sec.drop 0x1D0).take 384) then some (0x0106, 3)
    else if !Config.slhVerify slh msg ((sec.drop 0x350).take 16224) then some (0x0106, 4)
    else none

/-! ## IMGCHK -/

/-- Order 1 of R229: the partition's state allows the check of a head of a KIND; an undefined KIND is left to order 2. -/
def Part.chkState (q : Part) (kind : Nat) : Bool :=
  decide (q.state ≠ .none) && q.load.isNone &&
    (if kind = 0 then decide (q.state = .blank)
     else if kind = 1 then decide (q.state = .placed) || decide (q.state = .frozen) || decide (q.state = .running)
     else true)

/-- The first pin entry that breaks R187 or names a pin the partition does not own (R229 order 10). -/
def Dev.pinFault (d : Dev) (p : Nat) (l : List (Nat × Nat)) : Option Nat :=
  ((span 0 l.length).zip l).findSome? fun x =>
    if (d.pinsOf p).contains x.2.1 ∧ x.2.2 ≤ 5 ∧ !(l.take x.1).any (fun y => decide (y.1 = x.2.1)) then none else some x.2.1

/-- Orders 3 to 10 of R229 on a head whose header and directory obey order 2: the first failure, or the head. -/
def Dev.headCheck (d : Dev) (o : Op) (h : List Byte) (l : List Sec) : Sum (Nat × Nat) Head :=
  let q := d.part o.part
  let cc := ctxCount q.ctx
  let bytes := fun (ty : Nat) => match secOf l ty with
    | some s => d.cont o s.off s.len
    | none => []
  let m := bytes 1
  let auth := field h 0x1C 1
  let msg := h ++ d.cont o 128 (32 * l.length) ++ m
  let runs := runsOf m
  let tables : List (Nat × List Byte) := (span 0 l.length).filterMap fun i => match l[i]? with
    | some s => if 3 ≤ s.type ∧ s.type ≤ 7 then some (i, d.cont o s.off s.len) else none
    | none => none
  let ds := (digestsOf m).map fun e => (e.2.1, e.2.2)
  let badTable := tables.find? fun t => decide ((ds.find? fun e => decide (e.1 = t.1)).map (·.2) ≠ some (Config.sha384 t.2))
  let pb := bytes 4
  let pins := (span 0 (pb.length / 8)).map fun i => (field pb (8 * i) 2, field pb (8 * i + 2) 1)
  if field h 0x10 2 ≠ q.plots then .inl (0x0102, 0x10)
  else if field h 0x12 1 ≠ q.ctx then .inl (0x0102, 0x12)
  else match q.authFault auth with
    | some e => .inl (0x010B, e)
    | none => match q.verifyFault auth (bytes 2) msg with
      | some e => .inl e
      | none =>
        if !manifestHeadOk h m then .inl (0x0107, 0xFFFFFFFF)
        else match (span 0 runs.length).find? fun i => match runs[i]? with
            | some r => decide (q.plots ≤ r.plot) || decide (cc ≤ r.ctx)
            | none => false with
          | some i => .inl (0x0103, i)
          | none => match manifestFault m l (field h 0x13 1) q.plots cc with
            | some e => .inl (0x0107, e)
            | none => match badTable with
              | some t => .inl (0x0108, t.1)
              | none => match d.pinFault o.part pins with
                | some e => .inl (0x0109, e)
                | none => .inr
                  { digest := Config.sha384 msg, addr := addrOf o.b, plots := q.plots, ctx := q.ctx, runs := runs,
                    framesDigest := BitVec.ofNat 384 (field m 16 48), secs := l, secDigests := ds, tables := tables, pins := pins }

/-- The head of a container is accepted: it replaces the earlier head of its KIND, and a FULL head's pin table governs the
partition's pins (R224, R229, R236). -/
def Dev.acceptHead (d : Dev) (p kind : Nat) (x : Head) : Dev :=
  let d1 := d.updPart p fun q =>
    if kind = 0 then { q with headFull := some x, pinsKnown := true } else { q with headPart := some x }
  let d2 := if kind = 0 ∧ (d1.part p).safe then d1.pinsSafe p else d1
  d2.post 0x0101 kind p

/-- IMGCHK's operation (R229, R304): the checks in order, the first failure with its event and code. -/
def Dev.startImgchk (d : Dev) (o : Op) (rd : ReadOutcome) : Dev :=
  let q := d.part o.part
  let a := addrOf o.b
  let k := kidOf o.b
  d.needBits o 0x7F (2 ^ 64 - 1) fun d =>
    if q.state = .none ∨ q.load.isSome then d.refuseOp o 1
    else d.opRead o k a 128 rd fun d =>
      let h := d.cont o 0 128
      let kind := field h 0x13 1
      let n := field h 0x14 2
      let len := field h 8 8
      if !q.chkState kind then d.refuseOp o 1
      else if lengthKnown h ∧ !d.mayAccess o.thread o.b len true then d.fail o 0x0913 badRange
      else match headerFault h with
        | some off => d.failEvt o 0x0102 off
        | none => d.opRead o k (a + 128) (32 * n) .clean fun d =>
          let raw := d.cont o 128 (32 * n)
          let l := secsOf raw n
          match dirFault raw l kind len with
          | some off => d.failEvt o 0x0102 off
          | none => d.opRead o k a (headEnd l) .clean fun d =>
            match padFault (d.cont o 0 (headEnd l)) l with
            | some off => d.failEvt o 0x0102 off
            | none => match d.headCheck o h l with
              | .inl e => d.failEvt o e.1 e.2
              | .inr x => (d.acceptHead o.part kind x).done o.thread o.slot

/-- IMGCHK (R229, R304). -/
def execImgchk (i : Issue) (d a b : BitVec 5) (rd : ReadOutcome) (s : State) : Outcome State Fault Refusal :=
  s.work fun x => x.devIssue i 0x01 d a b partOf
    (fun e n va vb => { rights := mayName n (partOf va) false, addr := e.startAddrOk n vb false })
    fun e o => e.startImgchk o rd

/-! ## PLACE -/

/-- A field of a record that a failure leaves without a value (log 27). -/
def Dev.freeField (d : Dev) (i : Nat) : Nat := bits (Config.freeWord (d.free + i)).toNat 0 32

/-- PLC_STATUS after a placement (R220). -/
def Dev.plcStatus (d : Dev) (p code us : Nat) : Dev :=
  { d with plc := { d.plc with lastPart := p, lastCode := BitVec.ofNat 16 code, lastTime := BitVec.ofNat 32 us } }

/-- A placement fails: only the head of the record is written, and not into a buffer shorter than it; the event, PLC_STATUS
and the ticket (R207, R211, R212, R306). -/
def Dev.placeFail (d : Dev) (o : Op) (code detail us : Nat) : Dev :=
  let q := d.part o.part
  let f := d.freeField
  let rec_ := match q.headFull with
    | some h => recordHead code detail q.plots q.ctx (schedOf (h.table 3).1).total (f 0) (h.table 5).2 (h.table 7).2 us (f 1)
    | none => recordHead code detail q.plots q.ctx (f 2) (f 0) (f 3) (f 4 % 65536) us (f 1)
  let d1 := (d.draw 5)
  let d2 := if 64 ≤ o.a.toNat / 2 ^ 32 then d1.memWrite 0 (seqAddr o.b.toNat) rec_ else d1
  (d2.plcStatus o.part code us).failEvt o code detail

/-- The search of a PLACE or MIGR with the inputs that it takes when it starts (R199). -/
def Dev.searchOf (d : Dev) (o : Op) (migr : Option (Nat × Option Nat)) : Search :=
  let q := d.part o.part
  { part := o.part, migr := migr, head := ((q.headFull).map (·.digest)).getD 0, keys := q.keys, marl := q.marl, ddr := q.ddr,
    inp := d.placeIn o.part, thread := o.thread, slot := o.slot,
    base := match migr, q.placement with
      | some _, some pl => (d.plc.migs.filter fun g => decide (g.part = o.part)).foldl (fun m g =>
          putPlots m (g.moves.map fun y => (y.1, y.2.2))) pl.map
      | _, _ => [] }

/-- A placement takes its inputs and its search starts, or step 1 fails (R199, R207). -/
def Dev.beginPlace (d : Dev) (o : Op) : Dev :=
  match d.placeFault o.part (o.a.toNat / 2 ^ 32) with
  | some e => (d.draw 1).placeFail o e.1 e.2 (d.freeField 0)
  | none => { d with plc := { d.plc with search := some (d.searchOf o none) } }

/-- A migration of a logical plot is allowed (R217, R219, R245): the partition's state, and no plot it moves LOADING, CLEARING
or already migrating. -/
def Dev.mayMigrate (d : Dev) (p l : Nat) : Bool :=
  let q := d.part p
  (decide (q.state = .running) || decide (q.state = .frozen) || decide (q.state = .placed)) && q.placement.isSome &&
  (q.moved l).all fun m =>
    (match d.physical p m with
      | some n => decide ((d.plot n).state ≠ .loading) && decide ((d.plot n).state ≠ .clearing) && !(d.plot n).icpLeave
      | none => false) &&
    !(d.plc.migs.any fun g => decide (g.part = p) && g.moves.any fun x => decide (x.1 = m))

/-- Step 1 of a migration starts, or the migration is refused (R217, R219). -/
def Dev.beginMigr (d : Dev) (o : Op) : Dev :=
  let l := bits o.b.toNat 0 9
  if !d.mayMigrate o.part l then d.failEvt o 0x0212 l
  else { d with plc := { d.plc with
    search := some (d.searchOf o (some (l, if bit o.b.toNat 18 then some (bits o.b.toNat 9 9) else none))) } }

/-- The placer takes the next waiting PLACE or MIGR, in the order in which they reached it (R210, R300); one that fails at once
leaves it to the next. -/
def Dev.nextSearch : Nat → Dev → Dev
  | 0, d => d
  | n + 1, d =>
    if d.plc.search.isSome ∨ 2 ≤ d.seq.swap.toNat then d
    else match d.ops.find? fun o => decide (o.phase = .queued) && (decide (o.dop = 3) || decide (o.dop = 4)) with
      | none => d
      | some o =>
        let e := d.updOp o.thread o.slot fun x => { x with phase := .run }
        Dev.nextSearch n (if o.dop = 3 then e.beginPlace o else e.beginMigr o)

/-- A PLACE or MIGR waits for the placer, or takes it (R300 rank 1). -/
def Dev.queueSearch (d : Dev) (o : Op) : Dev :=
  let e := d.updOp o.thread o.slot fun x => { x with phase := .queued }
  e.nextSearch (e.ops.length + 1)

/-- PLACE's operation (R207, R306). -/
def Dev.startPlace (d : Dev) (o : Op) : Dev :=
  d.needBits o 0xFFFFFFFF0000007F (2 ^ 64 - 1) fun d => d.queueSearch o

/-- PLACE (R207, R306). -/
def execPlace (i : Issue) (d a b : BitVec 5) (s : State) : Outcome State Fault Refusal :=
  s.work fun x => x.devIssue i 0x03 d a b partOf
    (fun _ n va _ => { rights := mayName n (partOf va) false, block := some (va.toNat / 2 ^ 32, true) }) Dev.startPlace

/-- A plot joins a partition in LOADING with a logical number: its fences close and its registers clear (R133, R207 step 9). -/
def Dev.joinPlot (d : Dev) (p l n : Nat) (transit : Tab Nat) : Dev :=
  d.updPlot n fun x =>
    { x with part := p, logical := l, state := .loading, rewind := false, transit := transit, vldis := 0, lanesOff := [],
             lanesRearmed := [], lanesFailed := [], icpLeave := false, icpLoading := false, icpRejoin := false, icpFrames := [] }

/-- PLC_MIGR_CTRL as it stands, for a period that begins (R220). -/
def Plc.migrSet (c : Plc) : MigrSet := { en := c.migrEn, period := c.period, maxPages := c.maxPages, hot := c.hot }

/-- A partition's page counts are cleared and its next period begins, with PLC_MIGR_CTRL as it stands (R215, R220). -/
def Dev.newPeriod (d : Dev) (p : Nat) : Dev :=
  let q := d.part p
  { d with plc := { d.plc with pages := d.plc.pages.map fun (e : Nat × Nat × Nat) => if (q.pageOf e.2.1).isSome then (e.1, e.2.1, 0) else e } }.updPart p
    fun q => { q with migrCycles := 0, migr := d.plc.migrSet }

/-- Steps 7 to 9 of a placement with the map and routes of steps 2 to 6; COST is that of the placement recorded (R206 to R208, R211,
R214, R369). -/
def Dev.commitPlace (d : Dev) (o : Op) (sr : Search) (h : Head) (map : List Nat) (routes : List (List (Nat × Nat)))
    (us : Nat) : Dev :=
  let p := o.part
  let q := d.part p
  let sch := schedOf (h.table 3).1
  let nets := netsOf (h.table 5).1 (h.table 5).2
  let pairs := pairsOf (h.table 6).1 (h.table 6).2 (ctxCount q.ctx)
  let recs := modelRecs (h.table 7).1 q.plots (h.table 7).2
  let masks := masksOf (h.table 7).1 q.plots
  let compiled := sch.entries.map (·.steps)
  let lens := routeLens routes
  let s2 := extended sch compiled nets lens
  let cost := (sr.inp.costOf map nets sch lens).toNat
  match extensionFault nets lens s2 with
  | some e => d.placeFail o 0x0203 e us
  | none =>
    let m := (d.updPart p fun q => { q with keys := sr.keys, marl := sr.marl, ddr := sr.ddr }).placeModels p recs masks
    match m.1 with
    | some e => d.placeFail o 0x0205 e us
    | none =>
      if q.state ≠ .blank ∨ q.placement.isSome then d.placeFail o 0x0209 2 us
      else
        let pl : Placement :=
          { head := h.digest, map := map, sched := s2, compiled := compiled, models := m.2.1, pairs := pairs,
            freeMask := masks, nets := nets, netLens := lens, jrnl := m.2.2.1 }
        let d1 := ((span 0 map.length).zip map).foldl (fun e x => e.joinPlot p x.1 x.2 (transitOf map nets routes x.2)) d
        let d2 := d1.updPart p fun q => { q with state := .loading, placement := some pl, eng := {}, jUsed := 0, jFull := false, jLines := [] }
        let d3 := m.2.2.2.foldl (fun e n => e.post 0x020A n p) (d2.newPeriod p)
        let detail := q.plots * 2 ^ 16 + (s2.total - sch.total)
        let d4 := d3.post 0x020B detail p
        let d5 := d4.memWrite 0 (seqAddr o.b.toNat) (recordBytes (d4.part p) pl routes sch.total detail us cost)
        (d5.plcStatus p 0 us).complete o.thread o.slot 0 detail

/-- A placement's search is done: what the placer decides on the inputs it took, and the check at commit (R199, R207 to R209).
Swaps and routes that the rules do not allow are none of the placer's, and nothing comes of them (log 28). -/
def Dev.placeDone (d : Dev) (o : Op) (sr : Search) (res : PlaceResult) (us : Nat) : Option Dev :=
  let q := d.part o.part
  let free := { d with plc := { d.plc with search := none } }
  match q.headFull.filter fun h => decide (h.digest = sr.head) with
  | none => some (free.placeFail o 0x0209 (if q.state ≠ .blank ∨ q.placement.isSome then 2 else 5) us)
  | some h =>
    let nets := netsOf (h.table 5).1 (h.table 5).2
    let pairs := pairsOf (h.table 6).1 (h.table 6).2 sr.inp.cc
    (sr.inp.decide_ nets pairs (schedOf (h.table 3).1) res).map fun r => match r with
      | .inl e => free.placeFail o e.1 e.2 us
      | .inr y => free.commitPlace o sr h y.1 y.2 us

/-! ## MIGR -/

/-- What step 1 of a migration comes to: the new map, the routes in record order and their lengths, or a refusal; `none` where the
routes offered are none of the placer's (R217, R218; log 28). -/
def Search.migrate (sr : Search) (pl : Placement) (l : Nat) (dest : Option Nat) (res : PlaceResult) :
    Option (Option (List Nat × List (List (Nat × Nat)))) :=
  match sr.inp.migrMap sr.base pl.nets pl.pairs pl.sched l dest with
  | none => some none
  | some map => match routeAll map (netOrder pl.nets) res.routes [] with
    | .wrong => none
    | .stuck _ => some none
    | .all rs =>
      let routes := inRecordOrder pl.nets.length rs
      let lens := routeLens routes
      if (extensionFault pl.nets lens (extended pl.sched pl.compiled pl.nets lens)).isSome then some none else some (some (map, routes))

/-- Step 1 of a migration is done: the destinations join in LOADING and the copy starts, or the migration is refused (R217,
R219). -/
def Dev.migrDone (d : Dev) (o : Op) (sr : Search) (l : Nat) (dest : Option Nat) (res : PlaceResult) : Option Dev :=
  let p := o.part
  let q := d.part p
  let free := { d with plc := { d.plc with search := none } }
  match q.placement.filter fun _ => d.mayMigrate p l with
  | none => some (free.failEvt o 0x0212 l)
  | some pl => (sr.migrate pl l dest res).map fun r => match r with
    | none => free.failEvt o 0x0211 l
    | some (map, routes) =>
      let moves := (q.moved l).map fun m => (m, sr.base.getD m 0, map.getD m 0)
      let d1 := moves.foldl (fun e m => e.joinPlot p m.1 m.2.2 []) free
      let g : Mig := { part := p, moves := moves, transit := map.map (fun n => (n, transitOf map pl.nets routes n)),
                       lens := routeLens routes, copied := false, moved := false, thread := o.thread, slot := o.slot }
      let m := moves.headD (0, 0, 0)
      { d1 with plc := { d1.plc with migs := d1.plc.migs ++ [g], movePart := p, moveLogical := m.1,
                                     moveFrom := m.2.1, moveTo := m.2.2 } }

/-- PLACE_SEARCH_DONE: the running search ends, a PLACE's or a MIGR's step 1, and the next one starts (R207, R210, R217). -/
def execPlaceSearchDone (res : PlaceResult) (us : Nat) (s : State) : Outcome State Fault Refusal :=
  s.work fun x => match x.plc.search with
    | none => x
    | some sr =>
      let r := match x.op sr.thread sr.slot with
        | none => some { x with plc := { x.plc with search := none } }
        | some o => match sr.migr with
          | none => x.placeDone o sr res us
          | some (l, dest) => x.migrDone o sr l dest res
      match r with
      | some e => e.nextSearch (e.ops.length + 1)
      | none => x

/-- MIGR's operation (R217, R307). -/
def Dev.startMigr (d : Dev) (o : Op) : Dev :=
  d.needFeat o 8 fun d => d.needBits o 0x7F 0x7FFFF fun d =>
    if ((d.part o.part).placement).isSome ∧ (d.part o.part).plots ≤ bits o.b.toNat 0 9 then d.fail o 0x0913 badB
    else d.queueSearch o

/-- MIGR (R217, R307). -/
def execMigr (i : Issue) (d a b : BitVec 5) (s : State) : Outcome State Fault Refusal :=
  s.work fun x => x.devIssue i 0x04 d a b partOf (fun _ n va _ => { rights := mayName n (partOf va) false }) Dev.startMigr

/-- MIGR_COPY_DONE: every frame of the used contexts has been copied; the migration waits for the next boundary, or
proceeds when the partition is FROZEN or PLACED (R217 steps 2 to 4). -/
def execMigrCopyDone (p : Nat) (s : State) : Outcome State Fault Refusal :=
  s.work fun x => match x.plc.migs.find? fun g => decide (g.part = p) && !g.copied with
    | none => x
    | some g =>
      if (x.arb 48 0).quar then (x.refuseQuar 48 0).dropMig g 0x0915 0 else
      let d1 := g.moves.foldl (fun e m => (e.served 48 0).copyFrames m.2.1 m.2.2) x
      let d2 := { d1 with plc := { d1.plc with
        migs := d1.plc.migs.map fun y => if y.thread = g.thread ∧ y.slot = g.slot then { y with copied := true } else y } }
      if (x.part p).state = .frozen ∨ (x.part p).state = .placed then d2.applyMigs p else d2

/-- MIGR_PERIOD: after PERIOD design cycles, below 16 acting as 16, the counts of the partition's pages are read and cleared; pages that
reached HOT, 0 acting as 1, wait for promotion, those that the placer puts first in its order; and the next period takes PLC_MIGR_CTRL as
it stands (R215, R220; log 127). -/
def execMigrPeriod (p : Nat) (order : List (Nat × Nat)) (s : State) : Outcome State Fault Refusal :=
  s.work fun x =>
    let q := x.part p
    if q.migrCycles < max 16 q.migr.period.toNat then x
    else
      let counts := x.pageCountsOf p
      let due := (counts.filter fun c => decide (max 1 q.migr.hot.toNat ≤ c.2.2) && (match q.model c.1 with
        | some y => y.inDdr (4096 * c.2.1) && !y.nomigr && decide ((x.keyid y.keyid).mode ≠ .verified)
        | none => false)).map fun c => (c.1, c.2.1)
      let taken := (order.filter fun e => due.contains e).eraseDups ++ due.filter fun e => !order.contains e
      (x.newPeriod p).updPart p fun r =>
        { r with pageCounts := counts,
                 promote := if q.migr.en then q.promote ++ taken.filter fun e => !q.promote.contains e else q.promote }

/-! ## IMGLD -/

/-- The plots of a load, as logical plots: all for a FULL image, those the manifest names for a PARTIAL one (R231). -/
def Part.loadPlots (q : Part) (partial_ : Bool) : List Nat :=
  if partial_ then
    let l := ((q.headPart.map (·.runs)).getD []).map (·.plot)
    (span 0 q.plots).filter fun n => l.contains n
  else span 0 q.plots

/-- The contexts that a load names (R232). -/
def Part.loadCtxs (q : Part) (partial_ : Bool) : List Nat :=
  if partial_ then
    let l := ((q.headPart.map (·.runs)).getD []).map (·.ctx)
    (span 0 (ctxCount q.ctx)).filter fun k => l.contains k
  else span 0 (ctxCount q.ctx)

/-- A context of a plot written to zero: configuration and state slots (R232). -/
def Dev.zeroContext (d : Dev) (n k : Nat) : Dev :=
  let keep := fun (key : Nat) => !(decide (keyPlot key = n) && decide (keyCtx key = k))
  { d with fab := { d.fab with
      kaolin := d.fab.kaolin.filter fun e => keep e.1, slots := d.fab.slots.filter fun e => keep e.1,
      kupsets := d.fab.kupsets.filter fun e => keep (e.1 / 4) } }

/-- A load ends in the state it leaves, with PVF_LOAD's code and its ticket (R232, R256, R305). -/
def Dev.endLoad (d : Dev) (p code detail : Nat) (f : Part → Part) : Dev :=
  match (d.part p).load with
  | none => d
  | some l =>
    (d.updPart p fun q => { f q with load := none, loadCode := BitVec.ofNat 16 code }).complete l.thread l.slot code detail

/-- A load aborts (R232): the frames and slots of its plots in its contexts, and the rows it wrote, are zero, every plot of
the partition is READY, and the partition is BLANK with its placement and heads. -/
def Dev.abortLoad (d : Dev) (p code detail : Nat) : Dev :=
  let q := d.part p
  match q.load with
  | none => d
  | some l =>
    let phys := (q.loadPlots l.partial_).filterMap (d.physical p)
    let d1 := phys.foldl (fun e n => (q.loadCtxs l.partial_).foldl (fun e k => e.zeroContext n k) e) d
    let d2 := { d1 with fab := { d1.fab with bram := l.rows.foldl (fun t k => tset t k {}) d1.fab.bram } }
    let d3 := d2.updPlots p fun x =>
      { x with state := if x.state = .clearing then x.state else .ready, icpLeave := false, icpLoading := false, icpRejoin := false,
               icpFrames := [] }
    d3.endLoad p code detail fun q =>
      { q with state := .blank, rooted := false,
               digests := q.digests.filter fun e => !(q.loadPlots l.partial_).contains e.1 }

/-- The state a load was entered from, as R225 numbers it. -/
def priorOf (n : Nat) : PState := if n = 3 then .placed else .frozen

/-- IMGLD is accepted by the partition's state (R230): the detail of its refusal. -/
def Dev.loadRefused (d : Dev) (p : Nat) (part : Bool) : Option Nat :=
  let q := d.part p
  let inFlight := d.icp.any fun r => decide (r.part = p)
  if part then
    if q.state ≠ .placed ∧ q.state ≠ .frozen then some 1
    else if q.headPart.isNone then some 2
    else if inFlight then some 5 else none
  else if (q.state ≠ .loading ∧ q.state ≠ .blank) ∨ q.load.isSome then some 1
  else match q.headFull with
    | none => some 2
    | some h =>
      if q.placement.map (·.head) ≠ some h.digest then some 4
      else if inFlight then some 5 else none

/-- The authenticated message of the container as it stands: header, directory and manifest (R195, R231 step 1). -/
def Dev.message (d : Dev) (o : Op) : List Byte :=
  let n := field (d.cont o 0 128) 0x14 2 % 65
  let l := secsOf (d.cont o 128 (32 * n)) n
  d.cont o 0 (128 + 32 * n) ++ match secOf l 1 with
    | some s => d.cont o s.off (s.len % 2 ^ 32)
    | none => []

/-- Steps 1 and 2 of a load (R231): the partition and the load's plots are LOADING and the pins take their safe states. -/
def Dev.beginLoad (d : Dev) (o : Op) (part : Bool) : Dev :=
  let p := o.part
  let q := d.part p
  let plots := q.loadPlots part
  let d1 := d.abandonMigs p fun n => plots.contains n
  let d2 := plots.foldl (fun e l => match e.physical p l with
    | some n => e.updPlot n fun x =>
        { x with state := .loading, icpLeave := false, icpLoading := false, icpRejoin := false, icpFrames := [] }
    | none => e) d1
  (d2.updPart p fun q =>
    { q with state := .loading, loadFrames := 0,
             load := some { partial_ := part, prior := if q.state = .placed then 3 else 4, addr := o.b.toNat,
                            thread := o.thread, slot := o.slot } }).pinsSafe p

/-- IMGLD's operation (R230, R231, R305). -/
def Dev.startImgld (d : Dev) (o : Op) (rd : ReadOutcome) : Dev :=
  d.needLock o fun d => d.needBits o 0x17F (2 ^ 64 - 1) fun d =>
    let part := bit o.a.toNat 8
    match d.loadRefused o.part part with
    | some r => d.refuseOp o r
    | none => d.opRead o (kidOf o.b) (addrOf o.b) 128 rd fun d =>
      let h := d.cont o 0 128
      let q := d.part o.part
      if lengthKnown h ∧ !d.mayAccess o.thread o.b (field h 8 8) true then d.fail o 0x0913 badRange
      else d.opRead o (kidOf o.b) (addrOf o.b) (d.message o).length .clean fun d =>
        let want := if part then q.headPart.map (·.digest) else q.headFull.map (·.digest)
        if want = some (Config.sha384 (d.message o)) then d.beginLoad o part else d.refuseOp o 3

/-- IMGLD (R230, R231, R305). -/
def execImgld (i : Issue) (d a b : BitVec 5) (rd : ReadOutcome) (s : State) : Outcome State Fault Refusal :=
  s.work fun x => x.devIssue i 0x02 d a b partOf
    (fun e n va vb => { rights := mayName n (partOf va) false, addr := e.startAddrOk n vb false })
    fun e o => e.startImgld o rd

/-- The head of the load in progress. -/
def Part.loadHead (q : Part) (l : Load) : Option Head := if l.partial_ then q.headPart else q.headFull

/-- A frame of a logical plot, context and clod disagrees with the image's declarations (R194). -/
def Placement.frameBad (pl : Placement) (logical k c : Nat) (l : List Byte) : Bool :=
  let w := fun (g : Nat) => leNat ((l.drop (32 * g)).take 32)
  let vdir := fun (g : Nat) => match pl.pairs.find? fun x => decide (x.p = logical) || decide (x.q = logical) with
    | some x => bits (x.nibble k (4 * c + g)) (if x.p = logical then 0 else 2) 2
    | none => 0
  (span 0 4).any (fun g => decide (bits (w g) 169 2 ≠ vdir g)) ||
  ((decide (c % 32 = 15) || decide (c % 32 = 16)) && bit (pl.freeMask.getD logical 0) (c / 32) && decide (bits (w 0) 183 3 ≠ 7))

/-- A read of the container by a load: a refusal or failed read aborts the load with 0x0916 (R232, R380, R403, R405). -/
def Dev.loadRead (d : Dev) (p key a n : Nat) (rd : ReadOutcome) (body : Dev → Dev) : Dev :=
  d.readFor [(key, a, n)] rd p (fun e y => e.abortLoad p 0x0916 (addrDetail y)) body

/-- IMGLD_FRAME_GROUP: the next frame group is checked against the manifest and the declarations and written (R186, R194, R231
step 3, R232). -/
def execImgldFrameGroup (p : Nat) (rd : ReadOutcome) (s : State) : Outcome State Fault Refusal :=
  s.work fun x =>
    let q := x.part p
    if q.state ≠ .loading ∨ x.svcCut then x else
    match q.load, q.placement with
    | some l, some pl =>
      if (x.arb 48 p).quar then (x.refuseQuar 48 p).abortLoad p 0x0915 l.frames else
      match q.loadHead l with
      | none => x
      | some h =>
        match h.runs[l.run]?, secOf h.secs 8 with
        | some r, some sec =>
          let off := sec.off + l.hash.length
          let n := 16 + 2048 * r.count
          let key := l.addr / 2 ^ 48 % 64
          let a := l.addr % 2 ^ 48 + off
          x.loadRead p key a n rd fun d =>
            let g := d.memRead key a n
            if field g 0 2 ≠ r.plot ∨ field g 2 1 ≠ r.ctx ∨ field g 4 2 ≠ r.first ∨ field g 6 2 ≠ r.count ∨
                sec.len < l.hash.length + n then
              (d.post 0x0104 off p).abortLoad p 0x0104 off
            else
              let frame := fun (i : Nat) => (g.drop (16 + 2048 * i)).take 2048
              match (span 0 r.count).find? fun i => pl.frameBad r.plot r.ctx (r.first + i) (frame i) with
              | some i =>
                let det := r.plot * 2 ^ 23 + r.ctx * 2 ^ 20 + (r.first + i) * 2 ^ 10
                ((d.updPart p fun q => { q with loadFrames := BitVec.ofNat 32 (l.frames + i) }).post 0x0208 det p).abortLoad p 0x0208 det
              | none =>
                let d1 := (span 0 r.count).foldl (fun e i => match e.physical p r.plot with
                  | some m => e.writeFrame m r.ctx (r.first + i) (frame i)
                  | none => e) (d.served 48 p)
                d1.updPart p fun q =>
                  { q with loadFrames := BitVec.ofNat 32 (l.frames + r.count),
                           load := some { l with run := l.run + 1, hash := l.hash ++ g, frames := l.frames + r.count } }
        | _, _ => x
    | _, _ => x

/-- The records of a BMEM section from an offset on, after a record that ended at `prev` (R193): the rows to write,
and the offset of the first malformed record or record outside the load. -/
def bmemRecords (l : List Byte) (plots : List Nat) : Nat → Nat → Nat → List (Nat × Nat × BitVec 64) × Option Nat
  | 0, _, _ => ([], none)
  | f + 1, off, prev =>
    if l.length ≤ off then ([], none)
    else
      let pl := field l off 2
      let blk := field l (off + 2) 1
      let first := field l (off + 4) 2
      let rows := field l (off + 6) 2
      let key := (pl * 32 + blk) * 1024 + first
      if l.length < off + 8 ∨ l.length < off + 8 + 8 * rows ∨ !plots.contains pl ∨ 31 < blk ∨ rows = 0 ∨ 1024 < first + rows ∨
          key < prev then ([], some off)
      else
        let here := (span 0 rows).map fun i => (pl, blk * 1024 + first + i, leWord ((l.drop (off + 8 + 8 * i)).take 8))
        let r := bmemRecords l plots f (off + 8 + 8 * rows) (key + rows)
        (here ++ r.1, r.2)

/-- Rows of block memory written as codewords (R193). -/
def Dev.writeRows (d : Dev) (p : Nat) (l : List (Nat × Nat × BitVec 64)) : Dev :=
  l.foldl (fun e x => match e.physical p x.1 with
    | some n => e.codeRow (n * 32768 + x.2.1) x.2.2
    | none => e) d

/-- Every used context of a logical plot is written by a list of runs (R549). -/
def runsCover (l : List Run) (plot cc : Nat) : Bool :=
  (span 0 cc).all fun k =>
    decide (runTotal (l.filter fun r => decide (r.plot = plot) && decide (r.ctx = k)) = 1024)

/-- Step 6 of a load (R231, R234, R315, R549): INIT values, digests and root, end states, event 0x010C. -/
def Dev.finishLoad (d : Dev) (p : Nat) (l : Load) (h : Head) : Dev :=
  let q := d.part p
  let cc := ctxCount q.ctx
  let plots := q.loadPlots l.partial_
  let d1 := h.runs.foldl (fun e r => match e.physical p r.plot with
    | some n => (span r.first r.count).foldl (fun e c => e.initFrame n r.ctx c) e
    | none => e) d
  let d2 := (plots.foldl (fun e n => e.recordDigest p n) d1).updateRoot p
  let st : PState := if l.partial_ then priorOf l.prior else .placed
  let ps : PlotState := if st = .frozen then .frozen else .ready
  let d3 := plots.foldl (fun e n => match e.physical p n with
    | some m => e.updPlot m fun x => { x with state := ps, rewind := if l.partial_ then x.rewind else false }
    | none => e) d2
  let d4 := (d3.post 0x010C l.frames p).invalidateSnaps p
  d4.endLoad p 0 l.frames fun q =>
    { q with state := st, cycle := if l.partial_ then q.cycle else 0, eng := if l.partial_ then q.eng else {},
             damaged := q.damaged.filter fun n => !runsCover h.runs n cc }

/-- IMGLD_DONE: every frame group has been written; FRAMES and BMEM are checked, and the load completes or aborts (R231 steps 4
to 6, R232). -/
def execImgldDone (p : Nat) (rd : ReadOutcome) (s : State) : Outcome State Fault Refusal :=
  s.work fun x =>
    let q := x.part p
    if q.state ≠ .loading ∨ x.svcCut then x else
    match q.load with
    | none => x
    | some l => match q.loadHead l with
      | none => x
      | some h =>
        if l.run < h.runs.length then x
        else
          let key := l.addr / 2 ^ 48 % 64
          let base := l.addr % 2 ^ 48
          let idx := fun (ty : Nat) => (h.secIdx ty).getD 0
          match secOf h.secs 8 with
          | none => x
          | some fs =>
            let a := base + fs.off + l.hash.length
            let m := fs.len - l.hash.length
            (if m = 0 then fun (body : Dev → Dev) => body x else x.loadRead p key a m .clean) fun x =>
            if Config.sha384 (l.hash ++ x.memRead key a m) ≠ h.framesDigest then
              (x.post 0x0108 (idx 8) p).abortLoad p 0x0108 (idx 8)
            else match secOf h.secs 9 with
              | none => x.finishLoad p l h
              | some bs => x.loadRead p key (base + bs.off) bs.len rd fun d =>
                let b := d.memRead key (base + bs.off) bs.len
                let rows := bmemRecords b (q.loadPlots l.partial_) (b.length + 1) 0 0
                let d1 := d.writeRows p rows.1
                let keys := rows.1.filterMap fun y => (d.physical p y.1).map fun n => n * 32768 + y.2.1
                let d2 := d1.updPart p fun q => { q with load := some { l with rows := keys } }
                match rows.2 with
                | some off => (d2.post 0x010E (bs.off + off) p).abortLoad p 0x010E (bs.off + off)
                | none =>
                  let want := (h.secDigests.find? fun e => decide (e.1 = idx 9)).map (·.2)
                  if want = some (Config.sha384 b) then d2.finishLoad p l h
                  else (d2.post 0x0108 (idx 9) p).abortLoad p 0x0108 (idx 9)

end Sys2Proof.Machine
end

