-- ==== Sys2Proof/Machine/Runs.lean ====
section
/-! DEFINITION. Running and stopping a partition: ACT, STEP, RUN, FRZ and STOP (R227, R308 to R313), snapshots and rewind (R314 to
R316, R514 to R519). -/
namespace Sys2Proof.Machine
open Host

/-! ## ACT, STEP, RUN, FRZ, STOP -/

/-- The conditions of R227 hold. -/
def Dev.actOk (d : Dev) (p : Nat) : Bool :=
  !d.rewindDue p && !d.clk.verify && (d.part p).damaged.isEmpty && (d.start.sfLine || (d.part p).exempt)

/-- Why a partition may not enter RUNNING (R226, R227, R308): the detail of 0x010A, `none` when it may. -/
def Dev.runRefused (d : Dev) (p : Nat) : Option Nat :=
  let q := d.part p
  if q.state = .placed then (if q.startGrp ∨ !d.actOk p then some 7 else none)
  else if q.state = .frozen then (if d.actOk p then none else some 7)
  else some 1

/-- A partition enters RUNNING with its plots (R135, R226). -/
def Dev.enterRunning (d : Dev) (p : Nat) : Dev :=
  (d.plotsTo p .running).updPart p fun q => { q with state := .running, eng := { q.eng with edges := [], paceEdge := false } }

/-- An operation is done, with the design cycle number as its detail (R308, R309). -/
def Dev.doneCycle (d : Dev) (o : Op) : Dev := d.complete o.thread o.slot 0 (d.cycleLow o.part)

/-- ACT's operation (R227, R308): automatic rewind is set first, even when the transition then fails. -/
def Dev.startAct (d : Dev) (o : Op) : Dev :=
  d.needBits o 0x37F 0 fun d =>
    let d1 := if bit o.a.toNat 8 ∧ (d.part o.part).state ≠ .none then
        d.updPart o.part fun q => { q with autoRw := bit o.a.toNat 9 }
      else d
    match d1.runRefused o.part with
    | some r => d1.refuseOp o r
    | none => (d1.enterRunning o.part).doneCycle o

/-- ACT (R227, R308). -/
def execAct (i : Issue) (d a b : BitVec 5) (s : State) : Outcome State Fault Refusal :=
  s.work fun x => x.devIssue i 0x05 d a b partOf (fun _ n va _ => { rights := mayName n (partOf va) false }) Dev.startAct

/-- FRZ's operation (R311). -/
def Dev.startFrz (d : Dev) (o : Op) : Dev :=
  d.needBits o 0x7F 0 fun d =>
    if (d.part o.part).state = .running then d.addFreeze o.part (.frz o.thread o.slot) else d.done o.thread o.slot

/-- FRZ (R311). -/
def execFrz (i : Issue) (d a b : BitVec 5) (s : State) : Outcome State Fault Refusal :=
  s.work fun x => x.devIssue i 0x06 d a b partOf (fun _ n va _ => { rights := mayName n (partOf va) false }) Dev.startFrz

/-- STEP's operation (R309). -/
def Dev.startStep (d : Dev) (o : Op) : Dev :=
  d.needBits o 0x7F (2 ^ 48 - 1) fun d =>
    if o.b = 0 then d.fail o 0x0913 badB
    else if (d.part o.part).count.isSome then d.refuseOp o 1
    else match d.runRefused o.part with
      | some r => d.refuseOp o r
      | none => (d.enterRunning o.part).updPart o.part fun q =>
          { q with count := some (q.cycle.toNat + o.b.toNat), stepOp := some (o.thread, o.slot) }

/-- STEP (R309). -/
def execStep (i : Issue) (d a b : BitVec 5) (s : State) : Outcome State Fault Refusal :=
  s.work fun x => x.devIssue i 0x07 d a b partOf (fun _ n va _ => { rights := mayName n (partOf va) false }) Dev.startStep

/-- RUN's operation (R310). -/
def Dev.startRun (d : Dev) (o : Op) : Dev :=
  d.needBits o 0x7F 0 fun d =>
    if (d.part o.part).state = .running then (d.endCount o.part 0x0917).done o.thread o.slot
    else match d.runRefused o.part with
      | some r => d.refuseOp o r
      | none => ((d.endCount o.part 0x0917).enterRunning o.part).done o.thread o.slot

/-- RUN (R310). -/
def execRun (i : Issue) (d a b : BitVec 5) (s : State) : Outcome State Fault Refusal :=
  s.work fun x => x.devIssue i 0x08 d a b partOf (fun _ n va _ => { rights := mayName n (partOf va) false }) Dev.startRun

/-- STOP's operation (R312). -/
def Dev.startStop (d : Dev) (o : Op) : Dev :=
  d.needBits o 0x7F 0 fun d =>
    if (d.part o.part).state = .running then d.addFreeze o.part (.stop o.thread o.slot)
    else (((d.done o.thread o.slot).endCount o.part 0x0917).endSnapReqs o.part 0x0917)

/-- STOP (R312). -/
def execStop (i : Issue) (d a b : BitVec 5) (s : State) : Outcome State Fault Refusal :=
  s.work fun x => x.devIssue i 0x09 d a b partOf (fun _ n va _ => { rights := mayName n (partOf va) false }) Dev.startStop

/-! ## Snapshots -/

/-- SNAP's operation (R314, R514, R518). -/
def Dev.startSnap (d : Dev) (serial : Nat) (o : Op) : Dev :=
  d.needBits o 0x7F (2 ^ 54 - 1) fun d =>
    let q := d.part o.part
    let k := kidOf o.b
    let x : Snap := { addr := o.b.toNat, thread := o.thread, slot := o.slot }
    if k ≠ 0 ∧ !q.keys.contains k then d.fail o 0x0913 badB
    else if (d.keyid k).mode = .verified then d.fail o 0x0914 (8 * 2 ^ 24 + k)
    else if d.rewindDue o.part then d.refuseOp o 1
    else match q.state with
      | .running => d.updPart o.part fun q => { q with snapReq := q.snapReq ++ [x] }
      | .frozen | .placed => d.takeSnap serial o.part x
      | _ => d.refuseOp o 1

/-- SNAP (R314). -/
def execSnap (i : Issue) (d a b : BitVec 5) (s : State) : Outcome State Fault Refusal :=
  s.work fun x => x.devIssue i 0x0A d a b partOf
    (fun e n va vb => { rights := mayName n (partOf va) false, addr := e.startAddrOk n vb true })
    fun e o => e.startSnap s.serial o

/-- A capture ends: its ticket, or event 0x070A for that of a trip (R314, R540). -/
def Dev.endCapture (d : Dev) (p : Nat) (x : Snap) (code detail : Nat) : Dev :=
  if x.thread = 65 then (if code = 0 then d.post 0x070A p p else d) else d.complete x.thread x.slot code detail

/-- State faults found during a capture: each posts event 0x0803, and the partition is FROZEN with REWIND before the next design cycle runs
(R152, R170, R518). -/
def Dev.captureFault (d : Dev) (serial p : Nat) : Dev :=
  let l := (d.part p).eng.faults
  if (d.part p).state = .running then d.faultBoundary serial p
  else ((l.foldl (fun e f => e.postSrc f.code.toNat f.detail.toNat p f.src) d).updPlots p fun z => { z with rewind := true }).updEng p
    fun g => { g with faults := [] }

/-- SNAPSHOT_CAPTURE_DONE: the sections are written and STATUS becomes 1: the capture is the last snapshot; or a state fault abandons it,
or a line of a model or page that cannot be read, or of the area that could not be written, ends it (R314 to R316, R376, R380, R515 to
R518). -/
def execSnapshotCaptureDone (p : Nat) (slots : List (CfgLoc × BitVec 6)) (rd : ReadOutcome) (us : BitVec 16) (s : State) :
    Outcome State Fault Refusal :=
  s.work fun x =>
    match (x.part p).capture with
    | [] => x
    | c :: rest =>
      let d1 := (((x.updPart p fun q => { q with capture := rest }).upsetSlots p slots)).checkSlots p fun _ => true
      let failed := fun (e : Dev) (y : Nat) => e.endCapture p c 0x0916 (addrDetail y)
      if !(d1.part p).eng.faults.isEmpty then (d1.endCapture p c 0x0803 (bits c.cycle 0 32)).captureFault s.serial p
      else match c.bad with
        | some y => failed (d1.postSrc (if d1.busErr (d1.classOf y) then 0x0311 else 0x0315) (addrDetail y) p (d1.stopOf y)) y
        | none => d1.readFor (d1.snapReads p) rd p failed fun d2 =>
          let r := d2.memStoreChecked (c.addr / 2 ^ 48) (c.addr % 2 ^ 48 + 6) [1] .clean
          match r.2 with
          | some y => failed r.1 y.1
          | none => r.1.ifOpen fun d2 =>
            let d3 := d2.updPart p fun q => { q with snaps := c :: q.snaps, lastSnap := some c, snapUs := us }
            (d3.endCapture p c 0 (bits c.cycle 0 32)).journalCheck p

/-! ## Rewind -/

/-- A RWND whose snapshot cannot be read: the partition is HALTED, and RWND completes with 0x0128 (R226, R316). -/
def Dev.rwndHalt (d : Dev) (p addr n s : Nat) : Dev := (d.rewindHalt p addr).complete n s 0x0128 (addrDetail (addr % 2 ^ 48))

/-- RWND's operation (R316, R516): the header is read, and a valid snapshot of the partition begins to be restored. -/
def Dev.startRwnd (d : Dev) (serial : Nat) (o : Op) : Dev :=
  d.needBits o 0x7F (2 ^ 54 - 1) fun d =>
    let p := o.part
    let q := d.part p
    let target := if o.b = 0 then q.lastSnap.map (·.addr) else some o.b.toNat
    if q.state ≠ .frozen ∨ q.rewinding.isSome then d.refuseOp o 1
    else match target with
      | none => d.fail o 0x0913 badB
      | some a => if (d.arb 49 o.thread).quar then (d.refuseQuar 49 o.thread).fail o 0x0915 0 else
        d.readFor [(a / 2 ^ 48, a % 2 ^ 48, 4096)] .clean p (fun e _ => e.rwndHalt p a o.thread o.slot) fun e =>
          if e.snapValid serial p a then
            e.updPart p fun q => { q with rewinding := some { addr := a, auto := false, thread := o.thread, slot := o.slot } }
          else e.fail o 0x0913 badB

/-- RWND (R316). -/
def execRwnd (i : Issue) (d a b : BitVec 5) (s : State) : Outcome State Fault Refusal :=
  s.work fun x => x.devIssue i 0x0B d a b partOf
    (fun e n va vb => { rights := mayName n (partOf va) false, addr := decide (vb = 0) || e.startAddrOk n vb true })
    fun e o => e.startRwnd s.serial o

/-- A partition with cut nets that is rewound takes the next generation: its inbound buffers and unsent frames are gone (R495). -/
def Dev.nextGen (d : Dev) (p : Nat) : Dev :=
  if (d.part p).cut then
    let d1 := d.updPart p fun q => { q with gen := q.gen + 1, eng := { q.eng with cutBuf := [] } }
    forAll (span 0 4) d1 fun e n => e.updRport n fun r =>
      { r with txq := r.txq.filter fun f => !(decide (f.type = 1) && decide (f.spart = p) && decide (f.src = d.ring.position)) }
  else d

/-- REWIND_DONE: the partition stands as the snapshot holds it, FROZEN and without REWIND; a snapshot or journal record that cannot be read
halts it (R119, R226, R316, R373, R495, R519). -/
def execRewindDone (p : Nat) (rd : ReadOutcome) (s : State) : Outcome State Fault Refusal :=
  s.work fun x =>
    let q := x.part p
    match q.rewinding with
    | none => x
    | some w =>
      if w.auto ∨ q.state ≠ .frozen then x
      else x.readFor (x.rewindReads p w.addr) rd p (fun e _ => e.rwndHalt p w.addr w.thread w.slot) fun e =>
        (e.restoreSnap p w.addr w.thread).ifOpen fun y =>
          let d1 := (y.rearmLanes p).nextGen p
          let d2 := d1.updPart p fun q => { q with rewinding := none, resume := false, faultPlots := [] }
          d2.complete w.thread w.slot 0 (d2.cycleLow p)

end Sys2Proof.Machine
end

