-- ==== Sys2Proof/Machine/Moves.lean ====
section
/-! DEFINITION. The memory operations FILL, RMOV and DMA (R303, R317 to R321): their operand blocks, what they may write, the
binding of granules (R402), and what they do when done (R376, R380, R403, R425). -/
namespace Sys2Proof.Machine
open Host

/-! ## Shared checks -/

/-- A system address held in an operand block is the thread's to name: in marl or DDR5, or in the thread's data part of sequencer
memory where the operation accepts it (R297). -/
def Dev.blockAddrOk (d : Dev) (n a len : Nat) (reads seq : Bool) : Bool :=
  let w := BitVec.ofNat 64 a
  decide (a < 2 ^ 54) &&
  (if 0x031000000000 ≤ addrOf w then
     seq && decide (kidOf w = 0) && within (addrOf w) len 0x031000000000 0x400000 &&
       d.mayStore n (addrOf w - 0x031000000000) len
   else within (addrOf w) len 0 marlEnd && d.mayAccess n w len reads)

/-- The range holds a placed memory model of a RUNNING partition (R317). -/
def Dev.modelBusy (d : Dev) (a n : Nat) : Bool :=
  allParts.any fun p =>
    let q := d.part p
    decide (q.state = .running) && (match q.placement with
      | some pl => pl.models.any fun x =>
          (decide (x.tier ≠ 1) && meets a n x.base x.size) || x.pages.any fun e => meets a n e.2 4096
      | none => false)

/-- Granules of 64 MiB that a range of DDR5 touches (R401). -/
def granulesOf (a n : Nat) : List Nat := if n = 0 then [] else span (a / 2 ^ 26) ((a + n - 1) / 2 ^ 26 - a / 2 ^ 26 + 1)

/-- A destination under a VERIFIED KeyID lies in granules bound to it (R402); any other destination passes. -/
def Dev.boundOk (d : Dev) (k a n : Nat) : Bool :=
  decide ((d.keyid k).mode ≠ .verified) || decide (marlBase ≤ a) ||
    (granulesOf a n).all fun g => decide (tget d.ime.granules g 0 = k)

/-- What an operation writes: bytes of system addresses, or rows of physical block memory (R303). -/
inductive Dest where
  /-- bytes from a system address -/
  | mem (a n : Nat)
  /-- rows from a row key -/
  | rows (key n : Nat)
  /-- nothing in the device -/
  | host
  deriving DecidableEq, Repr

/-- Two destinations overlap. -/
def Dest.meets : Dest → Dest → Bool
  | .mem a n, .mem b m => Machine.meets a n b m
  | .rows a n, .rows b m => Machine.meets a n b m
  | _, _ => false

/-- A write of an operation has failed at a line for what a read found there: its event (R380, R406). -/
def Dev.writeBad (d : Dev) (part : Nat) (y : Nat) : Dev :=
  d.postSrc (if d.busErr (d.classOf y) then 0x0311 else 0x0315) (addrDetail y) part (d.stopOf y)

/-! ## FILL -/

/-- What a valid FILL block asks for (R318). -/
structure FillArgs where
  /-- destination -/
  dest : Dest
  /-- KeyID -/
  key : Nat
  /-- PATTERN -/
  pattern : Word
  /-- MODE 1: each word is PATTERN xor its address -/
  xor : Bool
  deriving DecidableEq, Repr

/-- The arguments of a FILL, or the code and detail of its failure (R298, R317, R318, R402). -/
def Dev.fillArgs (d : Dev) (o : Op) : Sum (Nat × Nat) FillArgs :=
  let l := d.block o 32
  let dest := field l 0 8
  let len := field l 8 8
  let target := field l 0x19 1
  let w := BitVec.ofNat 64 dest
  let q := d.part o.part
  let tail : Option Nat := if 1 < field l 0x18 1 then some 0x18 else if 1 < target then some 0x19
    else if !zeros l 0x1A 6 then some 0x1A else none
  let pat := BitVec.ofNat 64 (field l 0x10 8)
  let x := decide (field l 0x18 1 = 1)
  if target = 1 then
    let row := bits dest 14 10
    if 2 ^ 24 ≤ dest ∨ q.plots ≤ bits dest 0 9 then .inl (0x0913, 0)
    else match d.physical o.part (bits dest 0 9) with
      | none => .inl (0x0913, 0)
      | some n =>
        if 1024 < row + len then .inl (0x0913, 8)
        else match tail with
          | some f => .inl (0x0913, f)
          | none =>
            if q.state = .running ∨ q.state = .loading then .inl (0x010A, 1)
            else .inr { dest := .rows (rowKey n (bits dest 9 5) row) len, key := 0, pattern := pat, xor := x }
  else
    let k := kidOf w
    let a := addrOf w
    let v := decide ((d.keyid k).mode = .verified) && decide (a < marlBase)
    let whole := decide (a % 2 ^ 26 = 0) && decide (len % 2 ^ 26 = 0)
    if dest % 64 ≠ 0 ∨ !d.blockAddrOk o.thread dest 64 false true then .inl (0x0913, 0)
    else if len = 0 ∨ len % 64 ≠ 0 then .inl (0x0913, 8)
    else if !d.blockAddrOk o.thread dest len false true then .inl (0x0913, 0)
    else match tail with
      | some f => .inl (0x0913, f)
      | none =>
        if v ∧ !whole ∧ !d.boundOk k a len then .inl (0x0913, 0)
        else if d.modelBusy a len then .inl (0x010A, 1)
        else .inr { dest := .mem a len, key := k, pattern := pat, xor := x }

/-- A failure of an operation before any write: 0x010A has its event too (R255). -/
def Dev.failArgs (d : Dev) (o : Op) (e : Nat × Nat) : Dev := if e.1 = 0x010A then d.refuseOp o e.2 else d.fail o e.1 e.2

/-- The granules that a FILL of whole granules under a VERIFIED KeyID covers are bound to it at its start; one bound to another KeyID leaves the caches
first (R402). -/
def Dev.bindFill (d : Dev) (x : FillArgs) : Dev :=
  match x.dest with
  | .mem a n =>
    if (d.keyid x.key).mode = .verified ∧ (d.keyid x.key).state = .active ∧ a < marlBase ∧ a % 2 ^ 26 = 0 ∧ n % 2 ^ 26 = 0 then
      let other := (granulesOf a n).filter fun g => decide (tget d.ime.granules g 0 ≠ 0) && decide (tget d.ime.granules g 0 ≠ x.key)
      let e := forAll other d fun y g => y.flushGranule false g
      { e with ime := { e.ime with granules := (granulesOf a n).foldl (fun t g => tset t g x.key) e.ime.granules } }
    else d
  | _ => d

/-- FILL's operation (R318): its block is checked and its granules are bound; FILL_DONE writes. -/
def Dev.startFill (d : Dev) (o : Op) : Dev :=
  d.needBits o 0x7F (2 ^ 64 - 1) fun d => d.readBlock o 32 fun d => match d.fillArgs o with
    | .inl e => d.failArgs o e
    | .inr x => d.bindFill x

/-- FILL (R318). -/
def execFill (i : Issue) (d a b : BitVec 5) (s : State) : Outcome State Fault Refusal :=
  s.work fun x => x.devIssue i 0x0C d a b partOf
    (fun _ n va _ => { rights := mayName n (partOf va) true, block := some (32, false) }) Dev.startFill

/-- The bytes of a FILL from a byte address on, a word at a time (R318). -/
def fillBytes (x : FillArgs) (a : Nat) : Nat → List Byte
  | 0 => []
  | n + 1 => leBytes 8 (if x.xor then x.pattern ^^^ BitVec.ofNat 64 a else x.pattern).toNat ++ fillBytes x (a + 8) n

/-- Rows of block memory filled as codewords (R318). -/
def Dev.fillRows (d : Dev) (x : FillArgs) (key n : Nat) : Dev :=
  (span key n).foldl (fun e k => e.codeRow k (if x.xor then x.pattern ^^^ BitVec.ofNat 64 (k % 1024) else x.pattern)) d

/-! ## RMOV -/

/-- The arguments of an RMOV: source KeyID and address, destination KeyID and address, bytes (R319, R402). -/
def Dev.rmovArgs (d : Dev) (o : Op) : Sum (Nat × Nat) (Nat × Nat × Nat × Nat × Nat) :=
  let l := d.block o 32
  let src := field l 0 8
  let dst := field l 8 8
  let n := 1024 * field l 0x10 4
  let ks := kidOf (BitVec.ofNat 64 src)
  let kd := kidOf (BitVec.ofNat 64 dst)
  let s := addrOf (BitVec.ofNat 64 src)
  let t := addrOf (BitVec.ofNat 64 dst)
  if src % 1024 ≠ 0 ∨ !d.blockAddrOk o.thread src (max n 1) true false then .inl (0x0913, 0)
  else if dst % 1024 ≠ 0 ∨ !d.blockAddrOk o.thread dst (max n 1) false false then .inl (0x0913, 8)
  else if n = 0 then .inl (0x0913, 0x10)
  else if !zeros l 0x14 12 then .inl (0x0913, 0x14)
  else if meets s n t n then .inl (0x0913, 8)
  else if (d.keyid kd).mode = .verified ∧ marlBase ≤ t then .inl (0x0914, 8 * 2 ^ 24 + kd)
  else if !d.boundOk kd t n then .inl (0x0913, 8)
  else if d.modelBusy t n then .inl (0x010A, 1)
  else .inr (ks, s, kd, t, n)

/-- RMOV's operation (R319): its block is checked; RMOV_DONE copies. -/
def Dev.startRmov (d : Dev) (o : Op) : Dev :=
  d.needBits o 0x7F (2 ^ 64 - 1) fun d => d.readBlock o 32 fun d => match d.rmovArgs o with
    | .inl e => d.failArgs o e
    | .inr _ => d

/-- RMOV (R319). -/
def execRmov (i : Issue) (d a b : BitVec 5) (s : State) : Outcome State Fault Refusal :=
  s.work fun x => x.devIssue i 0x0D d a b partOf
    (fun _ n va _ => { rights := mayName n (partOf va) true, block := some (32, false) }) Dev.startRmov

/-! ## DMA -/

/-- What a valid DMA block asks for (R320). -/
structure DmaArgs where
  /-- device to host -/
  out : Bool
  /-- IRQ -/
  irq : Bool
  /-- HOST -/
  host : Nat
  /-- KeyID of DEV -/
  key : Nat
  /-- address of DEV -/
  addr : Nat
  /-- LENGTH -/
  len : Nat
  deriving DecidableEq, Repr

/-- The arguments of a DMA, or the code and detail of its failure (R297, R317, R320, R402). -/
def Dev.dmaArgs (d : Dev) (o : Op) : Sum (Nat × Nat) DmaArgs :=
  let l := d.block o 32
  let out := decide (field l 0 1 = 1)
  let dev := field l 0x10 8
  let len := field l 0x18 8
  let lenOk := decide (len % 64 = 0) && decide (64 ≤ len) && decide (len ≤ 4294967296)
  let k := kidOf (BitVec.ofNat 64 dev)
  let a := addrOf (BitVec.ofNat 64 dev)
  if 1 < field l 0 1 then .inl (0x0913, 0)
  else if 1 < field l 1 1 then .inl (0x0913, 1)
  else if !zeros l 2 6 then .inl (0x0913, 2)
  else if field l 8 8 % 64 ≠ 0 then .inl (0x0913, 8)
  else if dev % 64 ≠ 0 ∨ !d.blockAddrOk o.thread dev 64 out true ∨ (lenOk ∧ !d.blockAddrOk o.thread dev len out true) then
    .inl (0x0913, 0x10)
  else if !lenOk then .inl (0x0913, 0x18)
  else if !out ∧ !d.boundOk k a len then .inl (0x0913, 0x10)
  else if !out ∧ d.modelBusy a len then .inl (0x010A, 1)
  else .inr { out := out, irq := decide (field l 1 1 = 1), host := field l 8 8, key := k, addr := a, len := len }

/-- VF Enable, or the Bus Master Enable of a DMA channel's VF, is clear (R320). -/
def Dev.vfShut (d : Dev) (ch : Nat) : Bool := decide (ch ≠ 0) && (!d.pcie.vfEnable || !d.pcie.busMaster.contains ch)

/-- The channel of a DMA takes no new operation: its VF may not run, or it is being drained (R320, R452). -/
def Dev.channelShut (d : Dev) (ch : Nat) : Bool := d.vfShut ch || d.noc.draining.contains (.dma ch)

/-- A DMA operation completes: PVF_DMA_STATUS, its vector, its ticket (R320, R321). -/
def Dev.endDma (d : Dev) (o : Op) (code detail bytes : Nat) (irq : Bool := decide (field (d.block o 32) 1 1 = 1)) : Dev :=
  let d1 := { d with pcie := { d.pcie with
    dmaCode := tset d.pcie.dmaCode o.part (BitVec.ofNat 16 code), dmaBytes := tset d.pcie.dmaBytes o.part bytes } }
  let d2 := if irq ∧ o.part ≠ 0 then d1.raise o.part 1 else d1
  if code = 0 then d2.done o.thread o.slot else d2.fail o code detail

/-- An earlier operation of a DMA's channel is outstanding: this one is carried out and completes after it (R303). -/
def Dev.dmaBehind (d : Dev) (o : Op) : Bool :=
  d.ops.any fun y => decide (y.dop = 0x0E) && decide (y.part = o.part) && decide (y.order < o.order)

/-- A DMA's checks, and with its turn on the channel what it then does (R297, R298, R320). -/
def Dev.dmaBegin (d : Dev) (o : Op) (shut : Bool) (body : Dev → DmaArgs → Dev) : Dev :=
  if unassigned o.a 0x7F then d.endDma o 0x0913 badA 0 false
  else if shut then (d.draw 1).endDma o 0x0914 (d.freeField 0) 0
  else d.readBlock o 32 (fun e => match e.dmaArgs o with
    | .inl x => (if x.1 = 0x010A then e.post 0x010A x.2 o.part else e).endDma o x.1 x.2 0
    | .inr x => body e x) fun e y => e.endDma o 0x0916 (addrDetail y) 0 false

/-- DMA's operation (R303, R320): its block is checked when no earlier operation of the channel is outstanding; DMA_DONE transfers. -/
def Dev.startDma (d : Dev) (o : Op) : Dev := if d.dmaBehind o ∧ !d.noc.draining.contains (.dma o.part) then d else d.dmaBegin o (d.channelShut o.part) fun e _ => e

/-- DMA (R320): the channel is no longer halted once the operation is posted. -/
def execDma (i : Issue) (d a b : BitVec 5) (s : State) : Outcome State Fault Refusal :=
  s.work fun x => x.devIssue i 0x0E d a b partOf
    (fun _ n va _ => { rights := mayName n (partOf va) true, block := some (32, false) }) Dev.startDma
    fun e o => { e with pcie := { e.pcie with dmaHalt := e.pcie.dmaHalt.filter (· ≠ o.part) } }

/-! ## Order among them (R303) -/

/-- What an operation under way writes. -/
def Dev.destOf (d : Dev) (o : Op) : Dest :=
  if o.dop = 0x0C then match d.fillArgs o with | .inr x => x.dest | .inl _ => .host
  else if o.dop = 0x0D then match d.rmovArgs o with | .inr x => .mem x.2.2.2.1 x.2.2.2.2 | .inl _ => .host
  else if o.dop = 0x0E then match d.dmaArgs o with
    | .inr x => if x.out then .host else .mem x.addr x.len
    | .inl _ => .host
  else .host

/-- An earlier operation must complete first: one that writes an overlap, or one of the same DMA channel (R303). -/
def Dev.mustWait (d : Dev) (o : Op) : Bool :=
  d.ops.any fun y => decide (y.order < o.order) && decide (y.phase = .run) && [0x0C, 0x0D, 0x0E].contains y.dop &&
    ((d.destOf o).meets (d.destOf y) || (decide (o.dop = 0x0E) && decide (y.dop = 0x0E) && decide (y.part = o.part)))

/-- The running operation of a ticket whose turn has come, with its operation number. -/
def Dev.turn (d : Dev) (n s dop : Nat) (body : Op → Dev) : Dev :=
  match d.op n s with
  | some o => if o.dop = dop ∧ o.phase = .run ∧ !d.mustWait o then body o else d
  | none => d

/-- The rows of marl that a range touches are written by row moves from a row buffer, filled with each row's data (R318, R346). -/
def Dev.fillMarl (d : Dev) (x : FillArgs) (a n who : Nat) : Dev :=
  if marlBase ≤ a ∧ a < marlEnd then
    (span (a / 1024) ((a + n - 1) / 1024 - a / 1024 + 1)).foldl (fun e r =>
      ((e.served 49 who).stage (rowPort (1024 * r)) (fillBytes x (1024 * r) 128)).countRow (1024 * r)) d
  else d

/-- FILL_DONE: every byte or row is written (R317, R318). -/
def execFillDone (n slot : Nat) (rd : ReadOutcome) (s : State) : Outcome State Fault Refusal :=
  s.work fun d => d.turn n slot 0x0C fun o => d.readBlock o 32 fun d => match d.fillArgs o with
    | .inl e => d.failArgs o e
    | .inr x => match x.dest with
      | .rows key m => (d.fillRows x key m).done o.thread o.slot
      | .mem a m =>
        if marlBase ≤ a ∧ a < marlEnd ∧ (d.arb 49 n).quar then (d.refuseQuar 49 n).fail o 0x0915 0
        else match d.refuse 0 x.key a m true with
        | some r => (d.postRefuse r 0 x.key a true 1).fail o 0x0916 (addrDetail a)
        | none =>
          let r := (d.fillMarl x a m n).storeFor x.key a (fillBytes x a (m / 8)) rd
          r.1.ifOpen fun e => match r.2 with
            | none => e.done o.thread o.slot
            | some (y, .moved) => e.fail o 0x0916 (addrDetail y)
            | some (y, .abort) => e.fail o 0x0915 ((y - a) % 2 ^ 32)
            | some (y, _) => (e.writeBad o.part y).fail o 0x0916 (addrDetail y)
      | .host => d

/-- RMOV_DONE: every row is copied, decrypted under the source KeyID and encrypted under the destination's. A bad line of the source
ends it there under REQUESTER, and goes on poisoned under BUSERR (R317, R319, R346, R380). -/
def execRmovDone (n slot : Nat) (rd : ReadOutcome) (s : State) : Outcome State Fault Refusal :=
  s.work fun d => d.turn n slot 0x0D fun o => d.readBlock o 32 fun d => match d.rmovArgs o with
    | .inl e => d.failArgs o e
    | .inr (ks, s, kd, t, m) =>
      if (marlBase ≤ s ∨ marlBase ≤ t) ∧ (d.arb 49 n).quar then (d.refuseQuar 49 n).fail o 0x0915 0
      else match d.refuse 0 ks s m false, d.refuse 0 kd t m true with
      | some r, _ => (d.postRefuse r 0 ks s false 1).fail o 0x0916 (addrDetail s)
      | none, some r => (d.postRefuse r 0 kd t true 1).fail o 0x0916 (addrDetail t)
      | none, none =>
        let r := (d.draw m).moveRows ks s kd t o.part n rd (m / 1024)
        r.1.ifOpen fun e => match r.2 with
          | none => e.done o.thread o.slot
          | some y => e.fail o 0x0916 (addrDetail y)

/-- A channel halts with an error: the operation ends, and those posted behind it that have not started are not carried out, held ones
among them (R320). -/
def Dev.haltChannel (d : Dev) (o : Op) (code detail bytes : Nat) (irq : Bool) : Dev :=
  let d1 := { d with pcie := { d.pcie with dmaHalt := o.part :: d.pcie.dmaHalt.filter (· ≠ o.part) } }.endDma o code detail bytes irq
  (d1.ops.filter fun y => decide (y.dop = 0x0E) && decide (y.part = o.part)).foldl (fun e y => e.endDma y 0x0918 0 0) d1

/-- Bytes written to host memory; a line written whole is no longer poisoned. -/
def Dev.hostWrite (d : Dev) (a : Nat) (l : List Byte) (bad : Bool) : Dev :=
  let lines := span (a / 64) (l.length / 64)
  let rest := d.pcie.hostPoison.filter fun x => !lines.contains x
  { d with pcie := { d.pcie with hostMem := csetBytes d.pcie.hostMem a l, hostPoison := if bad then lines ++ rest else rest } }

/-- Lines of device memory sent to the host, `n` of them from line `i` of the transfer on, up to one that halts the channel: its carry code
is checked where it leaves (R320, R380, R425). -/
def Dev.sendLines (d : Dev) (o : Op) (x : DmaArgs) (rd : ReadOutcome) (i : Nat) : Nat → Dev
  | 0 => d.endDma o 0 0 x.len x.irq
  | n + 1 =>
    let a := x.addr + 64 * i
    let here := decide (outcomeAt rd < 64)
    let rest := if here then .clean else outcomePast rd 1
    let halt := fun (e : Dev) => e.haltChannel o 0x0916 (addrDetail a) (64 * i) x.irq
    match d.look x.key a 64 (if here then rd else .clean) false with
    | .halt e => e
    | .good e => (e.hostWrite (x.host + 64 * i) (e.memRead x.key a 64) false).sendLines o x rest (i + 1) n
    | .bad e _ .moved => halt ({ e with ime := { e.ime with ccPcie := sat1 e.ime.ccPcie } }.postSrc 0x0420 o.part 0 0)
    | .bad e _ b =>
      let f := e.noteBad b a
      if b ≠ .abort ∧ d.busErr (d.classOf a) then
        ((f.postSrc 0x0311 (addrDetail a) o.part (d.stopOf a)).hostWrite (x.host + 64 * i) (f.memRead x.key a 64) true).sendLines
          o x rest (i + 1) n
      else halt (f.postSrc 0x0312 (addrDetail a) o.part (d.stopOf a))

/-- A host-to-device transfer: what the write comes to (R320, R380, R406, R425, R453). -/
def Dev.receiveLines (d : Dev) (o : Op) (x : DmaArgs) (host : List Byte) (rd : ReadOutcome) : Dev :=
  let r := d.storeFor x.key x.addr host rd
  r.1.ifOpen fun e => match r.2 with
    | none => e.endDma o 0 0 x.len x.irq
    | some (y, .moved) => e.endDma o 0x0916 (addrDetail y) (y - x.addr) x.irq
    | some (y, .abort) => e.endDma o 0x0915 ((y - x.addr) % 2 ^ 32) (y - x.addr) x.irq
    | some (y, _) => (e.postSrc (if e.busErr (e.classOf y) then 0x0311 else 0x0312) (addrDetail y) o.part (e.stopOf y)).haltChannel o
        0x0916 (addrDetail y) (y - x.addr) x.irq

/-- DMA_DONE: the bytes are transferred between host memory and the device (R317, R320, R321, R380, R403, R425). -/
def execDmaDone (n slot : Nat) (host : List (BitVec 8)) (rd : ReadOutcome) (s : State) : Outcome State Fault Refusal :=
  s.work fun d => d.turn n slot 0x0E fun o =>
    if !d.pcie.linkUp then d
    else if (d.arb 0 (o.part + 1)).quar then (d.refuseQuar 0 (o.part + 1)).endDma o 0x0915 0 0
    else d.dmaBegin o (d.vfShut o.part) fun d x =>
      match d.refuse (2 + o.part) x.key x.addr x.len (!x.out) with
      | some r => (d.postRefuse r (2 + o.part) x.key x.addr (!x.out) 0).endDma o 0x0916 (addrDetail x.addr) 0
      | none =>
        if x.out then (d.draw x.len).sendLines o x rd 0 (x.len / 64)
        else if host.length ≠ x.len then d
        else d.receiveLines o x host rd

end Sys2Proof.Machine
end

