-- ==== Sys2Proof/Machine/Probes.lean ====
section
/-! DEFINITION. PRB and TRIG: probe selections and trigger programs (R322, R502 to R505, R511). -/
namespace Sys2Proof.Machine
open Host

/-- The first fault of a list of checks in block order: the offset of the first one that fails (R295, R298). -/
def firstBad : List (Bool × Nat) → Option Nat
  | [] => none
  | (ok, off) :: r => if ok then firstBad r else some off

/-! ## PRB -/

/-- COUNT of a selection block (R504). -/
def prbCount (l : List Byte) : Nat := field l 0 2

/-- Bytes of the selection block at an offset of sequencer memory; a COUNT above 1,920 gives no entries (R504). -/
def Dev.prbLen (d : Dev) (off : Nat) : Nat :=
  let c := prbCount (d.memRead 0 (seqAddr off) 2)
  if 1920 < c then 0x90 else 0x90 + 264 * c

/-- Offset of entry i (R504). -/
def prbAt (i : Nat) : Nat := 0x90 + 264 * i

/-- A PMU entry of a selection block (R502, R504). -/
def pmuOf (l : List Byte) (i : Nat) : PmuEntry :=
  let a := prbAt i
  { plot := field l a 2, pmu := field l (a + 2) 1, trace := bit (field l (a + 3) 1) 0,
    lanes := (span 0 64).map fun j => BitVec.ofNat 32 (field l (a + 8 + 4 * j) 4) }

/-- The selection a block spells (R504). -/
def selectionOf (l : List Byte) : Selection :=
  { tmode := field l 2 1, keySlot := field l 3 1, tstart := decide (field l 4 1 = 1), podiv := field l 5 1,
    pomask := BitVec.ofNat 32 (field l 8 4),
    pomap := (span 0 32).map fun i =>
      let w := field l (0x10 + 4 * i) 4
      (bits w 0 11, bits w 11 6, bit w 17),
    entries := (span 0 (prbCount l)).map (pmuOf l) }

/-- The trace key slot may be written under: it holds a KeyID that is not VERIFIED, unless trace is off (R505). -/
def Dev.traceSlotOk (d : Dev) (p slot mode : Nat) : Bool :=
  let k := (d.part p).keys.getD slot 0
  decide (slot ≤ 7) && (decide (mode = 0) || (decide (k ≠ 0) && decide ((d.keyid k).mode ≠ .verified)))

/-- Checks of the entries of a selection block, in block order (R502, R504, R505): `seen` the PMUs named, `n` the entries that set
TRACE so far. -/
def prbEntries (l : List Byte) (plots : Nat) (seen : List (Nat × Nat)) (n : Nat) : List Nat → Option Nat
  | [] => none
  | i :: r =>
    let a := prbAt i
    let e := pmuOf l i
    let fl := field l (a + 3) 1
    let n1 := n + b2n e.trace
    match firstBad ([(decide (e.plot < plots), a), (decide (e.pmu ≤ 3) && !seen.contains (e.plot, e.pmu), a + 2),
        (decide (fl ≤ 1) && decide (n1 ≤ 254), a + 3), (zeros l (a + 4) 4, a + 4)] ++
        (span 0 64).map fun j => (decide (bits (field l (a + 8 + 4 * j) 4) 21 10 = 0), a + 8 + 4 * j)) with
    | some f => some f
    | none => prbEntries l plots ((e.plot, e.pmu) :: seen) n1 r

/-- The offset of the first faulty field of a selection block (R295, R298, R504, R505). -/
def Dev.prbFault (d : Dev) (p : Nat) (l : List Byte) : Option Nat :=
  let c := prbCount l
  let mask := BitVec.ofNat 32 (field l 8 4)
  if 1920 < c then some 0
  else match firstBad ([(decide (field l 2 1 ≤ 2), 2), (d.traceSlotOk p (field l 3 1) (field l 2 1), 3),
      (decide (field l 4 1 ≤ 1), 4), (zeros l 6 2, 6), (zeros l 0xC 4, 0xC)] ++
      (span 0 32).map fun i =>
        let w := field l (0x10 + 4 * i) 4
        (decide (bits w 18 14 = 0) && (!mask.getLsbD i || decide (bits w 0 11 < c)), 0x10 + 4 * i)) with
    | some f => some f
    | none => prbEntries l (d.part p).plots [] 0 (span 0 c)

/-- PRB's operation (R322, R504): the selection takes effect at the next boundary of a RUNNING partition, else at once. -/
def Dev.startPrb (d : Dev) (o : Op) : Dev :=
  d.needBits o 0x7F (2 ^ 64 - 1) fun d => d.readBlock o (d.prbLen o.b.toNat) fun d =>
    let l := d.block o (d.prbLen o.b.toNat)
    let go := fun (e : Dev) =>
      match e.prbFault o.part l with
      | some f => e.fail o 0x0913 f
      | none =>
        let s := selectionOf l
        if (e.part o.part).state = .running then
          e.updPart o.part fun q => { q with selNext := q.selNext ++ [(s, o.thread, o.slot)] }
        else (e.setSel o.part s).done o.thread o.slot
    if field l 8 4 ≠ 0 then d.needFeat o 10 go else go d

/-- PRB (R322, R504). -/
def execPrb (i : Issue) (d a b : BitVec 5) (s : State) : Outcome State Fault Refusal :=
  s.work fun x => x.devIssue i 0x0F d a b partOf
    (fun e n va vb => { rights := mayName n (partOf va) false, block := some (e.prbLen vb.toNat, false) })
    Dev.startPrb

/-! ## TRIG -/

/-- Units that a trigger block names, in ascending order (R511). -/
def trigUnits (w : Nat) : List Nat := (span 0 16).filter fun u => bit w u

/-- Bytes of the trigger block at an offset of sequencer memory (R511). -/
def Dev.trigLen (d : Dev) (off : Nat) : Nat :=
  8 + 256 * (trigUnits (leNat (d.memRead 0 (seqAddr off) 2))).length

/-- The trigger state at an offset of a block (R511). -/
def trigStateOf (l : List Byte) (a : Nat) : TrigState :=
  { entry := field l a 2, oper := field l (a + 2) 1, next := bits (field l (a + 3) 1) 0 3, disarm := bit (field l (a + 3) 1) 7,
    count := field l (a + 4) 4, mask := BitVec.ofNat 64 (field l (a + 8) 8), value := BitVec.ofNat 64 (field l (a + 0x10) 8),
    action := BitVec.ofNat 4 (field l (a + 0x18) 1), post := field l (a + 0x1C) 4 }

/-- The checks of the trigger state at an offset (R295, R511). -/
def trigChecks (l : List Byte) (a : Nat) : List (Bool × Nat) :=
  [(decide (field l (a + 2) 1 ≤ 3), a + 2), (decide (bits (field l (a + 3) 1) 3 4 = 0), a + 3),
   (decide (bits (field l (a + 0x18) 1) 4 4 = 0), a + 0x18), (zeros l (a + 0x19) 3, a + 0x19)]

/-- The offset of the first faulty field of a trigger block (R511). -/
def Dev.trigFault (d : Dev) (p : Nat) (l : List Byte) : Option Nat :=
  let u := BitVec.ofNat 16 (field l 0 2)
  firstBad ([(decide (u &&& ~~~(d.part p).trigs = 0), 0), (zeros l 2 6, 2)] ++
    (span 0 (8 * (trigUnits u.toNat).length)).flatMap fun i => trigChecks l (8 + 32 * i))

/-- The programs of a trigger block: each unit named with its eight states (R511). -/
def trigPrograms (l : List Byte) : List (Nat × List TrigState) :=
  let us := trigUnits (field l 0 2)
  ((span 0 us.length).zip us).map fun x =>
    (x.2, (span 0 8).map fun j => trigStateOf l (8 + 256 * x.1 + 32 * j))

/-- TRIG's operation (R322, R511). -/
def Dev.startTrig (d : Dev) (o : Op) : Dev :=
  d.needBits o 0x7F (2 ^ 64 - 1) fun d => d.readBlock o (d.trigLen o.b.toNat) fun d =>
    let l := d.block o (d.trigLen o.b.toNat)
    match d.trigFault o.part l with
    | some f => d.fail o 0x0913 f
    | none =>
      if (d.part o.part).state = .running then
        d.updPart o.part fun q => { q with trigNext := q.trigNext ++ [(trigPrograms l, o.thread, o.slot)] }
      else (d.setTrig o.part (trigPrograms l)).done o.thread o.slot

/-- TRIG (R322, R511). -/
def execTrig (i : Issue) (d a b : BitVec 5) (s : State) : Outcome State Fault Refusal :=
  s.work fun x => x.devIssue i 0x10 d a b partOf
    (fun e n va vb => { rights := mayName n (partOf va) false, block := some (e.trigLen vb.toNat, false) })
    Dev.startTrig

end Sys2Proof.Machine
end

