-- ==== Sys2Proof/Machine/VezerAlu.lean ====
section
/-! DEFINITION. Vezer register instructions: the ALU group (R272) and the immediates (R271). -/
namespace Sys2Proof.Machine
open Host

/-- An instruction whose only effect is a value in gD, computed from its thread. -/
def Dev.alu (d : Dev) (i : Issue) (w : Nat) (r : BitVec 5) (f : Thread → Word) : Dev :=
  d.issue i w fun e => e.result i.thread r (f (e.thr i.thread))

/-- IMM16 with its sign (R271). -/
def sext16 (imm : BitVec 16) : Word := imm.signExtend 64
/-- IMM16 without a sign (R271). -/
def zext16 (imm : BitVec 16) : Word := imm.setWidth 64
/-- The shift amount gB[5:0] (R272). -/
def shamt (b : Word) : Nat := b.toNat % 64
/-- A comparison's result (R272). -/
def flag (c : Bool) : Word := if c then 1 else 0
/-- High 64 bits of an unsigned product (R272). -/
def mulHigh (a b : Word) : Word := BitVec.ofNat 64 (a.toNat * b.toNat / 2 ^ 64)
/-- Unsigned quotient, all ones for a divisor of 0 (R272). -/
def divU (a b : Word) : Word := if b = 0 then BitVec.allOnes 64 else a / b
/-- Unsigned remainder, the dividend for a divisor of 0 (R272). -/
def remU (a b : Word) : Word := if b = 0 then a else a % b
/-- Number of 1 bits (R272). -/
def popCount (a : Word) : Word := BitVec.ofNat 64 ((span 0 64).foldl (fun n k => n + b2n (a.getLsbD k)) 0)
/-- Leading zero bits, 64 for 0 (R272). -/
def leadingZeros (a : Word) : Word := BitVec.ofNat 64 (((span 0 64).find? fun k => a.getLsbD (63 - k)).getD 64)
/-- Trailing zero bits, 64 for 0 (R272). -/
def trailingZeros (a : Word) : Word := BitVec.ofNat 64 (((span 0 64).find? fun k => a.getLsbD k).getD 64)

/-- ADD (R272). -/
def execAdd (i : Issue) (d a b : BitVec 5) (s : State) : Outcome State Fault Refusal :=
  s.work fun x => x.alu i (wordA 0 0 d a b) d fun t => t.reg a + t.reg b

/-- SUB (R272). -/
def execSub (i : Issue) (d a b : BitVec 5) (s : State) : Outcome State Fault Refusal :=
  s.work fun x => x.alu i (wordA 0 1 d a b) d fun t => t.reg a - t.reg b

/-- AND (R272). -/
def execAnd (i : Issue) (d a b : BitVec 5) (s : State) : Outcome State Fault Refusal :=
  s.work fun x => x.alu i (wordA 0 2 d a b) d fun t => t.reg a &&& t.reg b

/-- OR (R272). -/
def execOr (i : Issue) (d a b : BitVec 5) (s : State) : Outcome State Fault Refusal :=
  s.work fun x => x.alu i (wordA 0 3 d a b) d fun t => t.reg a ||| t.reg b

/-- XOR (R272). -/
def execXor (i : Issue) (d a b : BitVec 5) (s : State) : Outcome State Fault Refusal :=
  s.work fun x => x.alu i (wordA 0 4 d a b) d fun t => t.reg a ^^^ t.reg b

/-- SLL (R272). -/
def execSll (i : Issue) (d a b : BitVec 5) (s : State) : Outcome State Fault Refusal :=
  s.work fun x => x.alu i (wordA 0 5 d a b) d fun t => t.reg a <<< shamt (t.reg b)

/-- SRL (R272). -/
def execSrl (i : Issue) (d a b : BitVec 5) (s : State) : Outcome State Fault Refusal :=
  s.work fun x => x.alu i (wordA 0 6 d a b) d fun t => t.reg a >>> shamt (t.reg b)

/-- SRA (R272). -/
def execSra (i : Issue) (d a b : BitVec 5) (s : State) : Outcome State Fault Refusal :=
  s.work fun x => x.alu i (wordA 0 7 d a b) d fun t => (t.reg a).sshiftRight (shamt (t.reg b))

/-- MUL (R272). -/
def execMul (i : Issue) (d a b : BitVec 5) (s : State) : Outcome State Fault Refusal :=
  s.work fun x => x.alu i (wordA 0 8 d a b) d fun t => t.reg a * t.reg b

/-- MULHU (R272). -/
def execMulhu (i : Issue) (d a b : BitVec 5) (s : State) : Outcome State Fault Refusal :=
  s.work fun x => x.alu i (wordA 0 9 d a b) d fun t => mulHigh (t.reg a) (t.reg b)

/-- DIVU (R272). -/
def execDivu (i : Issue) (d a b : BitVec 5) (s : State) : Outcome State Fault Refusal :=
  s.work fun x => x.alu i (wordA 0 10 d a b) d fun t => divU (t.reg a) (t.reg b)

/-- REMU (R272). -/
def execRemu (i : Issue) (d a b : BitVec 5) (s : State) : Outcome State Fault Refusal :=
  s.work fun x => x.alu i (wordA 0 11 d a b) d fun t => remU (t.reg a) (t.reg b)

/-- SLT (R272). -/
def execSlt (i : Issue) (d a b : BitVec 5) (s : State) : Outcome State Fault Refusal :=
  s.work fun x => x.alu i (wordA 0 12 d a b) d fun t => flag ((t.reg a).slt (t.reg b))

/-- SLTU (R272). -/
def execSltu (i : Issue) (d a b : BitVec 5) (s : State) : Outcome State Fault Refusal :=
  s.work fun x => x.alu i (wordA 0 13 d a b) d fun t => flag ((t.reg a).ult (t.reg b))

/-- POPC (R272). -/
def execPopc (i : Issue) (d a : BitVec 5) (s : State) : Outcome State Fault Refusal :=
  s.work fun x => x.alu i (wordA 0 14 d a 0) d fun t => popCount (t.reg a)

/-- CLZ (R272). -/
def execClz (i : Issue) (d a : BitVec 5) (s : State) : Outcome State Fault Refusal :=
  s.work fun x => x.alu i (wordA 0 15 d a 0) d fun t => leadingZeros (t.reg a)

/-- CTZ (R272). -/
def execCtz (i : Issue) (d a : BitVec 5) (s : State) : Outcome State Fault Refusal :=
  s.work fun x => x.alu i (wordA 0 16 d a 0) d fun t => trailingZeros (t.reg a)

/-- ADDI (R271). -/
def execAddi (i : Issue) (d a : BitVec 5) (imm : BitVec 16) (s : State) : Outcome State Fault Refusal :=
  s.work fun x => x.alu i (wordI 1 d a imm.toNat) d fun t => t.reg a + sext16 imm

/-- ANDI (R271). -/
def execAndi (i : Issue) (d a : BitVec 5) (imm : BitVec 16) (s : State) : Outcome State Fault Refusal :=
  s.work fun x => x.alu i (wordI 2 d a imm.toNat) d fun t => t.reg a &&& zext16 imm

/-- ORI (R271). -/
def execOri (i : Issue) (d a : BitVec 5) (imm : BitVec 16) (s : State) : Outcome State Fault Refusal :=
  s.work fun x => x.alu i (wordI 3 d a imm.toNat) d fun t => t.reg a ||| zext16 imm

/-- XORI (R271). -/
def execXori (i : Issue) (d a : BitVec 5) (imm : BitVec 16) (s : State) : Outcome State Fault Refusal :=
  s.work fun x => x.alu i (wordI 4 d a imm.toNat) d fun t => t.reg a ^^^ zext16 imm

/-- SLTI (R271). -/
def execSlti (i : Issue) (d a : BitVec 5) (imm : BitVec 16) (s : State) : Outcome State Fault Refusal :=
  s.work fun x => x.alu i (wordI 8 d a imm.toNat) d fun t => flag ((t.reg a).slt (sext16 imm))

/-- SLTIU (R271). -/
def execSltiu (i : Issue) (d a : BitVec 5) (imm : BitVec 16) (s : State) : Outcome State Fault Refusal :=
  s.work fun x => x.alu i (wordI 9 d a imm.toNat) d fun t => flag ((t.reg a).ult (sext16 imm))

/-- SLLI (R271). -/
def execSlli (i : Issue) (d a : BitVec 5) (sh : BitVec 6) (s : State) : Outcome State Fault Refusal :=
  s.work fun x => x.alu i (wordI 5 d a sh.toNat) d fun t => t.reg a <<< sh.toNat

/-- SRLI (R271). -/
def execSrli (i : Issue) (d a : BitVec 5) (sh : BitVec 6) (s : State) : Outcome State Fault Refusal :=
  s.work fun x => x.alu i (wordI 6 d a sh.toNat) d fun t => t.reg a >>> sh.toNat

/-- SRAI (R271). -/
def execSrai (i : Issue) (d a : BitVec 5) (sh : BitVec 6) (s : State) : Outcome State Fault Refusal :=
  s.work fun x => x.alu i (wordI 7 d a sh.toNat) d fun t => (t.reg a).sshiftRight sh.toNat

/-- LUI: the immediate in bits [31:16], with its sign (R271). -/
def execLui (i : Issue) (d : BitVec 5) (imm : BitVec 16) (s : State) : Outcome State Fault Refusal :=
  s.work fun x => x.alu i (wordI 10 d 0 imm.toNat) d fun _ => (imm ++ (0 : BitVec 16)).signExtend 64

/-- SHIN: gD shifted in by an immediate (R271). -/
def execShin (i : Issue) (d : BitVec 5) (imm : BitVec 16) (s : State) : Outcome State Fault Refusal :=
  s.work fun x => x.alu i (wordI 11 d 0 imm.toNat) d fun t => (t.reg d <<< 16) ||| zext16 imm

end Sys2Proof.Machine
end

