-- ==== Sys2Proof/Machine/VezerMem.lean ====
section
/-! DEFINITION. Vezer memory instructions: loads and stores of sequencer memory (R262, R264, R271, R274), AMO (R273), and
the issue of LDS and STS (R266). -/
namespace Sys2Proof.Machine
open Host

/-- Address of a format M access (R271). -/
def Thread.memAddr (t : Thread) (a : BitVec 5) (off : BitVec 16) : Word := t.reg a + sext16 off

/-- A thread's read of `k` bytes of sequencer memory at a byte offset: a correction counts in its bucket; a read that fails raises trap 0x0907
(R264, R382, R425); otherwise `body` goes on. -/
def Dev.seqRead (d : Dev) (n : Nat) (addr : Word) (k : Nat) (rd : ReadOutcome) (body : Dev → Dev) : Dev :=
  match d.lookPlain (seqAddr addr.toNat) k rd with
  | (e, some b) => e.seqTrap n b 0x0907 addr
  | (e, none) => body e

/-- What a thread's store of `k` bytes reads first: its codeword where it covers part of it (R274), and the carry code of its unit (R424).
-/
def Dev.seqMerge (d : Dev) (n : Nat) (addr : Word) (k : Nat) (rd : ReadOutcome) (body : Dev → Dev) : Dev :=
  if k = 8 then
    if tget d.mem.ccUpsets (seqAddr addr.toNat / 64) 0 = 0 then body d else d.seqTrap n (seqAddr addr.toNat, .carry) 0x0907 addr
  else d.seqRead n addr k rd body

/-- A load of `k` bytes (R262, R264, R271, R285). -/
def Dev.load (d : Dev) (i : Issue) (op : Nat) (r a : BitVec 5) (off : BitVec 16) (k : Nat) (rd : ReadOutcome) : Dev :=
  d.issue i (wordI op r a off.toNat) fun e =>
    let n := i.thread
    let x := (e.thr n).memAddr a off
    if !e.mayLoad n x.toNat k then e.trap n 0x0903 x
    else if x.toNat % k ≠ 0 then e.trap n 0x0905 x
    else e.seqRead n x k rd fun f =>
      (f.result n r (leWord (f.memRead 0 (seqAddr x.toNat) k))).draw k

/-- A store of `k` bytes; one of less than 8 reads the codeword first (R262, R271, R274, R285). -/
def Dev.store (d : Dev) (i : Issue) (op : Nat) (r a : BitVec 5) (off : BitVec 16) (k : Nat) (rd : ReadOutcome) : Dev :=
  d.issue i (wordI op r a off.toNat) fun e =>
    let n := i.thread
    let x := (e.thr n).memAddr a off
    if !e.mayStore n x.toNat k then e.trap n 0x0903 x
    else if x.toNat % k ≠ 0 then e.trap n 0x0905 x
    else e.seqMerge n x k rd fun f =>
      (f.memWrite 0 (seqAddr x.toNat) (leBytes k ((f.thr n).reg r).toNat)).nextPc n

/-- An atomic read-modify-write of the word at gA: gD receives the old value, `f` gives the new one from the old value,
gB and the old gD (R273, R274, R285). -/
def Dev.amo (d : Dev) (i : Issue) (fn : Nat) (r a b : BitVec 5) (rd : ReadOutcome) (f : Word → Word → Word → Word) : Dev :=
  d.issue i (wordA 0x18 fn r a b) fun e =>
    let n := i.thread
    let t := e.thr n
    let x := t.reg a
    if !(e.mayLoad n x.toNat 8 && e.mayStore n x.toNat 8) then e.trap n 0x0903 x
    else if x.toNat % 8 ≠ 0 then e.trap n 0x0905 x
    else e.seqRead n x 8 rd fun g =>
      let m := leWord (g.memRead 0 (seqAddr x.toNat) 8)
      let g := g.draw 8
      (g.memWrite 0 (seqAddr x.toNat) (leBytes 8 (f m (t.reg b) (t.reg r)).toNat)).result n r m

/-- A thread may reach a system address with LDS, or with STS when `write` (R266): the register window under KeyID 0, which
threads other than T0 only read, or marl and DDR5, where those reach their partition's allocations under KeyIDs of its set alone.
Address bits [63:54] belong to no range. -/
def Dev.mayReach (d : Dev) (n : Nat) (x : Word) (write : Bool) : Bool :=
  let a := addrOf x
  decide (x.toNat < 2 ^ 54) &&
  (if 0x032000000000 ≤ a ∧ a ≤ 0x032003FFFFFF then decide (kidOf x = 0) && (decide (n = 0) || !write)
   else if a < marlEnd then d.mayAccess n x 8 false && (decide (n = 0) || (decide (kidOf x ≠ 0) && (d.part n).keys.contains (kidOf x))) else false)

/-- The packet of a thread's access to marl or DDR5: a REQ from the sequencer's stop to the memory's (R443). -/
def Dev.accessHeader (d : Dev) (n : Nat) (x : Word) (write : Bool) : Header :=
  let a := addrOf x
  { cls := .req, src := 1, dst := d.stopOf a, who := n, tag := n, addr := if a < marlBase then (d.physAt a).2 else a, write := write }

/-- A register of the management stop: keep registers, the thermal controller, the meter bridge (R49, R436). -/
def managed (x : Word) : Bool :=
  let off := addrOf x - 0x032000000000
  decide (0x032000000000 ≤ addrOf x) && ((decide (0x30000 ≤ off) && decide (off < 0x40000)) ||
    (decide (0xA00000 ≤ off) && decide (off < 0xB00000)) || (decide (0xC00000 ≤ off) && decide (off < 0xD00000)))

/-- A thread's access to marl or DDR5 goes to its stop, with the data that it stores, one to a register of the management stop there as MGMT
(R443); other registers are not reached by packets that the model shows (log 62). -/
def Dev.sendAccess (d : Dev) (n : Nat) (x : Word) (data : Option Word) : Dev :=
  let l := (data.map fun v => leBytes 8 v.toNat).getD []
  if addrOf x < marlEnd then d.send (d.accessHeader n x data.isSome) l
  else if managed x then d.send { cls := .mgmt, src := 1, dst := 2, who := n, tag := n, write := data.isSome } l
  else d

/-- The response of such an access. -/
def Dev.answerAccess (d : Dev) (n : Nat) (x : Word) (write : Bool) (data : List Byte) : Dev :=
  if addrOf x < marlEnd then d.respondTo (d.accessHeader n x write) data
  else if managed x then d.send { cls := .mgmt, src := 2, dst := 1, tag := n } data
  else d

/-- LDS and STS issue: the thread waits for the access (R266, R267). -/
def Dev.systemAccess (d : Dev) (i : Issue) (op : Nat) (r a : BitVec 5) (off : BitVec 16) (write : Bool) : Dev :=
  d.issue i (wordI op r a off.toNat) fun e =>
    let n := i.thread
    let t := e.thr n
    let x := t.memAddr a off
    if !e.mayReach n x write then e.trap n 0x0903 x
    else if x.toNat % 8 ≠ 0 then e.trap n 0x0905 x
    else (e.updThr n fun t =>
      { t with state := .wait, wait := some (if write then .sts x (t.reg r) else .lds x r.toNat) }).sendAccess n x
        (if write then some (t.reg r) else none)

/-- LD (R271). -/
def execLd (i : Issue) (d a : BitVec 5) (off : BitVec 16) (rd : ReadOutcome) (s : State) : Outcome State Fault Refusal :=
  s.work fun x => x.load i 0x10 d a off 8 rd

/-- LW (R271). -/
def execLw (i : Issue) (d a : BitVec 5) (off : BitVec 16) (rd : ReadOutcome) (s : State) : Outcome State Fault Refusal :=
  s.work fun x => x.load i 0x11 d a off 4 rd

/-- LB (R271). -/
def execLb (i : Issue) (d a : BitVec 5) (off : BitVec 16) (rd : ReadOutcome) (s : State) : Outcome State Fault Refusal :=
  s.work fun x => x.load i 0x12 d a off 1 rd

/-- ST (R271). -/
def execSt (i : Issue) (d a : BitVec 5) (off : BitVec 16) (s : State) : Outcome State Fault Refusal :=
  s.work fun x => x.store i 0x14 d a off 8 .clean

/-- SW (R271, R274). -/
def execSw (i : Issue) (d a : BitVec 5) (off : BitVec 16) (rd : ReadOutcome) (s : State) : Outcome State Fault Refusal :=
  s.work fun x => x.store i 0x15 d a off 4 rd

/-- SB (R271, R274). -/
def execSb (i : Issue) (d a : BitVec 5) (off : BitVec 16) (rd : ReadOutcome) (s : State) : Outcome State Fault Refusal :=
  s.work fun x => x.store i 0x16 d a off 1 rd

/-- SWAP (R273). -/
def execSwap (i : Issue) (d a b : BitVec 5) (rd : ReadOutcome) (s : State) : Outcome State Fault Refusal :=
  s.work fun x => x.amo i 0 d a b rd fun _ g _ => g

/-- AADD (R273). -/
def execAadd (i : Issue) (d a b : BitVec 5) (rd : ReadOutcome) (s : State) : Outcome State Fault Refusal :=
  s.work fun x => x.amo i 1 d a b rd fun m g _ => m + g

/-- AAND (R273). -/
def execAand (i : Issue) (d a b : BitVec 5) (rd : ReadOutcome) (s : State) : Outcome State Fault Refusal :=
  s.work fun x => x.amo i 2 d a b rd fun m g _ => m &&& g

/-- AOR (R273). -/
def execAor (i : Issue) (d a b : BitVec 5) (rd : ReadOutcome) (s : State) : Outcome State Fault Refusal :=
  s.work fun x => x.amo i 3 d a b rd fun m g _ => m ||| g

/-- CAS (R273). -/
def execCas (i : Issue) (d a b : BitVec 5) (rd : ReadOutcome) (s : State) : Outcome State Fault Refusal :=
  s.work fun x => x.amo i 4 d a b rd fun m g old => if m = old then g else m

/-- LDS (R266). -/
def execLds (i : Issue) (d a : BitVec 5) (off : BitVec 16) (s : State) : Outcome State Fault Refusal :=
  s.work fun x => x.systemAccess i 0x1A d a off false

/-- STS (R266). -/
def execSts (i : Issue) (d a : BitVec 5) (off : BitVec 16) (s : State) : Outcome State Fault Refusal :=
  s.work fun x => x.systemAccess i 0x1B d a off true

/-- Words that a write of `n` bytes at an offset of sequencer memory covers in part (R261). -/
def partialWords (off n : Nat) : List Nat :=
  let f := off / 8
  let l := (off + n - 1) / 8
  if n = 0 then []
  else (if off % 8 ≠ 0 ∨ off + n < 8 * f + 8 then [f] else []) ++ (if l ≠ f ∧ (off + n) % 8 ≠ 0 then [l] else [])

/-- What a host write to sequencer memory reads first: the codewords of the words it covers in part (R261), and the carry codes of the
units it covers in part (R424). -/
def Dev.seqWindowLook (d : Dev) (off n : Nat) : Dev × Option (Nat × Bad) :=
  let r := (partialWords off n).foldl (fun (acc : Dev × Option (Nat × Bad)) w => match acc.2 with
    | some _ => acc
    | none => acc.1.lookPlain (seqAddr (8 * w)) 8 .clean) (d, none)
  match r.2 with
  | some x => (r.1, some x)
  | none => (r.1, ((partialLines (seqAddr off) n).find? fun u => decide (tget d.mem.ccUpsets u 0 ≠ 0)).map fun u => (64 * u, .carry))

/-- A write that comes to sequencer memory by its window: where and why it was discarded, if it was (R261, R382, R424, R425). -/
def Dev.seqWindowStore (d : Dev) (off : Nat) (l : List Byte) (rd : ReadOutcome) : Dev × Option (Nat × Bad) :=
  match rd with
  | .abort => (d, some (seqAddr off, .abort))
  | .moved c =>
    if carryWrong c then ({ d with ime := { d.ime with ccMemory := sat1 d.ime.ccMemory } }, some (seqAddr off, .moved))
    else (d.memWrite 0 (seqAddr off) l, none)
  | _ => match (d.absorb rd (seqAddr off) l.length).seqWindowLook off l.length with
    | (e, some x) => (e.noteBad x.2 x.1, some x)
    | (e, none) => (e.memWrite 0 (seqAddr off) l, none)

/-- A host write to the sequencer memory window (R261). One whose reads fail, or whose bytes disagree with their carry code, is discarded
(R382, R384, R424). Offsets past the window are reserved (R49), and a seal halt discards the write (R420). -/
def Dev.hostSeqWrite (d : Dev) (off : Nat) (bytes : List Byte) (rd : ReadOutcome) : Dev :=
  if d.ime.sealed then d
  else match d.seqWindowStore off (bytes.take (0x400000 - off)) rd with
    | (e, none) => e
    | (e, some (_, .abort)) => e
    | (e, some (y, .moved)) => e.postSrc 0x0424 (addrDetail y) 0 1
    | (e, some (y, _)) => e.postSrc 0x0315 (addrDetail y) 0 1

/-- SEQ_MEMORY_HOST_WRITE: a write to the sequencer memory window through PF0 (R261, R265). -/
def execSeqMemoryHostWrite (off : Nat) (bytes : List (BitVec 8)) (rd : ReadOutcome) (s : State) :
    Outcome State Fault Refusal :=
  s.work fun x => x.hostSeqWrite off bytes rd

end Sys2Proof.Machine
end

