-- ==== Sys2Proof/Machine/VezerCtl.lean ====
section
/-! DEFINITION. Vezer control: illegal words (R269), branches and jumps (R270, R271), the SYS group (R275), special
registers (R276), WAITT and FENCE (R279, R280), and the thread commands of SEQ_THR_n and SEQ_WIN_n (R258, R263, R293). -/
namespace Sys2Proof.Machine
open Host

/-! ## Legal words -/

/-- SPR numbers that are assigned (R276). -/
def sprAssigned (k : Nat) : Bool := decide (k ≤ 14)
/-- SPRs that some thread may write (R276). -/
def sprWritable (k : Nat) : Bool := decide (k = 5) || (decide (10 ≤ k) && decide (k ≤ 14))

/-- A 32-bit word is an instruction: an assigned major opcode, function, SPR or operation, and zero in every field it
leaves unused (R269 to R276, R294, R299). -/
def legalWord (w : Nat) : Bool :=
  let op := bits w 26 6
  let dF := bits w 21 5
  let aF := bits w 16 5
  let bF := bits w 11 5
  let rs := bits w 6 5
  let fn := bits w 0 6
  let imm := bits w 0 16
  if op = 0 then decide (rs = 0) && (decide (fn < 14) || (decide (fn < 17) && decide (bF = 0)))
  else if op ≤ 4 then true
  else if op ≤ 7 then decide (imm < 64)
  else if op ≤ 9 then true
  else if op ≤ 11 then decide (aF = 0)
  else if op = 0x10 ∨ op = 0x11 ∨ op = 0x12 ∨ op = 0x14 ∨ op = 0x15 ∨ op = 0x16 ∨ op = 0x1A ∨ op = 0x1B then true
  else if op = 0x18 then decide (rs = 0) && decide (fn < 5)
  else if 0x20 ≤ op ∧ op ≤ 0x25 then true
  else if 0x28 ≤ op ∧ op ≤ 0x2A then true
  else if op = 0x30 then decide (dF = 0) && decide (aF = 0) && decide (bF = 0) && decide (rs = 0) && decide (fn < 3)
  else if op = 0x31 then decide (aF = 0) && sprAssigned imm
  else if op = 0x32 then decide (dF = 0) && sprWritable imm
  else if op = 0x3C then true
  else if op = 0x3D then decide (aF = 0)
  else if op = 0x3E then decide (1 ≤ bits w 5 6) && decide (bits w 5 6 ≤ 0x1A) && decide (bits w 0 5 = 0)
  else false

/-- ILLEGAL_OPCODE: a word that is no instruction traps (R269); a legal word is not this command. -/
def execIllegalOpcode (i : Issue) (w : BitVec 32) (s : State) : Outcome State Fault Refusal :=
  s.work fun x =>
    if legalWord w.toNat then x
    else x.issue i w.toNat (illegal := fun _ => true) fun e => e.trap i.thread 0x0902 (w.setWidth 64)

/-! ## Branches and jumps -/

/-- A branch, taken to PC + 4 × sext(OFF16) when its condition holds (R270). -/
def Dev.branch (d : Dev) (i : Issue) (op : Nat) (a b : BitVec 5) (off : BitVec 16) (c : Word → Word → Bool) : Dev :=
  d.issue i (wordI op a b off.toNat) fun e =>
    e.updThr i.thread fun t =>
      { t with pc := if c (t.reg a) (t.reg b) then t.pc + 4 * off.signExtend 64 else t.pc + 4 }

/-- BEQ (R271). -/
def execBeq (i : Issue) (a b : BitVec 5) (off : BitVec 16) (s : State) : Outcome State Fault Refusal :=
  s.work fun x => x.branch i 0x20 a b off fun p q => decide (p = q)

/-- BNE (R271). -/
def execBne (i : Issue) (a b : BitVec 5) (off : BitVec 16) (s : State) : Outcome State Fault Refusal :=
  s.work fun x => x.branch i 0x21 a b off fun p q => decide (p ≠ q)

/-- BLT (R271). -/
def execBlt (i : Issue) (a b : BitVec 5) (off : BitVec 16) (s : State) : Outcome State Fault Refusal :=
  s.work fun x => x.branch i 0x22 a b off fun p q => p.slt q

/-- BGE (R271). -/
def execBge (i : Issue) (a b : BitVec 5) (off : BitVec 16) (s : State) : Outcome State Fault Refusal :=
  s.work fun x => x.branch i 0x23 a b off fun p q => !p.slt q

/-- BLTU (R271). -/
def execBltu (i : Issue) (a b : BitVec 5) (off : BitVec 16) (s : State) : Outcome State Fault Refusal :=
  s.work fun x => x.branch i 0x24 a b off fun p q => p.ult q

/-- BGEU (R271). -/
def execBgeu (i : Issue) (a b : BitVec 5) (off : BitVec 16) (s : State) : Outcome State Fault Refusal :=
  s.work fun x => x.branch i 0x25 a b off fun p q => !p.ult q

/-- J (R270, R271). -/
def execJ (i : Issue) (off : BitVec 26) (s : State) : Outcome State Fault Refusal :=
  s.work fun x => x.issue i (wordJ 0x28 off) fun e =>
    e.updThr i.thread fun t => { t with pc := t.pc + 4 * off.signExtend 64 }

/-- CALL: the return address to g31, then the jump (R271). -/
def execCall (i : Issue) (off : BitVec 26) (s : State) : Outcome State Fault Refusal :=
  s.work fun x => x.issue i (wordJ 0x29 off) fun e =>
    e.updThr i.thread fun t => { t.setReg 31 (t.pc + 4) with pc := t.pc + 4 * off.signExtend 64 }

/-- JALR; a target that is not a multiple of 4 traps (R270, R271). -/
def execJalr (i : Issue) (d a : BitVec 5) (imm : BitVec 16) (s : State) : Outcome State Fault Refusal :=
  s.work fun x => x.issue i (wordI 0x2A d a imm.toNat) fun e =>
    let t := (e.thr i.thread).reg a + sext16 imm
    if t.toNat % 4 ≠ 0 then e.trap i.thread 0x0905 t
    else e.updThr i.thread fun q => { q.setReg d (q.pc + 4) with pc := t }

/-! ## The SYS group -/

/-- YIELD: on to the next instruction; which thread issues next is the sender's (R260, R275). -/
def execYield (i : Issue) (s : State) : Outcome State Fault Refusal :=
  s.work fun x => x.issue i (wordA 0x30 0 0 0 0) fun e => e.nextPc i.thread

/-- HALT: the thread enters IDLE after it, with event 0x090C; its tickets stay (R275, R289). -/
def execHalt (i : Issue) (s : State) : Outcome State Fault Refusal :=
  s.work fun x => x.issue i (wordA 0x30 1 0 0 0) fun e =>
    let n := i.thread
    let pc := (e.thr n).pc.toNat
    (e.updThr n fun t => { t with state := .idle, pc := t.pc + 4 }).postSrc 0x090C pc n (0x80 + n)

/-- TRAPRET: T0 leaves trap mode for TRET, and takes the head of the trap queue (R275, R286). -/
def execTrapret (i : Issue) (s : State) : Outcome State Fault Refusal :=
  s.work fun x => x.issue i (wordA 0x30 2 0 0 0) (illegal := fun e => decide (i.thread = 0) && !e.seq.trapMode) fun e =>
    let n := i.thread
    if n ≠ 0 then e.trap n 0x0903 0
    else if !e.seq.trapMode then e.trap n 0x0902 (BitVec.ofNat 64 (wordA 0x30 2 0 0 0))
    else
      let f := e.updThr 0 fun t => { t with pc := pcOf e.seq.tret }
      { f with seq := { f.seq with trapMode := false } }.deliver

/-! ## Special registers -/

/-- Value of an SPR for a thread (R276). -/
def Dev.sprRead (d : Dev) (n k : Nat) : Word :=
  match k with
  | 0 => BitVec.ofNat 64 n
  | 1 => BitVec.ofNat 64 n
  | 2 => d.evt.time.setWidth 64
  | 3 => d.clk.scyc
  | 4 => BitVec.ofNat 64 ((d.thr n).busySlots.foldl (fun acc s => acc + 2 ^ s) 0)
  | 5 => d.seq.tvec
  | 6 => d.seq.tcause
  | 7 => d.seq.tthr
  | 8 => d.seq.tpc
  | 9 => d.seq.tval
  | 10 => d.seq.tret
  | _ => tget d.seq.tsave (k - 11) 0

/-- An SPR written (R276). -/
def Dev.sprWrite (d : Dev) (k : Nat) (v : Word) : Dev :=
  match k with
  | 5 => { d with seq := { d.seq with tvec := v } }
  | 10 => { d with seq := { d.seq with tret := v } }
  | _ => { d with seq := { d.seq with tsave := tset d.seq.tsave (k - 11) v } }

/-- MFS (R276): an unassigned number is illegal; a T0 register in another thread is a rights fault. -/
def execMfs (i : Issue) (d : BitVec 5) (spr : BitVec 16) (s : State) : Outcome State Fault Refusal :=
  s.work fun x => x.issue i (wordI 0x31 d 0 spr.toNat) (illegal := fun _ => !sprAssigned spr.toNat) fun e =>
    let n := i.thread
    if !sprAssigned spr.toNat then e.trap n 0x0902 (BitVec.ofNat 64 (wordI 0x31 d 0 spr.toNat))
    else if 5 ≤ spr.toNat ∧ n ≠ 0 then e.trap n 0x0903 0
    else e.result n d (e.sprRead n spr.toNat)

/-- MTS (R276): an unassigned or read-only number is illegal; another thread than T0 has a rights fault. A trap that waits
for T0 is taken when a handler is set (R286). -/
def execMts (i : Issue) (a : BitVec 5) (spr : BitVec 16) (s : State) : Outcome State Fault Refusal :=
  s.work fun x => x.issue i (wordI 0x32 0 a spr.toNat) (illegal := fun _ => !sprWritable spr.toNat) fun e =>
    let n := i.thread
    if !sprWritable spr.toNat then e.trap n 0x0902 (BitVec.ofNat 64 (wordI 0x32 0 a spr.toNat))
    else if n ≠ 0 then e.trap n 0x0903 0
    else ((e.sprWrite spr.toNat ((e.thr n).reg a)).nextPc n).deliver

/-! ## WAITT and FENCE -/

/-- The status of a wait that ended first (R279, R281). -/
def timedOut : Word := 0xFFFE

/-- WAITT (R279): an invalid ticket traps; a completed operation's status goes to gD and frees its slot; a poll that finds
none answers 0xFFFE; otherwise the thread waits. -/
def execWaitt (i : Issue) (d a : BitVec 5) (imm : BitVec 16) (s : State) : Outcome State Fault Refusal :=
  s.work fun x => x.issue i (wordI 0x3C d a imm.toNat) fun e =>
    let n := i.thread
    let t := e.thr n
    let k := t.reg a
    let sl := bits k.toNat 0 4
    let x := t.slot sl
    if k.toNat / 2 ^ 16 ≠ n ∨ !x.busy ∨ bits k.toNat 4 12 ≠ x.gen.toNat then e.trap n 0x0906 k
    else match x.done with
      | some v => e.updThr n fun t => { (t.freeOne sl).setReg d v with pc := t.pc + 4 }
      | none =>
        if imm = 0 then e.result n d timedOut
        else e.updThr n fun t => { t with state := .wait, wait := some (.waitt sl d.toNat x.gen imm.toNat) }

/-- WAITT_TIMEOUT: the wait of WAITT ends first; the slot stays occupied (R279). -/
def execWaittTimeout (n : Nat) (s : State) : Outcome State Fault Refusal :=
  s.work fun x => match (x.thr n).state, (x.thr n).wait with
    | .wait, some (.waitt _ r _ us) =>
      if us = 0xFFFF then x
      else
        let y := x.updThr n fun t =>
          { t.setReg (BitVec.ofNat 5 r) timedOut with state := .run, wait := none, pc := t.pc + 4 }
        if n = 0 then y.deliver else y
    | _, _ => x

/-- FENCE (R280): with every occupied slot completed, all are freed and gD takes the summary; a poll that finds one
outstanding answers 0xFFFE; otherwise the thread waits. -/
def execFence (i : Issue) (d : BitVec 5) (imm : BitVec 16) (s : State) : Outcome State Fault Refusal :=
  s.work fun x => x.issue i (wordI 0x3D d 0 imm.toNat) fun e =>
    let n := i.thread
    let t := e.thr n
    if t.allDone then e.updThr n fun t => { t.freeAll.setReg d t.fenceSummary with pc := t.pc + 4 }
    else if imm = 0 then e.result n d timedOut
    else e.updThr n fun t => { t with state := .wait, wait := some (.fence d.toNat imm.toNat) }

/-- FENCE_TIMEOUT: the wait of FENCE ends first; no slot is freed (R280). -/
def execFenceTimeout (n : Nat) (s : State) : Outcome State Fault Refusal :=
  s.work fun x => match (x.thr n).state, (x.thr n).wait with
    | .wait, some (.fence r us) =>
      if us = 0xFFFF then x
      else
        let y := x.updThr n fun t =>
          { t.setReg (BitVec.ofNat 5 r) timedOut with state := .run, wait := none, pc := t.pc + 4 }
        if n = 0 then y.deliver else y
    | _, _ => x

/-! ## Thread commands -/

/-- Lifecycle DEVELOP (R522). -/
def Fuses.develop (f : Fuses) : Bool := decide (f.lifecycle = 0)

/-- A register write that host software through PF0 and T0 may make: a VF window discards it; any other thread's traps as a
rights violation at the register's BAR0 offset (R73, R92, R140, R220, R293); a seal halt discards it (R420). The debug port's write is one that is in progress:
its own checks come before (R521). -/
def Dev.byHostOrT0 (d : Dev) (m : Master) (off : Nat) (body : Dev → Dev) : Dev :=
  if d.ime.sealed then d
  else match m with
  | .pf0 | .thread 0 => body d
  | .debug => if d.tap.busy then body d else d
  | .thread n => if n ≤ 64 ∧ (d.thr n).state = .run then d.trap n 0x0903 (BitVec.ofNat 64 (0x032000000000 + off)) else d
  | .vf _ => d

/-- As `byHostOrT0`, for the blocks that the debug port never writes: RST, KEEP and IME_SEAL (R522). -/
def Dev.byHostOrT0Only (d : Dev) (m : Master) (off : Nat) (body : Dev → Dev) : Dev :=
  match m with
  | .debug => d
  | _ => d.byHostOrT0 m off body

/-- CMD = START (R258, R286, R293): the thread runs at a new PC with its registers and slots; its queued traps are gone;
START of T0 ends trap mode and clears the trap queue. -/
def Dev.startThread (d : Dev) (n pc : Nat) : Dev :=
  let st := (d.thr n).state
  if 64 < n ∨ pc % 4 ≠ 0 ∨ d.ime.sealed ∨ st = .run ∨ st = .wait then d
  else
    let d1 := (d.dropTraps n).updThr n fun t => { t with state := .run, wait := none, pc := BitVec.ofNat 64 pc }
    if n = 0 then { d1 with seq := { d1.seq with trapMode := false, queue := [] } } else d1

/-- CMD = RESUME (R258, R286, R288): a TRAPPED or SUSPENDED thread runs on at its PC; a trap of it that was still queued is
gone (log 20). T0 then takes the head of the trap queue. -/
def Dev.resumeThread (d : Dev) (n : Nat) : Dev :=
  let st := (d.thr n).state
  if 64 < n ∨ d.ime.sealed ∨ (st ≠ .trapped ∧ st ≠ .suspended) then d
  else
    let d1 := (d.dropTraps n).updThr n fun t => { t with state := .run, wait := none }
    if n = 0 then d1.deliver else d1

/-- CMD = STOP (R258, R293): to IDLE; a wait is abandoned and its slots stay. -/
def Dev.stopThread (d : Dev) (n : Nat) : Dev :=
  let st := (d.thr n).state
  if 64 < n ∨ st = .idle ∨ st = .held then d
  else d.updThr n fun t => { t with state := .idle, wait := none }

/-- THREAD_START: SEQ_THR_n with CMD = START (R258). -/
def execThreadStart (m : Master) (n : Nat) (pc : BitVec 22) (s : State) : Outcome State Fault Refusal :=
  s.work fun x => x.byHostOrT0 m (0x100400 + 8 * n) fun d => d.startThread n pc.toNat

/-- THREAD_RESUME: SEQ_THR_n with CMD = RESUME (R288). -/
def execThreadResume (m : Master) (n : Nat) (s : State) : Outcome State Fault Refusal :=
  s.work fun x => x.byHostOrT0 m (0x100400 + 8 * n) fun d => d.resumeThread n

/-- THREAD_STOP: SEQ_THR_n with CMD = STOP (R258). -/
def execThreadStop (m : Master) (n : Nat) (s : State) : Outcome State Fault Refusal :=
  s.work fun x => x.byHostOrT0 m (0x100400 + 8 * n) fun d => d.stopThread n

/-- SEQ_WIN_n written: at the thread's next instruction boundary; a window that ends past sequencer memory or a code part
longer than the window is ignored; SEQ_WIN_0 is read-only (R263). -/
def Dev.writeWin (d : Dev) (n : Nat) (v : Word) : Dev :=
  let base := bits v.toNat 0 10
  let size := bits v.toNat 16 11
  let code := bits v.toNat 32 11
  if n = 0 ∨ 64 < n ∨ 1024 < base + size ∨ size < code then d
  else d.updThr n fun t => { t with winNext := some (BitVec.ofNat 64 (base + size * 2 ^ 16 + code * 2 ^ 32)) }

/-- SEQ_WIN_WRITE (R263, R293). -/
def execSeqWinWrite (m : Master) (n : Nat) (v : BitVec 64) (s : State) : Outcome State Fault Refusal :=
  s.work fun x => x.byHostOrT0 m (0x100100 + 8 * n) fun d => d.writeWin n v

end Sys2Proof.Machine
end

