-- ==== Sys2Proof/Machine/Keeps.lean ====
section
/-! DEFINITION. The keep-register commands (R71 to R75). -/
namespace Sys2Proof.Machine
open Host

/-- BAR0 offset of keep register i (R49, R91). -/
def keepOff (i : Nat) : Nat := 0x30000 + 8 * i

/-- KEEP_WRITE (R71 to R73, R558). -/
def execKeepWrite (m : Master) (i : Nat) (v : BitVec 32) (s : State) : Outcome State Fault Refusal :=
  s.run fun x => x.byHostOrT0Only m (keepOff i) fun d => d.keepStore i v

/-- KEEP_PERSISTED: a write has persisted, within 50 µs (R71). -/
def execKeepPersisted (i : Nat) (s : State) : Outcome State Fault Refusal :=
  s.run fun x => { x with keep := { x.keep with persisting := x.keep.persisting.filter fun e => decide (e.1 ≠ i) } }

/-- KEEP_READ: the host's completion carries KEEP_DATA_n; a thread's data is its access's, and a VF's window does not show it
(R51, R71, R75). -/
def execKeepRead (m : Master) (i : Nat) (bad : Bool) (s : State) : Outcome State Fault Refusal :=
  s.run fun x =>
    if 512 ≤ i then x
    else match m with
      | .vf _ => x
      | .pf0 =>
        let r := x.keepRead i bad
        let k := x.keepReg i
        { r.1 with pcie := { r.1.pcie with
            cpl := some (.data (leBytes 8 (r.2.toNat + k.wcount % 2 ^ 17 * 2 ^ 32 + b2n k.worn * 2 ^ 49))) } }
      | _ => (x.keepRead i bad).1

end Sys2Proof.Machine
end

