-- ==== Sys2Proof/Machine/Norak.lean ====
section
/-! DEFINITION. Norak ports (R467 to R478): training, the sealing handshake (R429 to R433), the link's retries, the frames CUTNET,
GFREEZE, CENSUS and TIME with what they do here (R479 to R499), and the ring registers (R501). -/
namespace Sys2Proof.Machine
open Host

/-! ## Ports -/

/-- The ring of a port is enabled in keep register 256 (R474). -/
def Dev.ringEnabled (d : Dev) (r : Nat) : Bool := if r = 0 then d.ring.enA else d.ring.enB

/-- Port n may train: NORAK accepted, its ring enabled and not OFF, its bypass open (R469, R471). -/
def Dev.mayTrain (d : Dev) (n : Nat) : Bool :=
  decide (n < 4) && d.feat 5 && d.ringEnabled (ringOf n) && decide ((d.rctl (ringOf n)).state ≠ .off) && !d.ring.bypassed

/-- Port n starts training: its link is gone and its keys with it (R429, R469). -/
def Dev.trainPort (d : Dev) (n : Nat) : Dev :=
  if d.mayTrain n then
    (d.updRport n fun x => { x with state := .training, peerPos := none }).updNk n fun k =>
      { k with state := .down, helloI := none, helloR := none, authOwn := false, authPeer := none, tx := none, rx := none,
               rxOld := none }
  else d

/-- The ports of a ring start training. -/
def Dev.trainRing (d : Dev) (r : Nat) : Dev := (d.trainPort (2 * r)).trainPort (2 * r + 1)

/-- A port's link is switched through by the closed bypass (R471). -/
def Dev.bypassPort (d : Dev) (n : Nat) : Dev :=
  (d.updRport n fun x => { x with state := .bypass, peerPos := none }).updNk n fun k =>
    { k with state := .bypass, helloI := none, helloR := none, authOwn := false, authPeer := none, tx := none, rx := none,
             rxOld := none }

/-- An event of a Norak port (R608). -/
def Dev.postPort (d : Dev) (n code detail : Nat) (part : Nat := 0) : Dev := d.postSrc code detail part (norakStop n)

/-! ## The handshake -/

/-- This end is the initiator: ports N1 and N3 (R430). -/
def initiator (n : Nat) : Bool := decide (n % 2 = 1)

/-- A role letter (R430). -/
def role (i : Bool) : String := if i then "I" else "R"

/-- A HELLO as bytes: the serial, the random bytes, the ECDH key and the ML-KEM value in the order of R430. -/
def helloBytes (h : Hello) : List Byte := leBytes 8 h.serial.toNat ++ leBytes 32 h.random.toNat ++ h.ecdh ++ h.kem

/-- An AUTH as bytes. -/
def authBytes (m : AuthMsg) : List Byte := m.chain ++ m.rsa ++ m.slh

/-- A fresh HELLO of this end: its serial, and random and public values of the draw (R430). -/
def Dev.freshHello (d : Dev) (serial : Nat) (kem : List Byte) : Hello :=
  { serial := BitVec.ofNat 64 serial, random := Config.helloRandom d.free, ecdh := Config.helloEcdh d.free, kem := kem }

/-- Step 1 on a trained port: the initiator sends HELLO_I, and both ends are in the handshake (R430). -/
def Dev.startHandshake (d : Dev) (serial n : Nat) : Dev :=
  let d1 := d.updNk n fun k =>
    { k with state := .handshake, helloR := none, authOwn := false, authPeer := none,
             helloI := if initiator n then some (d.freshHello serial (Config.helloKem d.free)) else none }
  (d1.updRport n fun x => { x with state := .sealing }).draw 1

/-- TH1 of two HELLOs (R430). -/
def th1 (i r : Hello) : List Byte := leBytes 48 (Config.sha384 (helloBytes i ++ helloBytes r)).toNat

/-- This end's own HELLO of a handshake. -/
def NkPort.own (k : NkPort) (n : Nat) : Option Hello := if initiator n then k.helloI else k.helloR

/-- This end's AUTH: its chain, and both signatures over TH1 and its role letter (R430). -/
def ownAuth (n : Nat) (i r : Hello) : AuthMsg :=
  let key := (if initiator n then i else r).random.toNat
  let msg := th1 i r ++ label (role (initiator n))
  { chain := Config.deviceCert, rsa := Config.rsaSign key msg, slh := Config.slhSign key msg }

/-- The four messages in order (R430). -/
def fourMessages (n : Nat) (i r : Hello) (peer : AuthMsg) : List Byte :=
  let own := authBytes (ownAuth n i r)
  helloBytes i ++ helloBytes r ++ (if initiator n then own ++ authBytes peer else authBytes peer ++ own)

/-- PRK of a handshake (R431). -/
def prkOf (n : Nat) (i r : Hello) (peer : AuthMsg) : BitVec 384 :=
  Config.handshakePrk (if initiator n then i else r).random.toNat (fourMessages n i r peer)

/-- FINISHED of a role: HMAC of TH2 under its finished key (R430, R431). -/
def finishedMac (n : Nat) (i r : Hello) (peer : AuthMsg) (init : Bool) : BitVec 384 :=
  Config.hmac384 (Config.hkdf (prkOf n i r peer) (label ("norak fin " ++ role init)))
    (leBytes 48 (Config.sha384 (fourMessages n i r peer)).toNat)

/-- A handshake fails: event 0x0431 with its cause, and the port starts again after 1 s (R430). -/
def Dev.failHandshake (d : Dev) (n cause : Nat) : Dev :=
  (d.updNk n fun k =>
    { k with state := .retryWait, helloI := none, helloR := none, authOwn := false, authPeer := none }).postPort n 0x0431
      (n + cause * 256)

/-- The cause for which a peer's AUTH fails, in the order chain, signatures, serial (R430, R434). -/
def authCause (fuse : Fuses) (want : BitVec 64) (n : Nat) (i r : Hello) (m : AuthMsg) : Option Nat :=
  let msg := th1 i r ++ label (role (!initiator n))
  let peer := if initiator n then r else i
  if !Config.chainOk fuse.rootRsaHash fuse.rootSlhHash m.chain then some 1
  else if !Config.rsaVerify (Config.chainRsa m.chain) msg m.rsa then some 2
  else if !Config.slhVerify (Config.chainSlh m.chain) msg m.slh then some 3
  else if want ≠ 0 ∧ want ≠ peer.serial then some 5
  else none

/-- HELLO_I arrives at a responder, which answers with HELLO_R and AUTH (R430 steps 2 to 4). -/
def execHelloI (n : Nat) (h : Hello) (s : State) : Outcome State Fault Refusal :=
  s.work fun x =>
    let k := x.nk n
    if n < 4 ∧ !initiator n ∧ k.state = .handshake ∧ k.helloI = none then
      (x.updNk n fun k =>
        { k with helloI := some h, authOwn := true,
                 helloR := some (x.freshHello s.serial (Config.helloCipher x.free h.kem)) }).draw 1
    else x

/-- HELLO_R arrives at the initiator, which sends AUTH (R430 steps 3 and 4). -/
def execHelloR (n : Nat) (h : Hello) (s : State) : Outcome State Fault Refusal :=
  s.work fun x =>
    let k := x.nk n
    if n < 4 ∧ initiator n ∧ k.state = .handshake ∧ k.helloI ≠ none ∧ k.helloR = none then
      x.updNk n fun k => { k with helloR := some h, authOwn := true }
    else x

/-- AUTH arrives: the peer is verified and FINISHED is sent, or the handshake fails (R430 step 5). -/
def execAuth (n : Nat) (m : AuthMsg) (s : State) : Outcome State Fault Refusal :=
  s.work fun x =>
    let k := x.nk n
    match k.helloI, k.helloR with
    | some i, some r =>
      if n < 4 ∧ k.state = .handshake ∧ k.authPeer = none then
        match authCause s.fuse k.peer n i r m with
        | some c => x.failHandshake n c
        | none => x.updNk n fun k => { k with authPeer := some m, seen := (if initiator n then r else i).serial }
      else x
    | _, _ => x

/-- Frames of a retry buffer go out again, each sealed under a new SEQ (R432, R477). -/
def Dev.replay (d : Dev) (n : Nat) (l : List Frame) : Dev :=
  (l.foldl (fun e f => e.transmit n f) d).updRport n fun x => { x with retry := l }

/-- FINISHED arrives: sealed traffic starts at sequence 0 of epoch 0 with event 0x0430, and the frames that waited leave; or the
handshake fails (R429 to R431). -/
def execFinished (n : Nat) (mac : BitVec 384) (s : State) : Outcome State Fault Refusal :=
  s.work fun x =>
    let k := x.nk n
    match k.helloI, k.helloR, k.authPeer with
    | some i, some r, some a =>
      if n < 4 ∧ k.state = .handshake then
        if finishedMac n i r a (!initiator n) = mac then
          let prk := prkOf n i r a
          let d1 := x.updNk n fun k =>
            { k with
                state := .sealed, epoch := 0, rxEpoch := false, txSeq := 0, rxSeq := 0, handshakes := sat1 k.handshakes,
                tx := some (Config.hkdf prk (label ("norak tx " ++ role (initiator n)))),
                rx := some (Config.hkdf prk (label ("norak tx " ++ role (!initiator n)))), rxOld := none,
                helloI := none, helloR := none, authOwn := false, authPeer := none, fails := [] }
          let d2 := (d1.updRport n fun y => { y with state := .up }).postPort n 0x0430 n
          (d2.replay n (d2.rport n).retry).flushPort n
        else x.failHandshake n 4
      else x
    | _, _, _ => x

/-- NORAK_HANDSHAKE_TIMEOUT: the handshake has not completed within its bound (R430). -/
def execNorakHandshakeTimeout (n : Nat) (s : State) : Outcome State Fault Refusal :=
  s.work fun x => if n < 4 ∧ (x.nk n).state = .handshake then x.failHandshake n 6 else x

/-- NORAK_HANDSHAKE_RETRY: 1 s after a failure the port starts the handshake again (R430). -/
def execNorakHandshakeRetry (n : Nat) (s : State) : Outcome State Fault Refusal :=
  s.work fun x =>
    if n < 4 ∧ (x.nk n).state = .retryWait ∧ (x.rport n).state = .sealing then x.startHandshake s.serial n else x

/-- NORAK_KEY_UPDATE: the sender's next secret, its sequence from 0, the epoch bit toggled, event 0x0433 (R432). -/
def execNorakKeyUpdate (n : Nat) (s : State) : Outcome State Fault Refusal :=
  s.work fun x => if n < 4 ∧ (x.nk n).state = .sealed then x.rekey n else x

/-! ## Training -/

/-- Repairs of Norak lanes that training of port n found (R556). -/
def laneRepairs (n : Nat) (l : List Repair) : List Nat :=
  (l.filter fun x => decide (x.1 = 8) && decide (bits x.2.toNat 26 2 = n)).map fun x => x.2.toNat

/-- Spares in use of a port and direction, by the repair map in force: 0 transmit, 1 receive (R501, R556). -/
def Dev.portSpares (d : Dev) (n dir : Nat) : Nat :=
  (d.rel.applied.filter fun w => decide (repairKind w.toNat = 8) && decide (bits w.toNat 26 2 = n) &&
    decide (bits w.toNat 25 1 = dir)).length

/-- The repairs that a training found: recorded, an event for each lane replaced, and in force (R469, R557, R558). -/
def Dev.repairPort (d : Dev) (n : Nat) (l : List Nat) : Dev :=
  (l.foldl (fun d w =>
    (d.recordRepair 8 w).postPort n 0x0602 (n + bits w 20 5 * 256 + bits w 25 1 * 2 ^ 16)) d).applyTraining 8 n

/-- NORAK_PORT_TRAINED: `tx` and `rx` good lanes; the port runs at full rate or degraded, and the handshake begins; with fewer
than 8 lanes it stays down (R469). -/
def execNorakPortTrained (n tx rx : Nat) (repairs : List Repair) (s : State) : Outcome State Fault Refusal :=
  s.work fun x =>
    if n < 4 ∧ (x.rport n).state = .training then
      let d1 := x.repairPort n (laneRepairs n repairs)
      if tx < 8 ∨ rx < 8 then
        (d1.updRport n fun y => { y with state := .down, txLanes := 0, rxLanes := 0 }).postPort n 0x0604 (n + 2 * 256)
      else
        let full := decide (16 ≤ tx) && decide (16 ≤ rx)
        let lanes := if full then 16 else 8
        let st := d1.portSpares n 0
        let sr := d1.portSpares n 1
        let d2 := d1.updRport n fun y =>
          { y with txLanes := lanes, rxLanes := lanes, txSpares := st, rxSpares := sr, degraded := !full }
        let d3 := d2.postPort n 0x0601 (n + lanes * 256 + (st + sr) * 2 ^ 16)
        (if full then d3 else d3.postPort n 0x0603 n).startHandshake s.serial n
    else x

/-- NORAK_TRAINING_RETRY: a port that is down trains again, every 1 s (R469). -/
def execNorakTrainingRetry (n : Nat) (s : State) : Outcome State Fault Refusal :=
  s.work fun x => if (x.rport n).state = .down then x.trainPort n else x

/-- Ring time is no longer locked (R480). -/
def Dev.unlockTime (d : Dev) : Dev :=
  if d.ring.locked then { d with ring := { d.ring with locked := false } }.post 0x0630 0 else d

/-- NORAK_LINK_DROP: the port is down, retrains toward the next powered device and runs a new handshake; the path to the time
master may be lost with it (R473, R480). -/
def execNorakLinkDrop (n : Nat) (pathLost : Bool) (s : State) : Outcome State Fault Refusal :=
  s.work fun x =>
    if n < 4 ∧ ((x.rport n).state = .up ∨ (x.rport n).state = .sealing) then
      let d1 := (x.updRport n fun y => { y with state := .down, txLanes := 0, rxLanes := 0 }).postPort n 0x0604 (n + 3 * 256)
      let d2 := d1.trainPort n
      if pathLost then d2.unlockTime else d2
    else x

/-! ## The link -/

/-- A frame that fails its tag check is discarded and counted; 8 of them in 1 ms retrain the port (R433). -/
def Dev.tagFail (d : Dev) (n : Nat) : Dev :=
  let now := d.evt.time
  let l := now :: (d.nk n).fails.filter fun t => decide (now.toNat < t.toNat + 250000)
  let d1 := d.updNk n fun k => { k with tagFail := sat1 k.tagFail, fails := l }
  if 8 ≤ l.length then ((d1.updNk n fun k => { k with fails := [] }).postPort n 0x0432 n).trainPort n else d1

/-- TYPE is one of the five, and no RSVD field is set (R476). -/
def frameOk (f : Frame) : Bool := decide (1 ≤ f.type) && decide (f.type ≤ 5) && !f.rsvd

/-- The direction in which a frame that arrived on port n goes on, and whether it does: it is not for this position alone; a broadcast
goes on until it returns to SRC or HOPS reaches N − 1 (R478). -/
def Dev.goesOn (d : Dev) (f : Frame) : Bool :=
  decide (f.src ≠ d.ring.position) && decide (f.dst ≠ d.ring.position) && !(decide (f.dst = 0xFF) && decide (d.ring.size ≤ f.hops + 1))

/-- A control block leaves on a port (R477). -/
def Dev.sendCtl (d : Dev) (n : Nat) (c : LinkCtl) : Dev := d.updRport n fun y => { y with ctl := some c }

/-- A frame on port n cannot be taken: the last good link frame number is sent back (R477). A copy that was already under way in
cut-through ends with a tag that cannot verify; its sequence number is used, its link frame number is not (R478; log 143). -/
def Dev.reject (d : Dev) (n : Nat) (f : Frame) : Dev :=
  let d1 := d.sendCtl n { nak := true, lfn := ((d.rport n).rxLfn + 4095) % 4096 }
  let east := decide (n % 2 = 0)
  let r := if d.canCarry (ringOf n) east then ringOf n else 1 - ringOf n
  let m := portOf r east
  if d.goesOn f && d.canCarry r east then
    (d1.transmit m { f with hops := f.hops + 1, lfn := (d.rport m).txLfn }).updRport m fun y =>
      { y with wire := y.wire.take (32 + f.data.length) ++ (y.wire.drop (32 + f.data.length)).map fun b => ~~~b }
  else d1

/-- FEC codewords of a frame count (R501). -/
def Dev.countFec (d : Dev) (n : Nat) (w : Arrival) : Dev :=
  d.updRport n fun y => { y with fecOk := satAdd y.fecOk w.corrected, fecBad := satAdd y.fecBad w.broken }

/-- A frame is taken in and acknowledged; `k` are the port's keys after it (R432, R477). -/
def Dev.takeIn (d : Dev) (n : Nat) (f : Frame) (k : NkPort) : Dev :=
  ((d.updRport n fun y => { y with rxLfn := (y.rxLfn + 1) % 4096 }).sendCtl n { nak := false, lfn := f.lfn }).updNk n fun _ => k

/-- A frame arrives on a port: the port must be up; FEC codewords count; one that cannot be corrected, or a tag that fails, discards the
frame; frames are delivered once each in LFN order, and acknowledged (R432, R433, R476, R477). -/
def Dev.receive (d : Dev) (n : Nat) (f : Frame) (w : Arrival) (body : Dev → Frame → Dev) : Dev :=
  if 4 ≤ n ∨ (d.rport n).state ≠ .up ∨ (d.nk n).state ≠ .sealed then d
  else
    let d1 := d.countFec n w
    if w.broken ≠ 0 then d1.reject n f
    else match (d.nk n).opens f w.tag d.evt.time with
      | none => (d1.reject n f).tagFail n
      | some o =>
        if f.lfn ≠ (d.rport n).rxLfn then d1 else body (d1.takeIn n f o.1) { f with data := o.2 }

/-- A frame as it stands on a link: without carry codes (R422). -/
def bareFrame (f : Frame) : Frame := { f with codes := [] }

/-- A frame that arrived on port n goes on in its direction (R475, R478). -/
def Dev.forward (d : Dev) (n : Nat) (f : Frame) : Dev :=
  if d.goesOn f then d.sendDir (ringOf n) (n % 2 = 0) { f with hops := f.hops + 1 } else d

/-- NORAK_NAK: every frame after the last good LFN is replayed; more than 1,000 replays in 1 ms post 0x0605 (R477, R500). -/
def execNorakNak (n lfn : Nat) (s : State) : Outcome State Fault Refusal :=
  s.work fun x =>
    if n < 4 ∧ (x.rport n).state = .up then
      let l := (x.rport n).retry
      let later := if l.any (fun f => decide (f.lfn = lfn)) then (l.dropWhile fun f => decide (f.lfn ≠ lfn)).drop 1 else l
      let now := x.evt.time
      let y := x.rport n
      let fresh := decide (y.rpTime.toNat + 250000 ≤ now.toNat)
      let cnt := if fresh then 1 else y.rpCount + 1
      let d1 := (x.updRport n fun y =>
        { y with replays := sat1 y.replays, rpCount := cnt, rpTime := if fresh then now else y.rpTime }).replay n later
      let d2 := if cnt = 1001 then d1.postPort n 0x0605 (n + cnt * 2 ^ 16) else d1
      d2.flushPort n
    else x

/-- NORAK_ACK: the frames up to the one named leave the retry buffer (R477). -/
def execNorakAck (n lfn : Nat) (s : State) : Outcome State Fault Refusal :=
  s.work fun x =>
    if n < 4 ∧ (x.rport n).state = .up ∧ (x.rport n).retry.any (fun f => decide (f.lfn = lfn)) then
      (x.updRport n fun y => { y with retry := (y.retry.dropWhile fun f => decide (f.lfn ≠ lfn)).drop 1 }).flushPort n
    else x

/-- MALFORMED_FRAME: a frame of a reserved TYPE, or with a RSVD field set, is discarded and counted (R476). -/
def execMalformedFrame (n : Nat) (f : Frame) (s : State) : Outcome State Fault Refusal :=
  s.work fun x =>
    if frameOk f then x
    else x.receive n f { tag := (x.nk n).tagFor f } fun d _ =>
      (d.updRport n fun y => { y with malformed := y.malformed + 1 }).postPort n 0x0606 (n + f.type.toNat * 256)

/-! ## Cut nets -/

/-- An IN set of the partition has a slot in that fragment (R483, R490). -/
def Dev.inSet (d : Dev) (p : Nat) (f : Frame) : Bool := !(d.setOf p true f.src f.spart f.round).isEmpty

/-- A CUTNET frame for a partition here (R490): another GEN is discarded and counted, no IN set discarded, a CYCLE outside k to
k + 1 discarded with a group freeze, and any other is buffered. -/
def Dev.acceptCut (d : Dev) (n : Nat) (f : Frame) : Dev :=
  let p := f.dpart
  let q := d.part p
  if p = 0 ∨ 64 < p ∨ !q.cut then d.postPort n 0x0613 (p % 128 + f.src * 256) p
  else if f.gen ≠ q.gen then
    let due := match q.staleTime with
      | some t => decide (t.toNat + 250000 ≤ d.evt.time.toNat)
      | none => true
    let d1 := d.updPart p fun q => { q with stale := sat1 q.stale }
    if due then
      (d1.updPart p fun q => { q with staleTime := some d.evt.time }).postPort n 0x0614
        (p + f.src * 256 + f.gen.toNat * 2 ^ 16) p
    else d1
  else if !d.inSet p f then d.postPort n 0x0613 (p + f.src * 256) p
  else if f.cycle ≠ q.cycle ∧ f.cycle ≠ q.cycle + 1 then
    (d.postPort n 0x0612 (p + f.src * 256 + f.cycle.toNat % 2 ^ 16 * 2 ^ 16) p).startGroupFreeze p
  else
    d.updEng p fun e =>
      { e with cutBuf := e.cutBuf ++
          [{ src := f.src, spart := f.spart, round := f.round, frag := f.frag, cycle := f.cycle.toNat, fault := f.fault,
             codes := f.codes, port := n, data := f.data }] }

/-- CUTNET: the frame's data get their carry codes at the port; a frame for this position is accepted or discarded, another goes on, with
the bits that change on the way (R422, R478, R490). -/
def execCutnet (n : Nat) (f : Frame) (w : Arrival) (moved : Option (Nat × BitVec 512)) (s : State) : Outcome State Fault Refusal :=
  s.work fun x =>
    if f.type ≠ 1 ∨ f.rsvd then x
    else x.receive n f w fun d f =>
      let g := { f with codes := codesOf f.data, data := match moved with | some m => changeUnit f.data m.1 m.2 | none => f.data }
      if f.dst = d.ring.position then d.acceptCut n g else d.forward n g

/-- GFREEZE: it acts on the partitions of its group and generation, and goes on (R478, R494). -/
def execGfreeze (n : Nat) (f : Frame) (w : Arrival) (s : State) : Outcome State Fault Refusal :=
  s.work fun x =>
    if f.type ≠ 5 ∨ f.rsvd then x
    else x.receive n f w fun d f =>
      if f.src = d.ring.position then d
      else (d.groupFreeze f.group f.gen f.src (norakStop n)).forward n (bareFrame f)

/-! ## Census -/

/-- Status of partition p in a census (R498). -/
def Dev.censusStatus (d : Dev) (p : Nat) : Nat :=
  let q := d.part p
  if q.state = .none ∨ q.exp = 0 then 0
  else if q.state = .loading ∨ !q.rooted ∨ (d.plotsOf p).any (fun n => (d.plot n).icpLoading) then 3
  else if q.root = q.exp then 1
  else 2

/-- This device's 16-byte record: 2 bits for each partition (R498, R501). -/
def Dev.censusRecord (d : Dev) : BitVec 128 :=
  BitVec.ofNat 128 (allParts.foldl (fun acc p => acc + d.censusStatus p * 4 ^ (p - 1)) 0)

/-- The record is written, bit POSITION of CYCLE is set, and a status 2 posts its event and brings the census cause into force
(R252, R498 steps 2 and 3). -/
def Dev.censusVisit (d : Dev) (f : Frame) : Dev × Frame :=
  let at_ := 16 * d.ring.position
  let bad := allParts.filter fun p => decide (d.censusStatus p = 2)
  let g := { f with
    data := f.data.take at_ ++ leBytes 16 d.censusRecord.toNat ++ f.data.drop (at_ + 16),
    cycle := f.cycle ||| (1#64 <<< d.ring.position) }
  let d1 := { d with ring := { d.ring with origin := BitVec.ofNat 8 f.src } }
  let d2 := bad.foldl (fun d p => d.post 0x0620 (p + f.src * 256 + f.gen.toNat * 2 ^ 16) p) d1
  (if bad.isEmpty then d2
   else d2.faultCauses 2 fun d => { d with start := { d.start with sfCensus := d.start.sfCensus || d.start.sfCensusEn } }, g)

/-- Status of partition p in a record. -/
def statusIn (r : BitVec 128) (p : Nat) : Nat := bits r.toNat (2 * (p - 1)) 2

/-- A round is over and another may start (R323, R498). -/
def Dev.censusOver (d : Dev) : Dev := { d with ring := { d.ring with circulating := false, waiters := [] } }

/-- The round is complete: the records stand in RING_CENSUS_RES, event 0x0610, and the tickets that wait complete with the count
of devices that differ (R323, R498 step 4). -/
def Dev.finishCensus (d : Dev) (f : Frame) : Dev :=
  let recs := (span 0 64).map fun i => (i, BitVec.ofNat 128 (leNat ((f.data.drop (16 * i)).take 16)))
  let present := ((span 0 64).filter fun i => f.cycle.getLsbD i).length
  let differ := (recs.filter fun x => allParts.any fun p => decide (statusIn x.2 p = 2)).length
  let w := d.ring.waiters
  let d1 := { d with ring := { d.ring with
    results := recs.filter (fun x => decide (x.2 ≠ 0)), differ := BitVec.ofNat 8 differ, present := BitVec.ofNat 8 present,
    rounds := sat1 d.ring.rounds } }
  let d2 := d1.post 0x0610 (f.gen.toNat + f.src * 256 + present * 2 ^ 16)
  let d3 := w.foldl (fun d x =>
    let n := (recs.filter fun y => decide (statusIn y.2 x.2.2 = 2)).length
    if n = 0 then d.done x.1 x.2.1 else d.complete x.1 x.2.1 0x0620 n) d2
  d3.censusOver

/-- The round fails: event 0x0621, and the tickets that wait complete with it (R498 step 5, R500). -/
def Dev.failCensus (d : Dev) (cause : Nat) : Dev :=
  let det := d.ring.round.toNat + cause * 256
  let w := d.ring.waiters
  (w.foldl (fun d x => d.complete x.1 x.2.1 0x0621 det) (d.post 0x0621 det)).censusOver

/-- A census round starts (R498 step 1) for the tickets in `w`: the frame goes east on ring A, or on ring B; a device alone, or
without NORAK, compares its own root (R323, R468). -/
def Dev.startCensus (d : Dev) (w : List (Nat × Nat × Nat)) : Dev :=
  let r := d.ring.round + 1
  let d1 := { d with ring := { d.ring with round := r, circulating := true, waiters := w, waitNext := [] } }
  let f : Frame := { type := 3, src := d.ring.position, dst := 0xFF, gen := r, data := leBytes 1024 0 }
  let v := d1.censusVisit f
  if !d.onRing ∨ d.ring.size ≤ 1 then v.1.finishCensus v.2
  else if v.1.canCarry 0 true then v.1.emit (portOf 0 true) v.2
  else if v.1.canCarry 1 true then v.1.emit (portOf 1 true) v.2
  else v.1.failCensus 2

/-- The round that waits starts when the current one has ended (R323). -/
def Dev.nextCensus (d : Dev) : Dev := if d.ring.waitNext.isEmpty then d else d.startCensus d.ring.waitNext

/-- CENSUS: the originator's round returns, or this device's record is written and the frame goes on (R478, R498). -/
def execCensus (n : Nat) (f : Frame) (w : Arrival) (s : State) : Outcome State Fault Refusal :=
  s.work fun x =>
    if f.type ≠ 3 ∨ f.rsvd then x
    else x.receive n f w fun d f =>
      if f.src = d.ring.position then
        (if d.ring.circulating ∧ f.gen = d.ring.round then (d.finishCensus f).nextCensus else d)
      else
        let v := d.censusVisit (bareFrame f)
        v.1.forward n v.2

/-- CENSUS_TIMEOUT: the round is not back within 10 ms (R498 step 5). -/
def execCensusTimeout (s : State) : Outcome State Fault Refusal :=
  s.work fun x => if x.ring.circulating then (x.failCensus 1).nextCensus else x

/-- CENSUS_AUTO_PERIOD: position 0 starts a round, unless its previous one still circulates (R499). -/
def execCensusAutoPeriod (s : State) : Outcome State Fault Refusal :=
  s.work fun x =>
    if x.feat 6 ∧ x.ring.auto ∧ x.onRing ∧ x.ring.position = 0 ∧ !x.ring.circulating then x.startCensus [] else x

/-! ## Ring time -/

/-- TIME: an exchange with the neighbour toward the master corrects the phase; OFFSET is the correction in ps (R479, R501). The
count keeps whole nanoseconds (log 29). -/
def execTime (n : Nat) (offset : BitVec 32) (s : State) : Outcome State Fault Refusal :=
  s.work fun x =>
    if n < 4 ∧ (x.rport n).state = .up ∧ x.onRing ∧ x.ring.position ≠ 0 then
      { x with ring := { x.ring with offset := offset, time := x.ring.time + BitVec.ofInt 64 (offset.toInt / 1000) } }
    else x

/-- RING_TIME_LOCK: 10 ms after the path to the master was sealed, LOCKED with event 0x0631 (R480). -/
def execRingTimeLock (hops : BitVec 6) (s : State) : Outcome State Fault Refusal :=
  s.work fun x =>
    if x.onRing ∧ x.ring.position ≠ 0 ∧ !x.ring.locked ∧ (span 0 4).any (fun n => decide ((x.rport n).state = .up)) then
      { x with ring := { x.ring with locked := true, hops := hops } }.post 0x0631 hops.toNat
    else x

/-! ## Ring registers -/

/-- A write to a block that a SERVICE reset resets: discarded from step 1 to step 9 (R79), else by PF0 or T0. -/
def Dev.bySvc (d : Dev) (m : Master) (off : Nat) (body : Dev → Dev) : Dev :=
  d.byHostOrT0 m off fun d => if d.rst.svc.isSome then d else body d

/-- BAR0 offset of RING_CTRL_r (R501). -/
def ringCtlOff (r : Nat) : Nat := 0x800048 + 8 * r

/-- RING_CTRL CMD = DISABLE, from ON: the ring drains (R451, R496). -/
def Dev.disableRing (d : Dev) (r : Nat) : Dev :=
  if r < 2 ∧ (d.rctl r).state = .on then
    let d1 := d.updRctl r fun c => { c with state := .draining, forced := false }
    { d1 with noc := { d1.noc with draining := d1.noc.draining ++ [.ring r] } }
  else d

/-- RING_CTRL CMD = OFF, from DRAINED: the bypass closes (R471, R496). -/
def Dev.offRing (d : Dev) (r : Nat) : Dev :=
  if r < 2 ∧ (d.rctl r).state = .drained then
    ((d.updRctl r fun c => { c with state := .off }).bypassPort (2 * r)).bypassPort (2 * r + 1)
  else d

/-- RING_CTRL CMD = ON: a drain ends, and a ring that was off trains again (R451, R469, R496). -/
def Dev.onRingCtl (d : Dev) (r : Nat) : Dev :=
  let st := (d.rctl r).state
  if r < 2 ∧ (st = .draining ∨ st = .drained ∨ st = .fenced ∨ st = .off) then
    let d1 := d.updRctl r fun c => { c with state := .on }
    let d2 := { d1 with noc := { d1.noc with draining := d1.noc.draining.filter fun (f : DrainFn) => decide (f ≠ DrainFn.ring r) } }
    if st = .off ∨ st = .fenced then d2.trainRing r else (d2.flushPort (2 * r)).flushPort (2 * r + 1)
  else d

/-- RING_DISABLE (R496). -/
def execRingDisable (m : Master) (r : Nat) (s : State) : Outcome State Fault Refusal :=
  s.run fun x => x.bySvc m (ringCtlOff r) fun d => d.disableRing r

/-- RING_OFF (R471). -/
def execRingOff (m : Master) (r : Nat) (s : State) : Outcome State Fault Refusal :=
  s.run fun x => x.bySvc m (ringCtlOff r) fun d => d.offRing r

/-- RING_ON (R496). -/
def execRingOn (m : Master) (r : Nat) (s : State) : Outcome State Fault Refusal :=
  s.run fun x => x.bySvc m (ringCtlOff r) fun d => d.onRingCtl r

/-- A block of a logical plot that a model or a model port takes (R211, R361). -/
def Part.blockTaken (q : Part) (plot block : Nat) : Bool :=
  match q.placement with
  | some pl => pl.models.any fun x => x.carriers.contains (plot, block) || x.blocks.contains (plot, block)
  | none => false

/-- Enabled bindings of the set that a binding is of, with their numbers (R483). -/
def Dev.setMates (d : Dev) (b : Nat) (x : Binding) : List (Nat × Binding) :=
  (d.setOf x.part x.inb x.peer x.peerPart x.round).filter fun e => decide (e.1 ≠ b)

/-- Condition 1 of R484. -/
def Dev.bindable (d : Dev) (p : Nat) : Bool :=
  let q := d.part p
  decide (1 ≤ p) && decide (p ≤ 64) && decide (q.state ≠ .none) && q.cut && q.placement.isSome &&
    decide (q.state ≠ .running) && decide (q.state ≠ .loading)

/-- The first condition of R484 that an enabling write breaks. -/
def Dev.bindFault (d : Dev) (b : Nat) (x : Binding) : Option Nat :=
  let q := d.part x.part
  let mates := d.setMates b x
  if !d.bindable x.part then some 1
  else if x.slot ≠ 0 ∧ !mates.any (fun e => decide (e.2.slot + 1 = x.slot)) then some 2
  else if !x.marker ∧ (!bit ((q.placement.map fun pl => pl.freeMask.getD x.plot 0).getD 0) x.block ∨
      q.blockTaken x.plot x.block ∨
      (d.bindings x.part).any (fun e => decide (e.1 ≠ b) && !e.2.marker && decide (e.2.plot = x.plot) &&
        decide (e.2.block = x.block))) then some 3
  else if x.marker ∧ (x.slot ≠ 0 ∨ !mates.isEmpty) then some 4
  else none

/-- A binding write that is ignored: event 0x0611, whose SOURCE the spec does not give (R484; log 30). -/
def Dev.refuseCut (d : Dev) (b reason part : Nat) : Dev :=
  d.postFree 0x0611 (b + reason * 2 ^ 12) part

/-- RING_CUT_b is written: an enabled binding changes EN alone, and conditions guard enabling and disabling (R484, R501). -/
def Dev.writeCut (d : Dev) (b : Nat) (v : Word) : Dev :=
  let old := tget d.ring.cuts b 0
  let x := bindingOf old
  let new := v &&& ~~~(0x3FF : Word)
  let set := fun (e : Dev) (w : Word) => { e with ring := { e.ring with cuts := tset e.ring.cuts b w } }
  if 4096 ≤ b then d
  else if x.en then
    if v.getLsbD 63 then d
    else if !d.bindable x.part then d.refuseCut b 1 x.part
    else if (d.setMates b x).any (fun e => decide (x.slot < e.2.slot)) then d.refuseCut b 5 x.part
    else set d (old &&& ~~~(1#64 <<< 63))
  else if v.getLsbD 63 then
    match d.bindFault b (bindingOf new) with
    | some r => d.refuseCut b r (bindingOf new).part
    | none => set d new
  else set d new

/-- RING_CUT_WRITE (R484). -/
def execRingCutWrite (m : Master) (b : Nat) (v : BitVec 64) (s : State) : Outcome State Fault Refusal :=
  s.run fun x => x.bySvc m (0x810000 + 8 * b) fun d => d.writeCut b v

/-- RING_GROUP_p is written: CUT and GROUP while the partition holds no placement, GEN while it is not RUNNING (R501). -/
def Dev.writeGroup (d : Dev) (p : Nat) (v : Word) : Dev :=
  if p = 0 ∨ 64 < p then d
  else d.updPart p fun q =>
    { q with cut := if q.placement.isNone then v.getLsbD 63 else q.cut,
             group := if q.placement.isNone then BitVec.ofNat 8 (bits v.toNat 48 8) else q.group,
             gen := if q.state = .running then q.gen else BitVec.ofNat 8 (bits v.toNat 40 8) }

/-- RING_GROUP_WRITE (R501). -/
def execRingGroupWrite (m : Master) (p : Nat) (v : BitVec 64) (s : State) : Outcome State Fault Refusal :=
  s.run fun x => x.bySvc m (0x802000 + 8 * p) fun d => d.writeGroup p v

end Sys2Proof.Machine
end

