-- ==== Sys2Proof/Machine/Starts.lean ====
section
/-! DEFINITION. CENS and DONEW, the start round over DONE_N (R247 to R251, R323, R324, R481) and SYSFAULT_N (R252 to R254). -/
namespace Sys2Proof.Machine
open Host

/-- The value of gA that a DEV of this issue would carry. -/
def Dev.gA (d : Dev) (i : Issue) (a : BitVec 5) : Nat := ((d.thr i.thread).reg a).toNat

/-! ## CENS -/

/-- Form of CENS, gA[9:8] (R299). -/
def censForm (a : Nat) : Nat := bits a 8 2

/-- What CENS checks at DEV: form 1 is T0's and reads its root block (R277, R299). -/
def censCheck (n : Nat) (a : Word) : DevCheck :=
  if censForm a.toNat = 1 then { rights := decide (n = 0) && mayName n (partOf a) false, block := some (32, false) }
  else { rights := mayName n (partOf a) false }

/-- CENS's operation (R323): form 1 registers the expected root; form 2 waits for a census round. -/
def Dev.startCens (d : Dev) (o : Op) : Dev :=
  if censForm o.a.toNat = 1 then
    d.needBits o 0x37F (2 ^ 64 - 1) fun d => d.readBlock o 32 fun d =>
      let v := BitVec.ofNat 256 (leNat (d.block o 32))
      (d.updPart o.part fun q => { q with exp := v }).done o.thread o.slot
  else if censForm o.a.toNat = 2 then
    d.needBits o 0x37F 0 fun d =>
      let w := (o.thread, o.slot, o.part)
      if (d.part o.part).exp = 0 then d.fail o 0x0913 badA
      else if d.ring.circulating then { d with ring := { d.ring with waitNext := d.ring.waitNext ++ [w] } }
      else d.startCensus [w]
  else d.fail o 0x0913 badA

/-- CENS_REGISTER: CENS whose form is not 2 (R323). -/
def execCensRegister (i : Issue) (d a b : BitVec 5) (s : State) : Outcome State Fault Refusal :=
  s.work fun x =>
    if censForm (x.gA i a) = 2 then x
    else x.devIssue i 0x11 d a b partOf (fun _ n va _ => censCheck n va) Dev.startCens

/-- CENS_ROUND: CENS whose form is not 1 (R323). -/
def execCensRound (i : Issue) (d a b : BitVec 5) (s : State) : Outcome State Fault Refusal :=
  s.work fun x =>
    if censForm (x.gA i a) = 1 then x
    else x.devIssue i 0x11 d a b partOf (fun _ n va _ => censCheck n va) Dev.startCens

/-! ## DONEW -/

/-- Start-group partitions that exist (R221, R249). -/
def Dev.startGroup (d : Dev) : List Nat := d.partsIn fun q => q.startGrp && decide (q.state ≠ .none)

/-- DONEW releases that are pending (R324). -/
def Dev.releases (d : Dev) : List Op := d.ops.filter fun o => decide (o.dop = 0x12) && !bit o.a.toNat 0

/-- No start round is pending. -/
def Start.idle (s : Start) : Start := { s with waiting := false, th := none, ts := none, group := [] }

/-- A start round fails: FAILED, event 0x011A with its cause, and the DONEW tickets complete with it (R250). -/
def Dev.failRound (d : Dev) (cause : Nat) : Dev :=
  let d1 := d.post 0x011A cause
  let d2 := d1.completeAll d1.releases 0x011A cause
  { d2 with start := { d2.start.idle with failed := true } }

/-- DONEW's operation (R249, R324): a hold drives DONE_N low and ends a pending round, whose tickets complete with 0x0917; a
release waits for its round. -/
def Dev.startDonew (d : Dev) (o : Op) : Dev :=
  if bit o.a.toNat 0 then
    d.needBits o 1 0 fun d =>
      let d1 := (d.draw 1).completeAll d.releases 0x0917 (Config.freeWord d.free).toNat
      ({ d1 with start := { d1.start.idle with hold := true } }).done o.thread o.slot
  else
    d.needBits o 1 (2 ^ 64 - 1) fun d => { d with start := { d.start with waiting := true } }

/-- DONEW_HOLD: DONEW with gA[0] = 1 (R324). -/
def execDonewHold (i : Issue) (d a b : BitVec 5) (s : State) : Outcome State Fault Refusal :=
  s.work fun x =>
    if bit (x.gA i a) 0 then
      x.devIssue i 0x12 d a b (fun _ => 0) (fun _ _ _ _ => { rights := true }) Dev.startDonew
    else x

/-- DONEW_RELEASE: DONEW with gA[0] = 0 (R249). -/
def execDonewRelease (i : Issue) (d a b : BitVec 5) (s : State) : Outcome State Fault Refusal :=
  s.work fun x =>
    if bit (x.gA i a) 0 then x
    else x.devIssue i 0x12 d a b (fun _ => 0) (fun _ _ _ _ => { rights := true }) Dev.startDonew

/-- DONE_HOLD_RELEASE: every start-group partition is PLACED (R249 steps 1 and 2). -/
def execDoneHoldRelease (s : State) : Outcome State Fault Refusal :=
  s.run fun x =>
    let g := x.startGroup
    if x.start.waiting ∧ x.start.hold ∧ !x.ime.sealed ∧ g.all (fun p => decide ((x.part p).state = .placed)) then
      { x with start := { x.start with hold := false, group := g } }.post 0x0118 g.length
    else x

/-- This device is the start master (R248). -/
def Dev.startMaster (d : Dev) : Bool := !d.onRing || decide (d.ring.position = 0)

/-- The START frame of a start time (R481). -/
def startFrame (ts : Nat) : Frame := { type := 2, src := 0, dst := 0xFF, data := leBytes 8 ts ++ leBytes 8 0 }

/-- DONE_N_RISE: the line has been high for 1 µs at ring time TH; the master sends START with TS = TH + 20 µs (R249 steps 3 and
4). -/
def execDoneNRise (th : Nat) (s : State) : Outcome State Fault Refusal :=
  s.run fun x =>
    if x.start.hold then x
    else
      let d1 := { x with start := { x.start with line := true } }
      if d1.start.waiting ∧ d1.start.th = none then
        let d2 := { d1 with start := { d1.start with th := some th } }
        if d2.startMaster then
          let ts := th + 20000
          let d3 := { d2 with start := { d2.start with ts := some ts } }
          if d3.onRing ∧ 1 < d3.ring.size then d3.sendDir 0 true (startFrame ts) else d3
        else d2
      else d1

/-- START_FRAME_RECEIVED: TS must lie at least 2 µs ahead and ring time be locked (R249 step 5, R480); the frame goes on. -/
def execStartFrameReceived (n : Nat) (f : Frame) (w : Arrival) (s : State) : Outcome State Fault Refusal :=
  s.work fun x =>
    if f.type ≠ 2 ∨ f.rsvd then x
    else x.receive n f w fun d f =>
      let d1 := d.forward n (bareFrame f)
      let ts := leNat (f.data.take 8)
      if d1.startMaster ∨ !d1.start.waiting ∨ d1.start.hold ∨ d1.start.ts.isSome then d1
      else if !d1.ring.locked ∨ ts < d1.ring.time.toNat + 2000 then d1.failRound 2
      else { d1 with start := { d1.start with ts := some ts } }

/-- A start-group partition starts: RUNNING at design cycle number 0, its pins out of their safe states (R249 step 6). -/
def Dev.startPart (d : Dev) (p : Nat) : Dev :=
  ((d.updPart p fun q => { q with cycle := 0 }).enterRunning p).pinsLeaveSafe p

/-- START_TIME_REACHED: the start-group partitions that are PLACED start together, unless SYSFAULT_N is low (R249 step 6, R250). -/
def execStartTimeReached (s : State) : Outcome State Fault Refusal :=
  s.work fun x =>
    if x.start.waiting ∧ x.start.ts.isSome then
      if !x.start.sfLine then x.failRound 3
      else
        let l := x.startGroup.filter fun p => decide ((x.part p).state = .placed)
        let d1 := forAll l x Dev.startPart
        let d2 := d1.post 0x0119 l.length
        let d3 := d2.releases.foldl (fun d o => d.done o.thread o.slot) d2
        { d3 with start := { d3.start.idle with
            starts := sat1 d3.start.starts, tStart := BitVec.ofNat 32 d3.evt.time.toNat } }
    else x

/-- DONEW_TIMEOUT: the timeout that a DONEW names expires before the partitions are PLACED (R249 step 1, R250). -/
def execDonewTimeout (s : State) : Outcome State Fault Refusal :=
  s.work fun x =>
    if x.start.waiting ∧ x.start.hold ∧ x.releases.any (fun o => decide (o.b ≠ 0)) then x.failRound 1 else x

/-- START_FRAME_TIMEOUT: no START within 1 ms of TH (R249 step 5, R250). -/
def execStartFrameTimeout (s : State) : Outcome State Fault Refusal :=
  s.work fun x =>
    if x.start.waiting ∧ x.start.th.isSome ∧ x.start.ts = none ∧ !x.startMaster then x.failRound 2 else x

/-- DONE_N_FALL: the filtered level; RUNNING partitions are not affected (R251). -/
def execDoneNFall (s : State) : Outcome State Fault Refusal :=
  s.run fun x => { x with start := { x.start with line := false } }

/-! ## SYSFAULT_N -/

/-- SYSFAULT_N_FALL: SEEN, event 0x0120, and every RUNNING partition without the exemption freezes at its boundary (R253). -/
def execSysfaultNFall (s : State) : Outcome State Fault Refusal :=
  s.run fun x =>
    if x.start.sfLine then
      let l := x.partsIn fun q => decide (q.state = .running) && !q.exempt
      let d1 := { x with start := { x.start with sfLine := false, sfSeen := true } }.post 0x0120 l.length
      forAll l d1 fun d p => d.addFreeze p .sysfault
    else x

/-- SYSFAULT_N_RISE: frozen partitions stay FROZEN, and a pending freeze stands (R254). The line cannot rise while this device
drives it. -/
def execSysfaultNRise (s : State) : Outcome State Fault Refusal :=
  s.run fun x => if x.drivesFault then x else { x with start := { x.start with sfLine := true } }

/-- FAB_SYSFAULT.CLEAR: the census and scrubber causes end (R252). -/
def Dev.clearFault (d : Dev) : Dev :=
  d.faultCauses 0 fun d => { d with start := { d.start with sfCensus := false, sfScrub := false } }

/-- SYSFAULT_CLEAR (R252). -/
def execSysfaultClear (m : Master) (s : State) : Outcome State Fault Refusal :=
  s.run fun x => x.byHostOrT0 m 0x200020 Dev.clearFault

/-- FAB_SYSFAULT.FW_ASSERT is written (R252). -/
def Dev.assertFault (d : Dev) (v : Bool) : Dev :=
  d.faultCauses 4 fun d => { d with start := { d.start with sfFw := v } }

/-- SYSFAULT_FW_ASSERT (R252). -/
def execSysfaultFwAssert (m : Master) (v : Bool) (s : State) : Outcome State Fault Refusal :=
  s.run fun x => x.byHostOrT0 m 0x200020 fun d => d.assertFault v

end Sys2Proof.Machine
end

