-- ==== Sys2Proof/Machine/Keys.lean ====
section
/-! DEFINITION. Keys: KEYSET and KEYRET (R325 to R328) and the retirement of a KeyID (R412 to R416). -/
namespace Sys2Proof.Machine
open Host

/-! ## KEYSET -/

/-- KeyID of KEYSET TYPE 1 and of KEYRET, gA[13:8] (R299). -/
def keyNo (a : Nat) : Nat := bits a 8 6

/-- Length of the key block of a TYPE (R325). -/
def keyLen (t : Nat) : Option Nat :=
  match t with
  | 1 => some 80
  | 2 => some 48
  | 3 => some 96
  | _ => none

/-- What KEYSET checks at DEV: T0 alone, and its key block, which it writes (R277, R326). -/
def keysetCheck (n : Nat) (a : Word) : DevCheck :=
  let t := keyType a.toNat
  { rights := decide (n = 0) && (decide (t ≠ 2 ∧ t ≠ 3) || mayName n (partOf a) false),
    block := (keyLen t).map fun l => (l, decide (t ≠ 3)) }

/-- Every mapped channel's metadata is ready (R400). -/
def Dev.metaReady (d : Dev) : Bool := (span 0 8).all fun c => !(d.chan c).mapped || (d.chan c).metaReady

/-- MODE of a key block (R325). -/
def modeOf (m : Nat) : KMode := if m = 1 then .sealed else if m = 2 then .verified else .plain

/-- The fault of a TYPE 1 key block and KeyID: code and detail (R325, R298). -/
def Dev.memoryKeyFault (d : Dev) (k : Nat) (l : List Byte) : Option (Nat × Nat) :=
  let m := field l 0 1
  if k = 0 then some (0x0913, badA)
  else if 2 < m then some (0x0913, 0)
  else if !zeros l 1 15 then some (0x0913, 1)
  else if m = 0 ∧ !zeros l 16 64 then some (0x0913, 16)
  else if m = 1 ∧ !d.feat 3 then some (0x0910, 3)
  else if m = 2 ∧ !d.feat 4 then some (0x0910, 4)
  else if (d.keyid k).state ≠ .free then some (0x0914, 4 * 2 ^ 24 + k)
  else none

/-- A memory key is installed: the KeyID is ACTIVE in its mode (R325, R412). -/
def Dev.installKey (d : Dev) (k : Nat) (l : List Byte) : Dev :=
  d.updKey k fun x =>
    { x with state := .active, mode := modeOf (field l 0 1), key := BitVec.ofNat 512 (leNat ((l.drop 16).take 64)),
             gen := x.gen + 1, drained := false, aborted := 0 }

/-- Bytes that are not all zero, as a value to install (R325). -/
def installed (l : List Byte) : Bool := l.any fun b => decide (b ≠ 0)

/-- KEYSET's operation (R325); a VERIFIED key waits until every mapped channel's metadata is ready (R400). -/
def Dev.startKeyset (d : Dev) (o : Op) : Dev :=
  let t := keyType o.a.toNat
  if !d.boot.locked then d.fail o 0x0910 0xFFFFFFFF
  else d.readBlock o ((keyLen t).getD 0) fun e =>
    let l := e.block o 96
    match t with
    | 1 => e.needBits o 0x73F00 (2 ^ 64 - 1) fun e =>
        let k := keyNo o.a.toNat
        match e.memoryKeyFault k l with
        | some f => e.fail o f.1 f.2
        | none =>
          if field l 0 1 = 2 ∧ !e.metaReady then e.updOp o.thread o.slot fun y => { y with phase := .queued }
          else (e.installKey k l).done o.thread o.slot
    | 2 => e.needBits o 0x7007F (2 ^ 64 - 1) fun e =>
        if (e.part o.part).state = .none then e.refuseOp o 1 else
        (e.updPart o.part fun q =>
          { q with imageKey := if installed (l.take 48) then some (BitVec.ofNat 384 (leNat (l.take 48))) else none }).done
            o.thread o.slot
    | 3 => e.needBits o 0x7007F (2 ^ 64 - 1) fun e =>
        if (e.part o.part).state = .none then e.refuseOp o 1 else
        let h := (BitVec.ofNat 384 (leNat (l.take 48)), BitVec.ofNat 384 (leNat ((l.drop 48).take 48)))
        (e.updPart o.part fun q => { q with hashes := if installed (l.take 96) then some h else none }).done o.thread o.slot
    | _ => e.fail o 0x0913 badA

/-- The partition a KEYSET names: for TYPES 2 and 3 (R299). -/
def keysetPart (a : Word) : Nat := if keyType a.toNat = 2 ∨ keyType a.toNat = 3 then partOf a else 0

/-- A KEYSET DEV of one of the three rows: TYPE `t`, or no TYPE of the table. -/
def Dev.keyset (x : Dev) (i : Issue) (d a b : BitVec 5) (t : Nat) : Dev :=
  let u := keyType (x.gA i a)
  if u ≠ t ∧ (keyLen u).isSome then x
  else x.devIssue i 0x13 d a b keysetPart (fun _ n va _ => keysetCheck n va) Dev.startKeyset

/-- KEYSET_MEMORY_KEY (R325). -/
def execKeysetMemoryKey (i : Issue) (d a b : BitVec 5) (s : State) : Outcome State Fault Refusal :=
  s.work fun x => x.keyset i d a b 1

/-- KEYSET_IMAGE_KEY (R325). -/
def execKeysetImageKey (i : Issue) (d a b : BitVec 5) (s : State) : Outcome State Fault Refusal :=
  s.work fun x => x.keyset i d a b 2

/-- KEYSET_TENANT_HASHES (R325). -/
def execKeysetTenantHashes (i : Issue) (d a b : BitVec 5) (s : State) : Outcome State Fault Refusal :=
  s.work fun x => x.keyset i d a b 3

/-! ## KEYRET -/

/-- A KeyID is in the set of a partition that exists (R327). -/
def Dev.inSomeSet (d : Dev) (k : Nat) : Bool := decide (d.keyOwner k ≠ 0)

/-- KEYRET's operation (R327, R328): the retire form starts the retirement of R413; the free form frees a RETIRED KeyID. -/
def Dev.startKeyret (d : Dev) (o : Op) : Dev :=
  d.needBits o 0x13F00 0 fun d =>
    let k := keyNo o.a.toNat
    let st := (d.keyid k).state
    if bit o.a.toNat 16 then
      if st = .retired then (d.updKey k fun x => { x with state := .free }).done o.thread o.slot
      else d.fail o 0x0914 (4 * 2 ^ 24 + k)
    else if k = 0 ∨ st ≠ .active then d.fail o 0x0914 (2 ^ 24 + k)
    else if d.inSomeSet k then d.fail o 0x0914 (3 * 2 ^ 24 + k)
    else d.updKey k fun x =>
      { x with state := .retiring, drained := false, aborted := 0, thread := o.thread, slot := o.slot }

/-- KEYRET_RETIRE: KEYRET with gA[16] = 0 (R327). -/
def execKeyretRetire (i : Issue) (d a b : BitVec 5) (s : State) : Outcome State Fault Refusal :=
  s.work fun x =>
    if bit (x.gA i a) 16 then x
    else x.devIssue i 0x14 d a b (fun _ => 0) (fun _ n _ _ => { rights := decide (n = 0) }) Dev.startKeyret

/-- KEYRET_FREE: KEYRET with gA[16] = 1 (R328). -/
def execKeyretFree (i : Issue) (d a b : BitVec 5) (s : State) : Outcome State Fault Refusal :=
  s.work fun x =>
    if bit (x.gA i a) 16 then
      x.devIssue i 0x14 d a b (fun _ => 0) (fun _ n _ _ => { rights := decide (n = 0) }) Dev.startKeyret
    else x

/-! ## Retirement -/

/-- A retirement of KeyID k goes on: it is RETIRING, and neither a SERVICE reset nor a seal halt holds it (R413, R414). -/
def Dev.retiringOn (d : Dev) (k : Nat) : Bool :=
  decide ((d.keyid k).state = .retiring) && d.rst.svc.isNone && !d.ime.sealed

/-- KEYID_DRAINED: the accesses accepted before step 1 have completed (R413 step 2). -/
def execKeyidDrained (k : Nat) (s : State) : Outcome State Fault Refusal :=
  s.work fun x => if x.retiringOn k then x.updKey k fun y => { y with drained := true } else x

/-- RETIRE_TIMEOUT: what remains is aborted and counted, with event 0x0415 (R413 step 3). -/
def execRetireTimeout (k aborted : Nat) (s : State) : Outcome State Fault Refusal :=
  s.work fun x =>
    if x.retiringOn k ∧ !(x.keyid k).drained then
      (x.updKey k fun y => { y with drained := true, aborted := aborted }).postFree 0x0415 (aborted % 2 ^ 16 * 2 ^ 16 + k)
    else x

/-- A KeyID's bits leave the rights table (R413 step 5). -/
def clearRight (t : Tab (BitVec 64)) (k : Nat) : Tab (BitVec 64) := t.map fun e => (e.1, e.2 &&& ~~~(1#64 <<< k))

/-- KEYID_RETIRED: written back; granules unbound, key zeroised, rights cleared, RETIRED with event 0x0414, and KEYRET completes
with the count aborted (R327, R404, R413 steps 4 and 5). -/
def execKeyidRetired (k : Nat) (s : State) : Outcome State Fault Refusal :=
  s.work fun x =>
    let y := x.keyid k
    if x.retiringOn k ∧ y.drained then
      let bound := (x.ime.granules.filter fun (g : Nat × Nat) => decide (g.2 = k)).map (·.1)
      let d1 := (forAll bound x fun z g => z.flushGranule true g).updKey k fun z => { z with state := .retired, key := 0 }
      let d2 := { d1 with ime := { d1.ime with
        granules := d1.ime.granules.filter fun (g : Nat × Nat) => decide (g.2 ≠ k),
        rightsRd := clearRight d1.ime.rightsRd k, rightsWr := clearRight d1.ime.rightsWr k } }
      (d2.postFree 0x0414 (y.aborted % 2 ^ 16 * 2 ^ 16 + k)).complete y.thread y.slot 0 y.aborted
    else x

end Sys2Proof.Machine
end

