-- ==== Sys2Proof/Machine/Drains.lean ====
section
/-! DEFINITION. The drain-and-abort rule (R451 to R456) for every function that it disables, what ends a PART release (R223, R329)
and a PARTITION reset (R82), and the stops of NOC_STOP_s. -/
namespace Sys2Proof.Machine
open Host

/-! ## What belongs to a partition -/

/-- Keys of the priority registers of partition p's requesters (R463). -/
def partRequesters (p : Nat) : List Nat :=
  [p + 1, 256 + p, 48 * 256 + p, 48 * 256 + 64 + p, 49 * 256 + p, 50 * 256 + p]

/-- Operations of a list complete with a code, and nothing waits for their tickets any more (R284, R313). -/
def Dev.endOps (d : Dev) (l : List Op) (code detail : Nat) : Dev :=
  let gone := fun (n s : Nat) => l.any fun o => decide (o.thread = n) && decide (o.slot = s)
  let d1 := d.completeAll l code detail
  { d1 with
    ring := { d1.ring with
      waiters := d1.ring.waiters.filter fun w => !gone w.1 w.2.1,
      waitNext := d1.ring.waitNext.filter fun w => !gone w.1 w.2.1 } }

/-- What a PART release and a PARTITION reset both end in a partition: load, grant, count, captures, snapshots, rewind, waiting
selections, trace, recorded digests, journal (R82, R223, R240, R313, R315, R508, R540, R554). -/
def Part.cleared (q : Part) : Part :=
  { q with
    load := none, grant := none, grantDrain := false, digests := [], root := 0, rooted := false, eng := {}, freeze := [],
    count := none, stepOp := none, snapReq := [], capture := [], snaps := [], lastSnap := none, invSeq := q.capSeq,
    rewinding := none, faultPlots := [], scrubPlots := [], lastAuto := [], scrubbing := false, resume := false, selNext := [], trigNext := [],
    trace := { q.trace with state := 0, post := 0 }, promote := [], pageCounts := [], jUsed := 0, jFull := false, jLines := [],
    patrol := false, damaged := [], cleanCycle := 0, tsnap := q.tsnap &&& ~~~(1#64 <<< 63), drainTo := 0, state := .blank }

/-- The ticket of the operation on partition p with this operation number and form completes, CODE 0. -/
def Dev.doneOps (d : Dev) (f : Op → Bool) : Dev := (d.ops.filter f).foldl (fun d o => d.done o.thread o.slot) d

/-- The PART release of partition p: DOP 0x19, operation 3 (R329). -/
def isRelease (p : Nat) (o : Op) : Bool := decide (o.dop = 0x19) && decide (o.part = p) && decide (bits o.a.toNat 8 3 = 3)

/-- The ICPG of partition p that revokes its grant (R331). -/
def isRevoke (p : Nat) (o : Op) : Bool := decide (o.dop = 0x18) && decide (o.part = p) && decide (o.phase = .run)

/-- A drain of partition p still runs. -/
def Dev.partDrains (d : Dev) (p : Nat) : Bool :=
  d.noc.draining.any fun (f : DrainFn) => decide (f = .dma p) || decide (f = .vf p) || decide (f = .icp p)

/-- A PART release ends when nothing of the partition drains any more: its plots enter CLEARING and it is BLANK without a
placement (R223, R329). -/
def Dev.finishRelease (d : Dev) (p : Nat) : Dev :=
  if (d.part p).state = .draining ∧ (d.part p).drainTo = 2 ∧ !d.partDrains p then
    let d1 := (forAll (d.plotsOf p) (d.abandonMigs p fun _ => true) Dev.startClearing).updPart p fun q =>
      { q.cleared with placement := none }
    (((d1.priDefaults (partRequesters p)).pinsSafe p).doneOps (isRelease p))
  else d

/-- The zeroing and the rest of a PARTITION reset of partition p once its work has drained (R82 steps 3 to 6, R259, R284). -/
def Dev.finishPartReset (d : Dev) (p cls : Nat) : Dev :=
  let d0 := d.abandonMigs p fun _ => true
  let d1 := d0.endOps (d0.ops.filter fun o => decide (o.part = p) || decide (o.thread = p)) 0x0911 cls
  let d2 := forAll (d1.plotsOf p) d1 fun e n =>
    if (e.plot n).state = .clearing then e
    else (e.zeroPlot n).updPlot n fun x =>
      { x with state := .ready, rewind := false, icpLeave := false, icpLoading := false, icpRejoin := false, icpFrames := [] }
  let d3 := (d2.updPart p fun q => { q.cleared with autoRw := false, gen := 0 }).pinsSafe p
  let d4 := (d3.dropTraps p).updThr p fun t => { win := t.win, winNext := t.winNext }
  (({ d4 with evt := { d4.evt with vf := tset d4.evt.vf p {} } }.priDefaults (partRequesters p)))

/-! ## Functions that drain -/

/-- Detail of a drain's event for a ring stop or other function: its kind and number (R465). -/
def drainDetail (kind n : Nat) : Nat := kind * 2 ^ 12 + n

/-- Details of the events of a drained function: a ring has two ports (R465). -/
def drainDetails (f : DrainFn) : List Nat :=
  match f with
  | .dma p => [drainDetail 1 p]
  | .vf p => [drainDetail 2 p]
  | .icp p => [drainDetail 3 p]
  | .ring r => [drainDetail 4 (2 * r), drainDetail 4 (2 * r + 1)]
  | .stop s => [drainDetail 5 s]

/-- An event of a drain, from the stop of the function drained: PCIe, ICP, a Norak port or the stop itself (R465, R608). -/
def Dev.postDrain (d : Dev) (f : DrainFn) (code count : Nat) : Dev :=
  (drainDetails f).foldl (fun e x =>
    let det := count % 2 ^ 16 * 2 ^ 16 + x
    match f with
    | .dma p | .vf p => e.postSrc code det p 0
    | .icp p => e.postSrc code det p 3
    | .ring _ => e.postSrc code det 0 (norakStop (x % 2 ^ 12))
    | .stop s => e.postSrc code det 0 s) d

/-- A function is DRAINED (R451, R453): what that means for each. -/
def Dev.drained (d : Dev) (f : DrainFn) : Dev :=
  let d1 := { d with noc := { d.noc with draining := d.noc.draining.filter fun (x : DrainFn) => decide (x ≠ f) } }
  match f with
  | .dma p => d1.finishRelease p
  | .vf p => d1.finishRelease p
  | .icp p =>
    ((d1.updPart p fun q => { q with grant := none, grantDrain := false }).doneOps (isRevoke p)).finishRelease p
  | .ring r => d1.updRctl r fun c => { c with state := .drained }
  | .stop s => d1.updStop s fun x => { x with state := .drained }

/-- Work accepted before the disable is still under way, where State holds it. -/
def Dev.workLeft (d : Dev) (f : DrainFn) : Bool :=
  match f with
  | .dma p => d.ops.any fun o => decide (o.dop = 0x0E) && decide (o.part = p)
  | .icp p => d.icp.any fun r => decide (r.part = p)
  | .ring r => (span (2 * r) 2).any fun n => !((d.rport n).txq.isEmpty && (d.rport n).retry.isEmpty)
  | .vf _ | .stop _ => false

/-- The work that remains is aborted with error completions (R451 step 3, R453). -/
def Dev.abortWork (d : Dev) (f : DrainFn) (aborted : Nat) : Dev :=
  match f with
  | .dma p => (d.ops.filter fun o => decide (o.dop = 0x0E) && decide (o.part = p)).foldl (fun e o => e.endDma o 0x0915 0 0) d
  | .icp p => d.abortIcp p
  | .ring r =>
    (forAll (span (2 * r) 2) d fun e n => e.updRport n fun x => { x with txq := [], retry := [] }).updRctl r fun c =>
      { c with forced := true, aborted := satAdd 0 aborted }
  | .vf _ => d
  | .stop s => d.updStop s fun x => { x with forced := true, aborted := satAdd 0 aborted }

/-- A forced disable (R451 step 3). -/
def Dev.forceDrain (d : Dev) (f : DrainFn) (aborted : Nat) : Dev :=
  if d.noc.draining.contains f then ((d.abortWork f aborted).postDrain f 0x0511 aborted).drained f else d

/-- DRAIN_COMPLETE: no work remains; DRAINED, with event 0x0510 (R451 step 2). -/
def execDrainComplete (f : DrainFn) (s : State) : Outcome State Fault Refusal :=
  s.work fun d =>
    if d.noc.draining.contains f ∧ !d.workLeft f then (d.postDrain f 0x0510 0).drained f else d

/-- DRAIN_TIMEOUT: a forced disable with event 0x0511; one that falls within a SERVICE reset takes effect after it (R451 step 3,
R456). -/
def execDrainTimeout (f : DrainFn) (aborted : Nat) (s : State) : Outcome State Fault Refusal :=
  s.work fun d =>
    if d.rst.svc.isSome then
      (if d.noc.draining.contains f then { d with noc := { d.noc with late := d.noc.late ++ [(f, aborted)] } } else d)
    else d.forceDrain f aborted

/-! ## NOC_STOP_s -/

/-- BAR0 offset of NOC_STOP_s (R466). -/
def nocStopOff (s : Nat) : Nat := 0x700100 + 8 * s

/-- A stop that NOC_STOP_s disables (R454). -/
def stopControlled (s : Nat) : Bool := decide (4 ≤ s) && decide (s ≤ 32)

/-- DISABLE of a stop, from ON; a loam port's only while every plot it serves is FREE or MAPPED_OUT (R454, R455). -/
def Dev.disableStop (d : Dev) (s : Nat) : Dev :=
  let vacant := allPlots.all fun n => decide (loamStop n ≠ s) || (match (d.plot n).state with
    | .free | .mappedOut => true
    | _ => false)
  if stopControlled s ∧ (d.stop s).state = .on ∧ (s < 17 ∨ vacant) then
    let d1 := d.updStop s fun x => { x with state := .draining, forced := false }
    { d1 with noc := { d1.noc with draining := d1.noc.draining ++ [.stop s] } }
  else d

/-- OFF of a stop, from DRAINED: its crossings are to be fenced (R451 step 4, R454). -/
def Dev.offStop (d : Dev) (s : Nat) : Dev :=
  if stopControlled s ∧ (d.stop s).state = .drained then d.updStop s fun x => { x with offReq := true } else d

/-- The unit of a stop starts its training: a tower's or a channel's memory (R454). -/
def Dev.trainStop (d : Dev) (s : Nat) : Dev :=
  if 5 ≤ s ∧ s ≤ 12 then
    (if (d.chan (s - 5)).state = .off then d.updChan (s - 5) fun c => { c with state := .training } else d)
  else if 13 ≤ s ∧ s ≤ 16 then
    (if (d.tower (s - 13)).state = .off ∧ !(d.tower (s - 13)).diesOut.getLsbD 0 then
      d.updTower (s - 13) fun t => { t with state := .training } else d)
  else d

/-- ON of a stop: a drain ends, and a fenced or switched-off agent runs again and retrains (R451 step 5, R454). -/
def Dev.onStop (d : Dev) (s : Nat) : Dev :=
  let st := (d.stop s).state
  if stopControlled s ∧ (st = .draining ∨ st = .drained ∨ st = .fenced ∨ st = .off) then
    let d1 := d.updStop s fun x => { x with state := .on, offReq := false }
    let d2 := { d1 with noc := { d1.noc with
      draining := d1.noc.draining.filter fun (x : DrainFn) => decide (x ≠ DrainFn.stop s) } }
    if st = .off ∨ st = .fenced then d2.trainStop s
    else if 5 ≤ s ∧ s ≤ 12 then
      d2.updChan (s - 5) fun c => { c with state := if c.state = .draining then .active else c.state, persist := false }
    else d2
  else d

/-- The bytes of a range hold nothing written any more: DDR5 or marl whose contents are lost (R375, R455). -/
def Dev.loseRange (d : Dev) (a n : Nat) : Dev :=
  { d with mem := { d.mem with
      cells := d.mem.cells.filter fun (c : Cell) => !(decide (a ≤ c.1) && decide (c.1 < a + n)),
      poison := d.mem.poison.filter fun x => !within (64 * x) 64 a n,
      tags := d.mem.tags.filter fun x => !within (64 * x.1) 64 a n,
      upsets := d.mem.upsets.filter fun x => !within (8 * x.1) 8 a n,
      ccUpsets := d.mem.ccUpsets.filter fun x => !within (64 * x.1) 64 a n } }

/-- The contents behind a switched-off stop are lost (R455). -/
def Dev.loseContents (d : Dev) (s : Nat) : Dev :=
  if 5 ≤ s ∧ s ≤ 12 then
    let c := d.chan (s - 5)
    let d1 := if c.mapped then d.loseRange (c.base * 2 ^ 26) (c.user * 2 ^ 26) else d
    d1.updChan (s - 5) fun c => { c with state := if c.state = .absent ∨ c.state = .failed then c.state else .off, metaReady := false }
  else if 13 ≤ s ∧ s ≤ 16 then
    (d.loseRange (marlBase + (s - 13) * towerSize) towerSize).updTower (s - 13) fun t =>
      { t with state := if t.state = .failed then t.state else .off }
  else d

/-- NOC_STOP_DISABLE (R454). -/
def execNocStopDisable (m : Master) (s : Nat) (st : State) : Outcome State Fault Refusal :=
  st.run fun x => x.bySvc m (nocStopOff s) fun d => d.disableStop s

/-- NOC_STOP_OFF (R454). -/
def execNocStopOff (m : Master) (s : Nat) (st : State) : Outcome State Fault Refusal :=
  st.run fun x => x.bySvc m (nocStopOff s) fun d => d.offStop s

/-- NOC_STOP_ON (R454). -/
def execNocStopOn (m : Master) (s : Nat) (st : State) : Outcome State Fault Refusal :=
  st.run fun x => x.bySvc m (nocStopOff s) fun d => d.onStop s

/-- FENCE_HANDSHAKE_DONE: the crossings are fenced, event 0x0512; the clock of the domain is then switched off, and with it the
contents of its memory (R44, R451 step 4, R454, R455; log 31). -/
def execFenceHandshakeDone (s : Nat) (st : State) : Outcome State Fault Refusal :=
  st.work fun x =>
    if (x.stop s).offReq ∧ (x.stop s).state = .drained then
      (((x.updStop s fun y => { y with state := .off, offReq := false }).postSrc 0x0512 s 0 s).loseContents s)
    else x

end Sys2Proof.Machine
end

