-- ==== Sys2Proof/Machine/Noc.lean ====
section
/-! DEFINITION. Ring sidebands (R442), arbiters (R457 to R463), network statistics (R450) and the forced seal halt (R417). -/
namespace Sys2Proof.Machine
open Host

/-- SIDEBAND_UE: an error of a ring's sideband. One changed bit is corrected and counts; more, which the SECDED code cannot correct, freeze every
partition at its current microcycle, with FATAL and event 0x0503 (R441, R442; log 145). -/
def execSidebandUe (ring : Nat) (hit : SidebandHit) (s : State) : Outcome State Fault Refusal :=
  s.work fun x =>
    let stop := hit.stop
    if 4 ≤ ring ∨ 40 ≤ stop ∨ hit.bits = 0 then x
    else if hit.bits = 1 then { x with noc := { x.noc with sbCorrected := sat1 x.noc.sbCorrected } }
    else
      let d1 := forAll allParts x Dev.freezeMicro
      { d1 with noc := { d1.noc with fatal := true } }.postSrc 0x0503 (ring * 256 + stop) 0 stop

/-- IME_SEAL.FORCE with its key (R417). -/
def Dev.forceSeal (d : Dev) (m : Master) : Dev :=
  match m with
  | .pf0 => d.sealHalt 0x0408 1 0
  | .thread 0 => d.sealHalt 0x0408 2 0x80
  | _ => d

/-- SEAL_FORCE (R417). -/
def execSealForce (m : Master) (key : BitVec 8) (s : State) : Outcome State Fault Refusal :=
  s.run fun x => x.byHostOrT0Only m 0x600008 fun d => if key = 0x5A ∧ d.rst.svc.isNone then d.forceSeal m else d

/-! ## Arbiters -/

/-- The row-move operation of a thread whose transaction the watchdog ends: the first in issue order of FILL and RMOV in marl, SNAP
and RWND (R300, R458). -/
def Dev.rowMoveOp (d : Dev) (n : Nat) : Option Op :=
  d.ops.find? fun o => decide (o.thread = n) && decide (o.phase = .run) &&
    (decide (o.dop = 0x0A) || decide (o.dop = 0x0B) || match d.destOf o with
      | .mem a _ => decide (marlBase ≤ a) && decide (o.dop ≠ 0x0E)
      | _ => false)

/-- The transaction of a bitten requester ends as a forced disable ends it (R453, R462 step 1): the ICP's loads, migrations and
requests, a row-move operation, a trace record. A packet under injection goes on poisoned; its error completion comes with its own
command. -/
def Dev.biteEnds (d : Dev) (i r : Nat) : Dev :=
  if i ≤ 36 then d.releaseGrant i r
  else if 40 ≤ i ∧ i ≤ 47 then d.releaseFront (i - 40) r
  else if i = 48 then
    if r = 0 then (d.plc.migs.filter fun g => !g.copied).foldl (fun e g => e.dropMig g 0x0915 0) d
    else if r ≤ 64 then d.abortLoad r 0x0915 (d.part r).loadFrames.toNat
    else d.abortIcp (r - 64)
  else if i = 49 ∧ r ≤ 64 then
    match d.rowMoveOp r with
    | some o =>
      let d1 := d.updPart o.part fun q =>
        { q with capture := q.capture.filter fun c => !(decide (c.thread = o.thread) && decide (c.slot = o.slot)),
                 rewinding := q.rewinding.filter fun w => w.auto || !(decide (w.thread = o.thread) && decide (w.slot = o.slot)) }
      d1.fail o 0x0915 0
    | none => d
  else if i = 50 ∧ 1 ≤ r then d.traceLost r
  else d

/-- ARB_WATCHDOG_BITE: the grant is released, its transaction ends, and the requester is quarantined with event 0x0520 (R462). -/
def execArbWatchdogBite (i r : Nat) (s : State) : Outcome State Fault Refusal :=
  s.work fun x =>
    if arbReqs i ≤ r ∨ (x.arb i r).quar then x
    else (((x.biteEnds i r).updArb i r fun y => { y with quar := true }).postArb i r 0x0520)

/-- BAR0 offset of NOC_ARB_PRI_i_r (R466). -/
def arbPriOff (i r : Nat) : Nat := 0x710000 + 0x800 * i + 8 * r

/-- REENABLE = 1: the quarantine is lifted, with event 0x0521 (R462 step 4). -/
def Dev.reenableArb (d : Dev) (i r : Nat) : Dev :=
  if r < arbReqs i ∧ (d.arb i r).quar then (d.updArb i r fun y => { y with quar := false }).postArb i r 0x0521 else d

/-- ARB_REENABLE (R462). -/
def execArbReenable (m : Master) (i r : Nat) (s : State) : Outcome State Fault Refusal :=
  s.run fun x => x.bySvc m (arbPriOff i r) fun d => d.reenableArb i r

/-- CLASS and LEVEL are written: COUNT stays; a change to NORMAL lifts the mask, a change to HIGH masks a requester that has reached
QUOTA (R461). -/
def Dev.writePriority (d : Dev) (i r : Nat) (high : Bool) (level : BitVec 3) : Dev :=
  if r < arbReqs i then
    let was := d.arbHigh i r
    let c := d.arbCfg i
    d.updArb i r fun y =>
      { y with high := some high, level := level,
               masked := if !high then false
                 else if !was then decide (actQuota c.winNow c.quotaNow ≤ y.count.toNat)
                 else y.masked }
  else d

/-- ARB_PRIORITY_WRITE (R461). -/
def execArbPriorityWrite (m : Master) (i r : Nat) (high : Bool) (level : BitVec 3) (s : State) :
    Outcome State Fault Refusal :=
  s.run fun x => x.bySvc m (arbPriOff i r) fun d => d.writePriority i r high level

/-! ## Statistics -/

/-- NOC_STAT_CLEAR: every statistics counter is zero (R450). -/
def execNocStatClear (m : Master) (s : State) : Outcome State Fault Refusal :=
  s.run fun x => x.bySvc m 0x700018 fun d => { d with noc := { d.noc with stats := [] } }

/-- NOC_STAT_FREEZE: FREEZE holds every counter (R450). -/
def execNocStatFreeze (m : Master) (v : Bool) (s : State) : Outcome State Fault Refusal :=
  s.run fun x => x.bySvc m 0x700018 fun d => { d with noc := { d.noc with frozen := v } }

end Sys2Proof.Machine
end

