-- ==== Sys2Proof/Machine/Manage.lean ====
section
/-! DEFINITION. Device operations that manage: EVT (R333), THRM (R334, R542), MTRD (R334, R583, R584), ICPG (R331) and PART
(R221 to R224, R329, R330). -/
namespace Sys2Proof.Machine
open Host

/-- Result bytes written into the operand block (R296). -/
def Dev.writeBlock (d : Dev) (o : Op) (off : Nat) (l : List Byte) : Dev := d.memWrite 0 (seqAddr (o.b.toNat + off)) l

/-- The first offset of a list whose fault holds. -/
def firstFault (l : List (Bool × Nat)) : Option Nat := (l.find? fun x => x.1).map (·.2)

/-! ## EVT -/

/-- EVT's operation (R333): a FIRMWARE record into the PF0 queue, its partition's VF queue, and the vectors it names. -/
def Dev.startEvt (d : Dev) (o : Op) : Dev :=
  d.needBits o (0x7F + 0xFFFF * 2 ^ 16 + 0x3F * 2 ^ 32 + 7 * 2 ^ 40) 0xFFFFFFFF fun d =>
    let a := o.a.toNat
    let code := bits a 16 16
    let v := bits a 32 6
    let w := bits a 40 3
    if code < 0xF000 ∨ (v ≠ 0 ∧ v < 16) ∨ w = 1 then d.fail o 0x0913 badA
    else
      let r := d.mkRec code o.b.toNat o.part (0x80 + o.thread)
      let e := d.postRec r (if v = 0 then none else some v) (if w = 0 then none else some w)
      e.complete o.thread o.slot 0 (b2n (d.evt.pf.full 4096))

/-- EVT (R333). -/
def execEvt (i : Issue) (d a b : BitVec 5) (s : State) : Outcome State Fault Refusal :=
  s.work fun x => x.devIssue i 0x15 d a b partOf (fun _ n va _ => { rights := mayName n (partOf va) true }) Dev.startEvt

/-! ## THRM -/

/-- Grain clock now on the spines, THM_GCLK.CUR: half the active PLL's frequency while divided, 0 when stopped (R35, R544). -/
def Dev.gclkCur (d : Dev) : Nat :=
  if !d.clocked then 0
  else
    let f := (if d.clk.active then d.clk.g1 else d.clk.g0).freq
    if d.clk.divided then f / 2 else f

/-- Highest control value of the sensors `a` to `a + n - 1` (R534, R542). -/
def Dev.hottest (d : Dev) (a n : Nat) : Int :=
  ((span a n).map fun i => (d.sensor i).control).foldl max (d.sensor a).control

/-- First sensor and number of sensors of horizon Hh (R525). -/
def horizonSensors (h : Nat) : Nat × Nat := if h = 0 then (256, 16) else (64 * (h - 1), 64)

/-- Suspect sensors (R532, R544). -/
def Dev.suspects (d : Dev) : Nat := ((span 0 368).filter fun i => (d.sensor i).suspect).length

/-- A signed value in two bytes. -/
def intBytes (x : Int) : List Byte := leBytes 2 (intField 16 x)

/-- The thermal state block (R542). -/
def Dev.thermBlock (d : Dev) : List Byte :=
  let guarded := (span 0 368).any fun i => (d.sensor i).guarded
  leBytes 8 d.thm.stepTime.toNat ++ leBytes 1 d.thm.band ++ leBytes 1 d.thm.bandKA ++ leBytes 1 d.thm.bandKB ++
    leBytes 1 (b2n d.thm.trip + 2 * b2n d.thm.warn + 4 * b2n (!d.thm.acts.isEmpty) + 8 * b2n guarded) ++
    (span 0 4).flatMap (fun m => leBytes 1 (d.tower m).band) ++
    leBytes 2 d.thm.req.toNat ++ leBytes 2 d.gclkCur ++ leBytes 2 d.suspects ++ leBytes 2 0 ++
    (span 0 5).flatMap (fun h => intBytes (d.hottest (horizonSensors h).1 (horizonSensors h).2)) ++
    (span 0 4).flatMap (fun m => intBytes (d.hottest (272 + 24 * m) 24)) ++ leBytes 6 0 ++
    (span 0 9).flatMap (fun g => leBytes 4 (tget d.thm.power g 0)) ++ leBytes 12 0

/-- THRM's operation (R334). -/
def Dev.startThrm (d : Dev) (o : Op) : Dev :=
  d.needBits o 0 (2 ^ 64 - 1) fun d => (d.writeBlock o 0 d.thermBlock).done o.thread o.slot

/-- THRM (R334, R542). -/
def execThrm (i : Issue) (d a b : BitVec 5) (s : State) : Outcome State Fault Refusal :=
  s.work fun x => x.devIssue i 0x16 d a b (fun _ => 0) (fun _ _ _ _ => { rights := true, block := some (96, true) })
    Dev.startThrm

/-! ## MTRD -/

/-- Form of MTRD, gA[8]: a signed readout (R299). -/
def mtrdForm (a : Word) : Bool := a.getLsbD 8

/-- What MTRD checks at DEV: form 1 is T0's (R283, R299). -/
def mtrdCheck (n : Nat) (a : Word) : DevCheck :=
  if mtrdForm a then { rights := decide (n = 0) && mayName n (partOf a) false, block := some (16864, true) }
  else { rights := mayName n (partOf a) false, block := some (1088, true) }

/-- The counts of partition p in a form 0 block (R583). -/
def Dev.countPair (d : Dev) (p : Nat) : List Byte :=
  leBytes 8 (tget d.mtr.dcyc p 0).toNat ++ leBytes 8 (tget d.mtr.plotms p 0).toNat

/-- The form 0 block for a thread: T0 gets every field, Tp the legal registers and its own counts (R334, R583). -/
def Dev.meterBlock (d : Dev) (n p : Nat) : List Byte :=
  leBytes 8 d.mtr.seconds.toNat ++ leBytes 8 d.mtr.energy.toNat ++ leBytes 8 d.mtr.optime.toNat ++
    leBytes 8 d.mtr.wrcount.toNat ++ leBytes 4 d.mtr.logseq.toNat ++ leBytes 2 d.mtr.flags.toNat ++ leBytes 2 0 ++
    leBytes 8 (if n = 0 then (d.mtr.rxTime.getD 0).toNat else 0) ++ leBytes 16 0 ++
    allParts.flatMap fun q => if n = 0 ∨ q = p then d.countPair q else leBytes 16 0

/-- Whole seconds between two event times, rounded down (R85). -/
def secondsFrom (t now : BitVec 56) : Nat := (now.toNat - t.toNat) / 250000000

/-- Detail of 0x0B01: seconds since the last valid frame, or a free value when there was none (R585; log 25). -/
def Dev.sinceFrame (d : Dev) : Nat :=
  match d.mtr.rxTime with
  | some t => secondsFrom t d.evt.time
  | none => d.freeField 0

/-- Seconds that remain of the 60 s after the last form 1 completed (R584). -/
def Dev.form1Left (d : Dev) : Nat :=
  match d.mtr.form1 with
  | some t => (t.toNat + 15000000000 - d.evt.time.toNat + 249999999) / 250000000
  | none => 0

/-- MTRD's operation: form 0 writes the values of the latest frame; form 1 waits for the next signed readout (R583, R584). -/
def Dev.startMtrd (d : Dev) (o : Op) : Dev :=
  d.needBits o 0x17F (2 ^ 64 - 1) fun d =>
    if mtrdForm o.a then
      (if d.form1Left ≠ 0 then d.fail o 0x0B03 d.form1Left else d)
    else if d.mtr.rxTime.isNone then d.fail o 0x0B01 d.sinceFrame
    else (d.writeBlock o 0 (d.meterBlock o.thread o.part)).done o.thread o.slot

/-- MTRD_REGISTERS: MTRD with gA[8] = 0 (R583). -/
def execMtrdRegisters (i : Issue) (d a b : BitVec 5) (s : State) : Outcome State Fault Refusal :=
  s.work fun x =>
    if bit (x.gA i a) 8 then x
    else x.devIssue i 0x17 d a b partOf (fun _ n va _ => mtrdCheck n va) Dev.startMtrd

/-- MTRD_SIGNED: MTRD with gA[8] = 1 (R584). -/
def execMtrdSigned (i : Issue) (d a b : BitVec 5) (s : State) : Outcome State Fault Refusal :=
  s.work fun x =>
    if bit (x.gA i a) 8 then x.devIssue i 0x17 d a b partOf (fun _ n va _ => mtrdCheck n va) Dev.startMtrd
    else x

/-- A form 1 of MTRD that waits. -/
def waitsReadout (o : Op) : Bool := decide (o.dop = 0x17) && mtrdForm o.a && decide (o.phase = .run)

/-- MTRD_TIMEOUT: no readout within 130 s (R584). The rate limit counts from this completion too. -/
def execMtrdTimeout (n slot : Nat) (s : State) : Outcome State Fault Refusal :=
  s.work fun x => match x.op n slot with
    | some o =>
      if waitsReadout o then
        ({ x with mtr := { x.mtr with form1 := some x.evt.time } }.fail o 0x0B01 x.sinceFrame).draw 1
      else x
    | none => x

/-! ## ICPG -/

/-- The first faulty field of a grant block (R298, R331). -/
def Dev.grantFault (d : Dev) (p : Nat) (l : List Byte) : Option Nat :=
  let en := field l 6 1
  let base := field l 8 8
  let len := field l 0x10 8
  firstFault [
    (decide (en = 1) && decide (8 ≤ field l 5 1 ∨ (d.part p).keyAt (field l 5 1) = 0), 5), (decide (1 < en), 6),
    (!zeros l 7 1, 7),
    (decide (en = 1) && (decide (base % 2048 ≠ 0) || decide (2 ^ 48 ≤ base) || !d.inAlloc p base (max len 1) false), 8),
    (decide (en = 1) && (decide (len = 0) || decide (len % 2048 ≠ 0)), 0x10), (!zeros l 0x18 8, 0x18)]

/-- The grant of a block (R240, R331). -/
def grantOf (l : List Byte) : Grant :=
  { first := field l 0 2, last := field l 2 2, ctxMask := BitVec.ofNat 8 (field l 4 1), keySlot := field l 5 1,
    base := field l 8 8, len := field l 0x10 8 }

/-- A drain of partition p's grant ends with a new grant, and the ICPG that revoked it ends early (R451, R298). -/
def Dev.regrant (d : Dev) (p : Nat) : Dev :=
  if d.noc.draining.contains (.icp p) then
    let d1 := { d with noc := { d.noc with draining := d.noc.draining.filter fun (f : DrainFn) => decide (f ≠ DrainFn.icp p) } }
    (d1.draw 1).completeAll (d1.ops.filter (isRevoke p)) 0x0917 (d1.freeField 0)
  else d

/-- ICPG's operation: EN = 1 installs or replaces the grant; EN = 0 revokes it when its requests have drained (R240, R331). -/
def Dev.startIcpg (d : Dev) (o : Op) : Dev :=
  d.needFeat o 7 fun d => d.needBits o 0x7F (2 ^ 64 - 1) fun d => d.readBlock o 32 fun d =>
    let l := d.block o 32
    let p := o.part
    if (d.part p).state = .none ∨ (d.part p).state = .draining then d.refuseOp o 1
    else match d.grantFault p l with
      | some f => d.fail o 0x0913 f
      | none =>
        if field l 6 1 = 1 then
          let d0 := { d with ops := d.ops.filter fun x => !(decide (x.thread = o.thread) && decide (x.slot = o.slot)) }
          (((d0.regrant p).updPart p fun q =>
            { q with grant := some (grantOf l), grantDrain := false, icpFrames := 0 }).done o.thread o.slot)
        else if (d.part p).grant.isNone then d.done o.thread o.slot
        else
          let d1 := d.updPart p fun q => { q with grantDrain := true }
          if d1.noc.draining.contains (.icp p) then d1
          else { d1 with noc := { d1.noc with draining := d1.noc.draining ++ [.icp p] } }

/-- EN of the grant block that an ICPG of this issue names. -/
def Dev.grantEn (d : Dev) (i : Issue) (b : BitVec 5) : Nat :=
  leNat (d.memRead 0 (seqAddr (((d.thr i.thread).reg b).toNat + 6)) 1)

/-- ICPG_GRANT: ICPG whose EN is not 0 (R331). -/
def execIcpgGrant (i : Issue) (d a b : BitVec 5) (s : State) : Outcome State Fault Refusal :=
  s.work fun x =>
    if x.grantEn i b = 0 then x
    else x.devIssue i 0x18 d a b partOf
      (fun _ n va _ => { rights := decide (n = 0) && mayName n (partOf va) false, block := some (32, false) }) Dev.startIcpg

/-- ICPG_REVOKE: ICPG with EN = 0 (R240, R331). -/
def execIcpgRevoke (i : Issue) (d a b : BitVec 5) (s : State) : Outcome State Fault Refusal :=
  s.work fun x =>
    if x.grantEn i b = 0 then
      x.devIssue i 0x18 d a b partOf
        (fun _ n va _ => { rights := decide (n = 0) && mayName n (partOf va) false, block := some (32, false) }) Dev.startIcpg
    else x

/-! ## PART -/

/-- Operation of PART, gA[10:8] (R299). -/
def partForm (a : Nat) : Nat := bits a 8 3

/-- What PART checks at DEV: T0 alone, and its partition block, in which the bases are written (R283, R296, R330). -/
def partCheck (n : Nat) (a : Word) : DevCheck :=
  { rights := decide (n = 0) && mayName n (partOf a) false,
    block := if partForm a.toNat = 1 ∨ partForm a.toNat = 2 then some (48, true) else none }

/-- A selected attribute: bit of CHANGE (R330). -/
structure PartArgs where
  /-- the attributes that the operation sets: CHANGE, or all of them for create -/
  sel : Nat
  /-- PLOTS -/
  plots : Nat
  /-- CTX -/
  ctx : Nat
  /-- FLAGS -/
  flags : Nat
  /-- KEYIDS -/
  keys : List Nat
  /-- MARL -/
  marl : Nat
  /-- DDR5 -/
  ddr : Nat
  /-- BANKS -/
  banks : Nat
  deriving DecidableEq, Repr

/-- The partition block (R330). -/
def partArgs (l : List Byte) (create : Bool) : PartArgs :=
  { sel := if create then 0x1FF else field l 4 2, plots := field l 0 2, ctx := field l 2 1, flags := field l 3 1,
    keys := (span 0 8).map fun i => field l (8 + i) 1, marl := field l 0x10 2, ddr := field l 0x12 2,
    banks := field l 0x14 4 }

/-- The partition is in a state in which the selected attributes may change (R221). -/
def Part.mayChange (q : Part) (sel : Nat) : Bool :=
  let blank := decide (q.state = .blank)
  (decide (sel &&& 0x5F = 0) || (blank && q.placement.isNone)) && (!bit sel 5 || blank) &&
    (!bit sel 8 || decide (q.state ≠ .running))

/-- The first faulty field of a partition block (R298, R330). -/
def partFault (l : List Byte) (x : PartArgs) (create : Bool) : Option Nat :=
  firstFault [
    (bit x.sel 0 && decide (x.plots = 0 ∨ 480 < x.plots), 0), (bit x.sel 1 && decide (3 < x.ctx), 2),
    (decide (7 < x.flags), 3), (!create && decide (0x1FF < x.sel), 4), (!zeros l 6 2, 6),
    (bit x.sel 2 && x.keys.any (fun k => decide (63 < k)), 8), (bit x.sel 3 && decide (720 < x.marl), 0x10),
    (bit x.sel 5 && decide (2 ^ 18 ≤ x.banks), 0x14), (!zeros l 0x28 8, 0x28)]

/-- A KeyID of the set that cannot be given: its detail (R298, R330). -/
def Dev.keyFault (d : Dev) (p : Nat) (keys : List Nat) : Option Nat :=
  (keys.filter (· ≠ 0)).findSome? fun k =>
    if (d.keyid k).state ≠ .active then some (2 ^ 24 + k)
    else if d.keyOwner k ≠ 0 ∧ d.keyOwner k ≠ p then some (2 * 2 ^ 24 + k)
    else none

/-- Bank b is owned by another partition (R221). -/
def Dev.bankTaken (d : Dev) (p b : Nat) : Bool :=
  allParts.any fun q => decide (q ≠ p) && decide ((d.part q).state ≠ .none) && (d.part q).banks.getLsbD b

/-- A die that gives no allocation: mapped out, or named by a KIND 6 entry (R343, R561). -/
def Dev.dieBarred (d : Dev) (m die : Nat) : Bool :=
  (d.tower m).diesOut.getLsbD die ||
    d.repairs.any fun e => decide (repairKind e.2 = 6) && decide (bits e.2 26 2 = m) && decide (bits e.2 22 4 = die)

/-- End of what a tower gives to partitions: below the trace storage (R343, R507). -/
def Dev.towerTop (d : Dev) (m : Nat) : Nat :=
  (if m = 3 then stagingBase else marlBase + (m + 1) * towerSize) - d.traceGib * 2 ^ 30

/-- A marl range of `n` units of 64 MiB from unit `u` of tower m may be given to partition p (R343, R561). -/
def Dev.marlFree (d : Dev) (p m u n : Nat) : Bool :=
  let a := marlBase + m * towerSize + u * 2 ^ 26
  let k := n * 2 ^ 26
  decide (48 ≤ u) && decide (a + k ≤ d.towerTop m) &&
  (match (d.tower m).state with | .off | .failed => false | _ => !d.dieBarred m 0) &&
  (span (u / 64) ((u + n - 1) / 64 - u / 64 + 1)).all (fun i => !d.dieBarred m i) &&
  allParts.all fun q => decide (q = p) || match (d.part q).marl with
    | some x => !meets a k x.1 x.2
    | none => true

/-- Bases at which a marl allocation of `n` units may lie. -/
def Dev.marlPlaces (d : Dev) (p n : Nat) : List Nat :=
  (span 0 4).flatMap fun m => ((span 48 720).filter fun u => d.marlFree p m u n).map fun u =>
    marlBase + m * towerSize + u * 2 ^ 26

/-- A DDR5 range of `n` units of 64 MiB from unit `u` may be given to partition p: in mapped ACTIVE channels (R221, R351). -/
def Dev.ddrFree (d : Dev) (p u n : Nat) : Bool :=
  ((span u n).all fun g => (span 0 8).any fun c =>
    let h := d.chan c
    h.mapped && decide (h.state = .active) && decide (h.base ≤ g) && decide (g < h.base + h.user)) &&
  allParts.all fun q => decide (q = p) || match (d.part q).ddr with
    | some x => !meets (u * 2 ^ 26) (n * 2 ^ 26) x.1 x.2
    | none => true

/-- Units of DDR5 that are mapped. -/
def Dev.ddrUnits (d : Dev) : Nat :=
  ((span 0 8).map fun c => if (d.chan c).mapped then (d.chan c).base + (d.chan c).user else 0).foldl max 0

/-- Bases at which a DDR5 allocation of `n` units may lie. -/
def Dev.ddrPlaces (d : Dev) (p n : Nat) : List Nat :=
  ((span 0 d.ddrUnits).filter fun u => d.ddrFree p u n).map (· * 2 ^ 26)

/-- One of a list of bases: which one, the spec does not say (R330; log 13). -/
def Dev.pickBase (d : Dev) (l : List Nat) (i : Nat) : Nat := l.getD ((Config.freeWord (d.free + i)).toNat % max 1 l.length) 0

/-- An allocation of `n` units out of its candidate bases; none of 0 units (R330). -/
def Dev.pickAlloc (d : Dev) (l : List Nat) (n i : Nat) : Option (Nat × Nat) :=
  if n = 0 then none else some (d.pickBase l i, n * 2 ^ 26)

/-- The first resource that cannot be given: code and detail (R298, R330). -/
def Dev.partShort (d : Dev) (p : Nat) (x : PartArgs) : Option (Nat × Nat) :=
  if bit x.sel 6 ∧ bit x.flags 0 ∧ !d.feat 12 then some (0x0910, 12)
  else match if bit x.sel 2 then d.keyFault p x.keys else none with
    | some k => some (0x0914, k)
    | none =>
      if bit x.sel 3 ∧ x.marl ≠ 0 ∧ (d.marlPlaces p x.marl).isEmpty then some (0x0914, 5 * 2 ^ 24 + x.marl)
      else if bit x.sel 4 ∧ x.ddr ≠ 0 ∧ (d.ddrPlaces p x.ddr).isEmpty then some (0x0914, 6 * 2 ^ 24 + x.ddr)
      else match if bit x.sel 5 then (span 0 18).find? fun b => bit x.banks b && d.bankTaken p b else none with
        | some b => some (0x0914, 7 * 2 ^ 24 + b)
        | none => none

/-- Rights entry 2 + p after a KeyID set: the set plus KeyID 0, in both masks (R416). -/
def Dev.setRights (d : Dev) (p : Nat) (keys : List Nat) : Dev :=
  let m : BitVec 64 := keys.foldl (fun acc k => acc ||| (1#64 <<< k)) 1
  { d with ime := { d.ime with rightsRd := tset d.ime.rightsRd (2 + p) m, rightsWr := tset d.ime.rightsWr (2 + p) m } }

/-- Pins of banks that a partition no longer owns: high-impedance with a weak pull-down (R222). -/
def Dev.freePins (d : Dev) (old new : BitVec 18) : Dev :=
  ((span 0 18).filter fun b => old.getLsbD b && !new.getLsbD b).foldl (fun e b =>
    forAll (span (48 * b) 48) e fun f pin => { f with pins := tdel f.pins pin }) d

/-- The selected attributes are set (R221, R224, R236, R416): a changed plot or context count discards both heads; a gained bank
leaves the pin table unknown. -/
def Dev.setPart (d : Dev) (p : Nat) (x : PartArgs) : Dev :=
  let old := d.part p
  let heads := bit x.sel 0 || bit x.sel 1
  let banks := if bit x.sel 5 then BitVec.ofNat 18 x.banks else old.banks
  let gained := decide (banks &&& ~~~old.banks ≠ 0)
  let d1 := d.updPart p fun q =>
    { q with
      plots := if bit x.sel 0 then x.plots else q.plots, ctx := if bit x.sel 1 then x.ctx else q.ctx,
      keys := if bit x.sel 2 then x.keys else q.keys,
      marl := if bit x.sel 3 then d.pickAlloc (d.marlPlaces p x.marl) x.marl 0 else q.marl,
      ddr := if bit x.sel 4 then d.pickAlloc (d.ddrPlaces p x.ddr) x.ddr 1 else q.ddr,
      banks := banks, reqSig := if bit x.sel 6 then bit x.flags 0 else q.reqSig,
      startGrp := if bit x.sel 7 then bit x.flags 1 else q.startGrp,
      exempt := if bit x.sel 8 then bit x.flags 2 else q.exempt,
      headFull := if heads then none else q.headFull, headPart := if heads then none else q.headPart,
      pinsKnown := q.pinsKnown && !heads && !gained }
  let d2 := if bit x.sel 2 then d1.setRights p x.keys else d1
  let d3 := d2.freePins old.banks banks
  if heads ∨ gained then d3.pinsSafe p else d3

/-- MARL_BASE and DDR5_BASE are written into the block; without an allocation the value is free (R330; log 27). -/
def Dev.writeBases (d : Dev) (o : Op) : Dev :=
  let q := d.part o.part
  let f := fun (x : Option (Nat × Nat)) (i : Nat) => match x with
    | some y => y.1
    | none => (Config.freeWord (d.free + i)).toNat
  d.writeBlock o 0x18 (leBytes 8 (f q.marl 2) ++ leBytes 8 (f q.ddr 3))

/-- PART create and change (R329, R330). -/
def Dev.createOrChange (d : Dev) (o : Op) (create : Bool) : Dev :=
  let p := o.part
  let q := d.part p
  let l := d.block o 48
  let x := partArgs l create
  if create ∧ q.state ≠ .none then d.refuseOp o 1
  else if !create ∧ (q.state = .none ∨ !q.mayChange x.sel) then d.refuseOp o 1
  else match partFault l x create with
    | some f => d.fail o 0x0913 f
    | none =>
      if bit x.sel 8 ∧ bit x.flags 2 ∧ q.cut then d.refuseOp o 1
      else match d.partShort p x with
        | some (c, v) => d.fail o c v
        | none =>
          let d1 := if create then d.updPart p fun q =>
              { q with state := .blank, autoRw := false, gen := 0, patrol := false, damaged := [], cleanCycle := 0 }
            else d
          (((d1.setPart p x).writeBases o).draw 4).done o.thread o.slot

/-- PART release (R226, R329): the partition drains; its outstanding operations end with 0x0917. A DMA under way is the channel's to
drain (R452). -/
def Dev.releasePart (d : Dev) (o : Op) : Dev :=
  let p := o.part
  let q := d.part p
  let ok := match q.state with
    | .blank | .placed | .frozen => true
    | .halted => !q.sealHalted
    | _ => false
  if !ok then d.refuseOp o 1
  else
    let l := d.ops.filter fun x => decide (x.part = p) && decide (x.dop ≠ 0x0E) &&
      !(decide (x.thread = o.thread) && decide (x.slot = o.slot))
    (d.endOps l 0x0917 (d.cycleLow p)).startPartDrain p 2

/-- PART delete (R223, R416): the partition is NONE; its banks are free, its rights cleared, its VF queue empty (R50). -/
def Dev.deletePart (d : Dev) (o : Op) : Dev :=
  let p := o.part
  let q := d.part p
  if q.state ≠ .blank ∨ q.placement.isSome then d.refuseOp o 1
  else
    let d1 := (d.freePins q.banks 0).updPart p fun q =>
      { q with state := .none, plots := 0, ctx := 0, keys := [], marl := none, ddr := none, banks := 0, reqSig := false,
               startGrp := false, exempt := false, headFull := none, headPart := none, pinsKnown := false, safe := false,
               imageKey := none, hashes := none, autoRw := false }
    let d2 := { d1 with
      ime := { d1.ime with rightsRd := tset d1.ime.rightsRd (2 + p) 0, rightsWr := tset d1.ime.rightsWr (2 + p) 0 },
      evt := { d1.evt with vf := tset d1.evt.vf p {} } }
    d2.done o.thread o.slot

/-- PART's operation (R329). -/
def Dev.startPartOp (d : Dev) (o : Op) : Dev :=
  d.needLock o fun d =>
    let k := partForm o.a.toNat
    d.needBits o 0x77F (if k = 1 ∨ k = 2 then 2 ^ 64 - 1 else 0) fun d =>
      match k with
      | 1 => d.readBlock o 48 fun d => d.createOrChange o true
      | 2 => d.readBlock o 48 fun d => d.createOrChange o false
      | 3 => d.releasePart o
      | 4 => d.deletePart o
      | _ => d.fail o 0x0913 badA

/-- A PART DEV of one of the four rows: operation `k`, or no operation of the table. -/
def Dev.partRow (x : Dev) (i : Issue) (d a b : BitVec 5) (k : Nat) : Dev :=
  let u := partForm (x.gA i a)
  if u ≠ k ∧ 1 ≤ u ∧ u ≤ 4 then x
  else x.devIssue i 0x19 d a b partOf (fun _ n va _ => partCheck n va) Dev.startPartOp

/-- PART_CREATE (R329). -/
def execPartCreate (i : Issue) (d a b : BitVec 5) (s : State) : Outcome State Fault Refusal :=
  s.work fun x => x.partRow i d a b 1

/-- PART_CHANGE (R221). -/
def execPartChange (i : Issue) (d a b : BitVec 5) (s : State) : Outcome State Fault Refusal :=
  s.work fun x => x.partRow i d a b 2

/-- PART_RELEASE (R223). -/
def execPartRelease (i : Issue) (d a b : BitVec 5) (s : State) : Outcome State Fault Refusal :=
  s.work fun x => x.partRow i d a b 3

/-- PART_DELETE (R223). -/
def execPartDelete (i : Issue) (d a b : BitVec 5) (s : State) : Outcome State Fault Refusal :=
  s.work fun x => x.partRow i d a b 4

end Sys2Proof.Machine
end

