-- ==== Sys2Proof/Machine/Firmware.lean ====
section
/-! DEFINITION. The firmware container: its layout (R59 to R61), its checks in order (R63), and where its sections go (R55,
R61, R291). Boot and the live swap share it. -/
namespace Sys2Proof.Machine
open Host

/-- A section entry of the manifest (R60). -/
structure FwSec where
  /-- TYPE -/
  type : Nat
  /-- TARGET -/
  target : Nat
  /-- OFFSET -/
  off : Nat
  /-- LENGTH -/
  len : Nat
  /-- DIGEST -/
  digest : Nat
  /-- offset of the entry in the container -/
  at_ : Nat
  deriving DecidableEq, Repr

/-- Length of a container (R59). -/
def fwLen (img : List Byte) : Nat := field img 8 4
/-- SVN of a container (R59). -/
def fwSvn (img : List Byte) : Nat := field img 0xC 2
/-- FW_VERSION of a container (R59). -/
def fwVersion (img : List Byte) : BitVec 32 := BitVec.ofNat 32 (field img 0x10 4)
/-- Manifest offset (R59). -/
def fwManOff (img : List Byte) : Nat := field img 0x14 4
/-- Manifest length (R59). -/
def fwManLen (img : List Byte) : Nat := field img 0x18 4
/-- SEQ_ENTRY of the manifest (R60). -/
def fwEntry (img : List Byte) : Nat := field img (fwManOff img + 8) 4

/-- The manifest, the signatures and the keys: header field, start and length (R59). -/
def fwAreas (img : List Byte) : List (Nat × Nat × Nat) :=
  [(0x14, fwManOff img, fwManLen img), (0x1C, field img 0x1C 4, 384), (0x20, field img 0x20 4, 16224),
   (0x24, field img 0x24 4, 388), (0x28, field img 0x28 4, 48)]

/-- Section entries of the manifest: COUNT of them, as far as MAN_LEN reaches (R60). -/
def fwSecs (img : List Byte) : List FwSec :=
  let m := fwManOff img
  (span 0 (min (field img (m + 6) 2) ((fwManLen img - 16) / 64))).map fun i =>
    let e := m + 16 + 64 * i
    { type := field img e 2, target := field img (e + 4) 4, off := field img (e + 8) 4, len := field img (e + 12) 4,
      digest := field img (e + 16) 48, at_ := e }

/-- The signed message: the header and the manifest (R62). -/
def fwMessage (img : List Byte) : List Byte := img.take 256 ++ (img.drop (fwManOff img)).take (fwManLen img)

/-- Data of a section. -/
def FwSec.data (img : List Byte) (x : FwSec) : List Byte := (img.drop x.off).take x.len

/-- The first fault of the layout, as a container offset (R63 check 1): the header field, or the OFFSET field of a section
that overlaps or leaves the container. -/
def fwLayoutFault (img : List Byte) (length : Nat) : Option Nat :=
  let n := fwLen img
  let areas := fwAreas img
  let secs := fwSecs img
  let head := firstFault (
    [(decide (field img 0 4 ≠ 0x57465A56), 0), (decide (field img 4 2 ≠ 1), 4), (decide (field img 6 2 ≠ 256), 6),
     (decide (8388608 < n) || decide (n ≠ length) || decide (n < 256), 8), (decide (64 < fwSvn img), 0xC),
     (decide (field img 0xE 2 ≠ 0), 0xE), (decide (fwManOff img % 8 ≠ 0), 0x14)] ++
    areas.map (fun (x : Nat × Nat × Nat) => (decide (n < x.2.1 + x.2.2), x.1)) ++
    (span 0x2C 212).map (fun i => (!zeros img i 1, i)))
  match head with
  | some o => some o
  | none => firstFault ((span 0 secs.length).zip secs |>.map fun (x : Nat × FwSec) =>
      let y := x.2
      (decide (n < y.off + y.len) || meets y.off y.len 0 256 ||
        areas.any (fun (z : Nat × Nat × Nat) => meets y.off y.len z.2.1 z.2.2) ||
        (secs.take x.1).any (fun (z : FwSec) => meets y.off y.len z.off z.len), y.at_ + 8))

/-- The first fault of the manifest and the sections, as a container offset (R63 check 5). -/
def fwManifestFault (img : List Byte) : Option Nat :=
  let m := fwManOff img
  let secs := fwSecs img
  let count := field img (m + 6) 2
  let twice (i : Nat) (x : FwSec) : Bool :=
    (decide (x.type = 1) || decide (x.type = 2)) && (secs.take i).any fun (z : FwSec) => decide (z.type = x.type)
  firstFault (
    [(decide (fwManLen img < 16), 0x18), (decide (field img m 4 ≠ 0x3208), m),
     (decide (field img (m + 4) 2 ≠ fwSvn img), m + 4), (decide (count = 0) || decide (16 < count), m + 6),
     (decide (fwManLen img < 16 + 64 * count), 0x18), (!zeros img (m + 12) 4, m + 12)] ++
    (((span 0 secs.length).zip secs).map fun (x : Nat × FwSec) =>
      [(decide (x.2.type = 0) || decide (5 < x.2.type) || twice x.1 x.2, x.2.at_),
       (!zeros img (x.2.at_ + 2) 2, x.2.at_ + 2),
       (decide (x.2.type = 2) && decide (0x400000 < x.2.target + x.2.len), x.2.at_ + 4)]).flatten ++
    [(!secs.any (fun (x : FwSec) => decide (x.type = 1)) || !secs.any (fun (x : FwSec) => decide (x.type = 2)), m + 6),
     (decide (fwEntry img % 4 ≠ 0) || !secs.any (fun (x : FwSec) =>
        decide (x.type = 2) && decide (x.target ≤ fwEntry img) && decide (fwEntry img < x.target + x.len)), m + 8)] ++
    secs.map (fun (x : FwSec) => (decide (Config.sha384 (x.data img) ≠ BitVec.ofNat 384 x.digest), x.at_ + 16)))

/-- The checks of R63 in order: the code and detail of the first that fails (R63, R90). -/
def Fuses.checkFirmware (f : Fuses) (img : List Byte) (length : Nat) : Option (Nat × Nat) :=
  let rsa := (img.drop (field img 0x24 4)).take 388
  let slh := (img.drop (field img 0x28 4)).take 48
  match fwLayoutFault img length with
  | some o => some (0x0A04, o)
  | none =>
    if Config.sha384 rsa ≠ f.rsaKeyHash then some (0x0A07, 1)
    else if Config.sha384 slh ≠ f.slhKeyHash then some (0x0A07, 2)
    else if !Config.rsaVerify rsa (fwMessage img) ((img.drop (field img 0x1C 4)).take 384) then some (0x0A05, 0)
    else if !Config.slhVerify slh (fwMessage img) ((img.drop (field img 0x20 4)).take 16224) then some (0x0A06, 0)
    else match fwManifestFault img with
      | some o => some (0x0A04, o)
      | none => if fwSvn img < f.svnFused then some (0x0A08, fwSvn img * 2 ^ 16 + f.svnFused) else none

/-- Digests of the sections of a type (R291). -/
def fwDigests (img : List Byte) (ty : Nat) : List (BitVec 384) :=
  ((fwSecs img).filter fun (x : FwSec) => decide (x.type = ty)).map fun (x : FwSec) => BitVec.ofNat 384 x.digest

/-- A section is written to the unit of its type at TARGET (R61). -/
def Dev.writeSection (d : Dev) (img : List Byte) (x : FwSec) : Dev :=
  let l := x.data img
  let b := d.boot
  match x.type with
  | 1 => { d with boot := { b with rootCode := csetBytes b.rootCode x.target l } }
  | 2 => d.memWrite 0 (seqAddr x.target) l
  | 3 => { d with boot := { b with placerCode := csetBytes b.placerCode x.target l } }
  | 4 => { d with boot := { b with thermParams := csetBytes b.thermParams x.target l }, thm := { d.thm with builtin := false } }
  | _ => { d with boot := { b with phyCode := csetBytes b.phyCode x.target l } }

/-- The sections of the named types are written (R55 step 6a, R291 step 5). -/
def Dev.writeSections (d : Dev) (img : List Byte) (types : List Nat) : Dev :=
  ((fwSecs img).filter fun (x : FwSec) => types.contains x.type).foldl (fun e x => e.writeSection img x) d

/-- The image becomes the running one: its FW_VERSION, SVN and digest are reported (R55, R66, R291 step 5). -/
def Dev.runImage (d : Dev) (img : List Byte) : Dev :=
  { d with boot := { d.boot with
    fwVersion := fwVersion img, svnImage := fwSvn img, imageDigest := Config.sha384 (fwMessage img),
    digest1 := (fwDigests img 1).headD 0, digest5 := fwDigests img 5 } }

end Sys2Proof.Machine
end

