-- ==== Sys2Proof/Machine/HotSwap.lean ====
section
/-! DEFINITION. Live firmware swap: HOTSW and the steps of R291 (R290 to R293, R332). -/
namespace Sys2Proof.Machine
open Host

/-- A swap is refused or abandoned: 0x090D with its cause, SEQ_HOTSW, and the ticket (R289, R293, R332). -/
def Dev.swapFail (d : Dev) (n slot cause code detail : Nat) : Dev :=
  let d1 := d.post 0x090D cause
  ({ d1 with seq := { d1.seq with hotCode := 0x090D, hotCause := BitVec.ofNat 8 cause } }).complete n slot code detail

/-- HOTSW's operation (R290): accepted only with no swap in progress and no other slot of T0 occupied. -/
def Dev.startHotsw (d : Dev) (o : Op) : Dev :=
  d.needBits o 0 (2 ^ 64 - 1) fun d =>
    if !d.boot.locked then d.swapFail o.thread o.slot 5 0x0910 0xFFFFFFFF
    else if !d.feat 9 then d.swapFail o.thread o.slot 5 0x0910 9
    else if d.seq.swap ≠ 0 then d.swapFail o.thread o.slot 6 0x090D 6
    else if (d.thr 0).busySlots.any (fun s => decide (s ≠ o.slot)) then d.swapFail o.thread o.slot 3 0x090D 3
    else { d with seq := { d.seq with swap := 1, swapSlot := o.slot, swapAddr := o.b } }

/-- HOTSW (R290, R291 step 1). -/
def execHotsw (i : Issue) (d a b : BitVec 5) (s : State) : Outcome State Fault Refusal :=
  s.work fun x => x.devIssue i 0x1A d a b (fun _ => 0)
    (fun e n _ vb => { rights := decide (n = 0), addr := e.startAddrOk n vb false }) Dev.startHotsw

/-- The swap in progress fails: it is idle again, and its ticket completes (R291, R332). -/
def Dev.swapEnd (d : Dev) (cause code detail : Nat) : Dev :=
  ({ d with seq := { d.seq with swap := 0 } }).swapFail 0 d.seq.swapSlot cause code detail

/-- A thread at an instruction boundary is suspended; a WAITT or FENCE is abandoned, to be executed again (R258, R291 step
2). A thread in LDS or STS is suspended when the access completes; one that is stopped stays as it is (R259). -/
def Thread.suspend (t : Thread) : Thread :=
  match t.state, t.wait with
  | .run, _ => { t with state := .suspended, suspFrom := .run }
  | .wait, some (.waitt ..) => { t with state := .suspended, suspFrom := .run, wait := none }
  | .wait, some (.fence ..) => { t with state := .suspended, suspFrom := .run, wait := none }
  | _, _ => t

/-- Every thread that has reached an instruction boundary is suspended. -/
def Dev.suspendAll (d : Dev) : Dev := forAll allThreads d fun e n => e.updThr n Thread.suspend

/-- The staged copy of a container: `n` bytes of the staging area (R290). -/
def Dev.staged (d : Dev) (n : Nat) : List Byte := d.memRead 0 stagingBase n

/-- Step 1 of a swap: the container is copied into the staging area, the checks run on the copy, and the root core and PHY
sections are compared (R291). -/
def Dev.swapChecks (d : Dev) (f : Fuses) (rd : ReadOutcome) : Dev :=
  let k := kidOf d.seq.swapAddr
  let a := addrOf d.seq.swapAddr
  let n := min 0x800000 (max 256 (leNat (d.memRead k (a + 8) 4)))
  if !d.mayAccess 0 d.seq.swapAddr n true ∨ marlEnd < a + n then d.swapEnd 1 0x0913 badRange
  else d.readFor [(k, a, n)] rd 0 (fun e _ => e.swapEnd 1 0x090D 1) fun x =>
    let e := (x.memWrite 0 stagingBase (x.memRead k a n)).draw n
    let img := e.staged n
    match f.checkFirmware img (fwLen img) with
    | some (c, detail) => (e.post c detail).swapEnd 1 c detail
    | none =>
      if fwDigests img 1 ≠ [e.boot.digest1] ∨ fwDigests img 5 ≠ e.boot.digest5 then e.swapEnd 2 0x090D 2
      else
        let e1 := forAll allThreads { e with seq := { e.seq with swap := 2 } } fun g t =>
          if (g.thr t).state = .suspended then g.updThr t fun x => { x with suspFrom := .suspended } else g
        e1.suspendAll

/-- HOTSW_CHECKS_DONE (R291 steps 1 and 2). -/
def execHotswChecksDone (rd : ReadOutcome) (s : State) : Outcome State Fault Refusal :=
  s.work fun x => if x.seq.swap = 1 then x.swapChecks s.fuse rd else x

/-- A thread waits for a system access. -/
def Thread.inAccess (t : Thread) : Bool :=
  match t.state, t.wait with
  | .wait, some (.lds ..) => true
  | .wait, some (.sts ..) => true
  | _, _ => false

/-- HOTSW_THREADS_SUSPENDED: no thread runs and no search is running; holds are requested (R291 step 3). -/
def execHotswThreadsSuspended (s : State) : Outcome State Fault Refusal :=
  s.work fun x =>
    if x.seq.swap = 2 ∧ x.plc.search.isNone ∧ allThreads.all (fun n => !(x.thr n).inAccess) then
      let y := x.suspendAll
      { y with seq := { y.seq with swap := 3 } }
    else x

/-- Every RUNNING partition is in its hold (R291 step 3). -/
def Dev.allHeld (d : Dev) : Bool :=
  allParts.all fun p => decide ((d.part p).state ≠ .running) || (d.part p).eng.held

/-- The holds of a swap are released (R291 steps 4 and 6). -/
def Dev.releaseHolds (d : Dev) : Dev :=
  forAll allParts d fun e p => if (e.part p).eng.held then e.updEng p fun g => { g with held := false } else e

/-- A swap in steps 1 to 4 is abandoned: holds released, each thread back in the state it was suspended from, cause 4, and the
waiting searches begin (R291 step 4, R292). -/
def Dev.swapAbandon (d : Dev) : Dev :=
  let d1 := forAll allThreads d.releaseHolds fun e n =>
    if 2 ≤ d.seq.swap.toNat ∧ (e.thr n).state = .suspended then e.updThr n fun t => { t with state := t.suspFrom } else e
  let d2 := (d1.swapEnd 4 0x090D 4).deliver
  d2.nextSearch (d2.ops.length + 1)

/-- HOTSW_HOLD_TIMEOUT (R291 step 4). -/
def execHotswHoldTimeout (s : State) : Outcome State Fault Refusal :=
  s.work fun x => if x.seq.swap = 3 ∧ !x.allHeld then x.swapAbandon else x

/-- HOTSW_ALL_HELD: the sections are written from the staged copy; sequencer memory outside them keeps its content (R291 step
5). -/
def execHotswAllHeld (s : State) : Outcome State Fault Refusal :=
  s.work fun x =>
    if x.seq.swap = 3 ∧ x.allHeld then
      let y := { x with seq := { x.seq with swap := 4 } }
      y.writeSections (y.staged 0x800000) [2, 3, 4]
    else x

/-- HOTSW_SECTIONS_WRITTEN: the new version is reported, holds are released, and T0 runs at the new entry with g1 = 1 and g2 the
old FW_VERSION (R291 steps 5 and 6, R292). -/
def execHotswSectionsWritten (s : State) : Outcome State Fault Refusal :=
  s.work fun x =>
    if x.seq.swap = 4 then
      let img := x.staged 0x800000
      let old := x.boot.fwVersion
      let d1 := (x.runImage img).releaseHolds
      let slot := d1.seq.swapSlot
      let d2 := { d1 with
        seq := { d1.seq with swap := 0, trapMode := false, tvec := 0, hotCode := 0 },
        ops := d1.ops.filter fun (o : Op) => !(decide (o.thread = 0) && decide (o.slot = slot)) }
      let d3 := d2.updThr 0 fun t =>
        { ((t.freeOne slot).setReg 1 1).setReg 2 (old.setWidth 64) with
          state := .run, wait := none, pc := BitVec.ofNat 64 (fwEntry img) }
      let d4 := d3.post 0x090B d3.boot.fwVersion.toNat
      d4.nextSearch (d4.ops.length + 1)
    else x

end Sys2Proof.Machine
end

