-- ==== Sys2Proof/Machine/Dram.lean ====
section
/-! DEFINITION. Marl and DDR5 upkeep: retraining pauses (R358), refresh (R355, R357), and the leak of the error buckets (R379).
Units 0 to 3 are the towers, 4 to 11 the DDR5 channels. -/
namespace Sys2Proof.Machine
open Host

/-- Ring stop of a unit (R436). -/
def unitStop (u : Nat) : Nat := if u < 4 then towerStop u else chanStop (u - 4)

/-- A unit is ACTIVE and out of self-refresh (R357 to R359). -/
def Dev.unitActive (d : Dev) (u : Nat) : Bool :=
  !d.mem.selfRefresh && decide (u < 12) &&
    decide ((if u < 4 then (d.tower u).state else (d.chan (u - 4)).state) = .active)

/-- A unit's pause flags set (R358). -/
def Dev.setPause (d : Dev) (u : Nat) (pause cut : Bool) : Dev :=
  if u < 4 then d.updTower u fun x => { x with pause := pause, cutTrain := cut }
  else d.updChan (u - 4) fun x => { x with pause := pause, cutTrain := cut }

/-- A unit is in a retraining pause (R358). -/
def Dev.inPause (d : Dev) (u : Nat) : Bool := if u < 4 then (d.tower u).pause else (d.chan (u - 4)).pause

/-- A pause of `ns` has ended: MAX_NS keeps the longest (R385). -/
def Dev.pauseLength (d : Dev) (ns : Nat) : Dev :=
  { d with mem := { d.mem with maxNs := BitVec.ofNat 16 (max d.mem.maxNs.toNat ns) } }

/-- A unit's pause ends with its training complete, in a time the spec bounds and does not give (R358; log 32). -/
def Dev.endPause (d : Dev) (u : Nat) : Dev :=
  if d.inPause u then
    ((d.setPause u false false).pauseLength ((Config.freeWord d.free).toNat % 1501)).draw 1
  else d

/-- RETRAIN_PAUSE: a unit that is ACTIVE holds its requests; no two pauses overlap, so an earlier one has ended (R358). -/
def execRetrainPause (u : Nat) (s : State) : Outcome State Fault Refusal :=
  s.work fun x => if x.unitActive u then (forAll (span 0 12) x Dev.endPause).setPause u true false else x

/-- RETRAIN_PAUSE_CUT: the pause ends at 1.5 µs with event 0x0342, its training left for the next one (R358). -/
def execRetrainPauseCut (u : Nat) (s : State) : Outcome State Fault Refusal :=
  s.work fun x =>
    if u < 12 ∧ x.inPause u then ((x.setPause u false true).pauseLength 1500).postSrc 0x0342 u 0 (unitStop u) else x

/-- DRAM_REFRESH_TICK: a refresh command of a unit is issued (R357). The neighbour refreshes that its activates caused since the
last one follow a hardware random source, so their number is free (R355; log 32). -/
def execDramRefreshTick (u : Nat) (s : State) : Outcome State Fault Refusal :=
  s.work fun x =>
    if x.unitActive u then
      let y := { x with mem := { x.mem with refreshes := tupd x.mem.refreshes u 0 (· + 1) } }
      if u < 4 then (y.updTower u fun t => { t with nref := satAdd t.nref (Config.freeWord x.free).toNat }).draw 1 else y
    else x

/-- A bucket after a leak interval: its level falls by one, LATCH clears at CAPACITY ÷ 2, and locations may count again (R379).
-/
def Bucket.leak (b : Bucket) (cap : Nat) : Bucket :=
  let level := b.level.toNat - 1
  { b with level := BitVec.ofNat 16 level, latch := b.latch && decide (cap / 2 < level), recent := [] }

/-- BUCKET_LEAK (R379). -/
def execBucketLeak (s : State) : Outcome State Fault Refusal :=
  s.run fun x =>
    { x with mem := { x.mem with buckets := (span 0 18).map fun n => (n, (tget x.mem.buckets n {}).leak x.mem.cap) } }

end Sys2Proof.Machine
end

