-- ==== Sys2Proof/Machine/Town.lean ====
section
/-! DEFINITION. What host software assigns to a partition for observation: its trace allocation (R507, R508), its trigger units and
PROBE_OUT pins (R511, R524); and the user I/O banks (R600). -/
namespace Sys2Proof.Machine
open Host

/-! ## Trace allocations -/

/-- A trace allocation as written is one that p may have: within its tower's part, apart from every other allocation and from
mapped-out dies (R508). -/
def Dev.tallocOk (d : Dev) (p : Nat) (v : Word) : Bool :=
  let e := d.updPart p fun q => { q with talloc := v }
  let r := e.traceRange p
  let m := bits v.toNat 56 2
  decide (bits v.toNat 0 16 + bits v.toNat 32 16 ≤ d.traceGib * 1024) &&
  (allParts.all fun q => decide (q = p) || !meets r.1 r.2 (d.traceRange q).1 (d.traceRange q).2) &&
  (span 0 12).all fun i => !(d.tower m).diesOut.getLsbD i || !meets r.1 r.2 (marlBase + m * towerSize + i * 2 ^ 32) (2 ^ 32)

/-- OBS_TALLOC_p written (R508, R524). -/
def Dev.writeTalloc (d : Dev) (p : Nat) (v : Word) : Dev :=
  let w := v &&& 0x0300FFFF0000FFFF
  if p = 0 ∨ 64 < p ∨ (d.part p).trace.state ≠ 0 ∨ !d.tallocOk p w then d
  else d.updPart p fun q => { q with talloc := w }

/-- TRACE_ALLOC_WRITE (R508). -/
def execTraceAllocWrite (m : Master) (p : Nat) (v : BitVec 64) (s : State) : Outcome State Fault Refusal :=
  s.run fun x => x.byHostOrT0 m (0x900100 + 8 * p) fun d => if d.rst.svc.isSome then d else d.writeTalloc p v

/-! ## Trigger units and PROBE_OUT pins -/

/-- A set of bits as written, a bit that another holds unchanged (R524). -/
def assignBits {w : Nat} (old new taken : BitVec w) : BitVec w := (new &&& ~~~taken) ||| (old &&& taken)

/-- Trigger units assigned to partitions other than p (R511). -/
def Dev.trigsTaken (d : Dev) (p : Nat) : BitVec 16 :=
  allParts.foldl (fun acc q => if q = p then acc else acc ||| (d.part q).trigs) 0
/-- PROBE_OUT pins assigned to partitions other than p (R524). -/
def Dev.poutTaken (d : Dev) (p : Nat) : BitVec 32 :=
  allParts.foldl (fun acc q => if q = p then acc else acc ||| (d.part q).pout) 0

/-- OBS_TOWN_p written: a unit removed is disarmed (R524). -/
def Dev.writeTown (d : Dev) (p : Nat) (v : Word) : Dev :=
  if p = 0 ∨ 64 < p then d
  else
    let old := (d.part p).trigs
    let trigs := assignBits old (BitVec.ofNat 16 v.toNat) (d.trigsTaken p)
    let pout := assignBits (d.part p).pout (BitVec.ofNat 32 (v.toNat / 2 ^ 16)) (d.poutTaken p)
    let d1 := d.updPart p fun q => { q with trigs := trigs, pout := pout }
    forAll (span 0 16) d1 fun e u =>
      if old.getLsbD u && !trigs.getLsbD u then e.updTrig u fun t => { t with armed := false } else e

/-- OBS_TOWN_WRITE (R524). -/
def execObsTownWrite (m : Master) (p : Nat) (v : BitVec 64) (s : State) : Outcome State Fault Refusal :=
  s.run fun x => x.byHostOrT0 m (0x900300 + 8 * p) fun d => if d.rst.svc.isSome then d else d.writeTown p v

/-! ## User I/O banks -/

/-- The partition that owns bank b, 0 for none (R221). -/
def Dev.bankOwner (d : Dev) (b : Nat) : Nat :=
  (allParts.find? fun p => decide ((d.part p).state ≠ .none) && (d.part p).banks.getLsbD b).getD 0

/-- FAB_IOBANK_b written: only while no partition owns the bank, or its owner is BLANK, whose pins keep their safe states (R600,
R237). -/
def Dev.writeIobank (d : Dev) (b : Nat) (v : Word) : Dev :=
  let p := d.bankOwner b
  if 18 ≤ b ∨ (p ≠ 0 ∧ (d.part p).state ≠ .blank) then d
  else
    let d1 := { d with fab := { d.fab with iobank := tset d.fab.iobank b (v &&& 0x00FFFFFFFFFFFF0B) } }
    if p = 0 then d1 else d1.pinsSafe p

/-- IOBANK_WRITE (R140, R600). -/
def execIobankWrite (m : Master) (b : Nat) (v : BitVec 64) (s : State) : Outcome State Fault Refusal :=
  s.run fun x => x.byHostOrT0 m (0x204000 + 8 * b) fun d => d.writeIobank b v

end Sys2Proof.Machine
end

