-- ==== Sys2Proof/Machine/Tap.lean ====
section
/-! DEFINITION. The test access port: its instructions, the boundary register and what the user pins carry (R520, R591, R599,
R603), and the start of a debug access (R521, R522). -/
namespace Sys2Proof.Machine
open Host

/-- The test access port is enabled: STRAP2 as sampled (R603). -/
def Dev.tapOn (d : Dev) : Bool := d.boot.straps.getLsbD 2

/-- Pin-driving instructions take effect: PERST# asserted, or PHASE is WAIT_IMAGE, LOWPWR or FAILED (R520). -/
def Dev.pinTestOk (d : Dev) : Bool :=
  d.rst.perst || (match d.boot.phase with
    | .waitImage => true
    | .lowpwr => true
    | .failed => true
    | _ => false)

/-- A pin-driving instruction is selected and in effect (R520). -/
def Dev.tapDrives (d : Dev) : Bool :=
  d.tapOn && d.pinTestOk && (match d.tap.ir with
    | .extest => true
    | .extestPulse => true
    | .extestTrain => true
    | _ => false)

/-- What a user pin carries: nothing while its bank's VCCIO is low (R591), the boundary cell in a pin test (R520), else its
output; an LVDS driver works only at 1.8 V (R599). -/
def Dev.padOut (d : Dev) (pin : Nat) : Drive :=
  if d.fab.vccioLow.contains (pin / 48) then .hiz
  else if d.tapDrives then driveOf (d.tap.boundary.getLsbD pin)
  else if d.lvdsPin pin ∧ tget d.fab.vccio (pin / 48) 3 ≠ 3 then .hiz
  else (tget d.pins pin {}).drive

/-- VCCIO_UNDERVOLTAGE: the bank's outputs are high-impedance and its inputs present 0 (R591). -/
def execVccioUndervoltage (b : Nat) (s : State) : Outcome State Fault Refusal :=
  s.always fun x =>
    if 18 ≤ b ∨ x.fab.vccioLow.contains b then x else { x with fab := { x.fab with vccioLow := b :: x.fab.vccioLow } }

/-- VCCIO_RESTORED: the bank is back, at the voltage found (R591, R600). -/
def execVccioRestored (b volts : Nat) (s : State) : Outcome State Fault Refusal :=
  s.always fun x =>
    if 18 ≤ b then x
    else { x with fab := { x.fab with vccioLow := x.fab.vccioLow.filter (fun y => decide (y ≠ b)),
                                      vccio := tset x.fab.vccio b (volts % 4) } }

/-- A TAP instruction is loaded, and its data register captures a value (R520). -/
def Dev.tapLoad (d : Dev) (i : TapInstr) (dr : BitVec 128) : Dev :=
  if d.tapOn then { d with tap := { d.tap with ir := i, dr := dr } } else d

/-- The IDCODE (R520). -/
def Fuses.idcode (f : Fuses) : BitVec 32 :=
  BitVec.ofNat 32 (f.majorRev.toNat % 16 * 2 ^ 28 + 0x3208 * 2 ^ 12 + Config.manufacturer.toNat * 2 + 1)

/-- IDCODE (R520). -/
def execIdcode (s : State) : Outcome State Fault Refusal := s.always fun x => x.tapLoad .idcode (s.fuse.idcode.setWidth 128)

/-- SAMPLE_PRELOAD: the boundary register takes the cells shifted in (R520). -/
def execSamplePreload (cells : BitVec 864) (s : State) : Outcome State Fault Refusal :=
  s.always fun x =>
    let y := x.tapLoad .sample x.tap.dr
    if x.tapOn then { y with tap := { y.tap with boundary := cells } } else y

/-- EXTEST (R520). -/
def execExtest (s : State) : Outcome State Fault Refusal := s.always fun x => x.tapLoad .extest x.tap.dr

/-- EXTEST_PULSE (R520). -/
def execExtestPulse (s : State) : Outcome State Fault Refusal := s.always fun x => x.tapLoad .extestPulse x.tap.dr

/-- EXTEST_TRAIN (R520). -/
def execExtestTrain (s : State) : Outcome State Fault Refusal := s.always fun x => x.tapLoad .extestTrain x.tap.dr

/-- DBGACC: the debug access register is selected, and captured with its STATUS (R520, R521). -/
def execDbgacc (s : State) : Outcome State Fault Refusal := s.always fun x => x.tapLoad .dbgacc x.tap.dbg

/-- Codes of the other instructions (R520). -/
def tapCodes : List Nat := [0x01, 0x02, 0x03, 0x04, 0x05, 0x10]

/-- BYPASS: the code 0xFF and every code of no instruction (R520). -/
def execBypass (code : BitVec 8) (s : State) : Outcome State Fault Refusal :=
  s.always fun x => if tapCodes.contains code.toNat then x else x.tapLoad .bypass 0

/-! ## Debug accesses -/

/-- ADDR of DBGACC: the system address with its KeyID (R521). -/
def dbgAddr (v : BitVec 128) : Word := BitVec.ofNat 64 (bits v.toNat 8 54)
/-- OP of DBGACC (R521). -/
def dbgOp (v : BitVec 128) : Nat := bits v.toNat 0 2
/-- DBGACC with a STATUS (R521). -/
def dbgStatus (v : BitVec 128) (st : Nat) : BitVec 128 := (v &&& ~~~0xC#128) ||| BitVec.ofNat 128 (st * 4)

/-- Start of the register window (R266). -/
def regWindow : Nat := 0x032000000000

/-- The lifecycle state and the rights table allow a debug access (R522). -/
def Dev.debugMay (d : Dev) (f : Fuses) (a : Word) (write : Bool) : Bool :=
  let k := kidOf a
  let x := addrOf a
  let off := x - regWindow
  if regWindow ≤ x then
    decide (k = 0) && decide (off < 0x4000000) &&
      (if f.lifecycle = 0 then
        !write || !(decide (0x20000 ≤ off ∧ off < 0x40000) || decide (off / 8 * 8 = 0x600008))
       else if f.lifecycle = 1 then !write && (decide (off < 0x20000) || decide (0x40000 ≤ off ∧ off < 0x100000))
       else false)
  else if 0x031000000000 ≤ x then decide (k = 0) && decide (f.lifecycle = 0) && decide (x < 0x031000400000)
  else bit (d.rights 1 write) k && (decide (f.lifecycle = 0) || (decide (f.lifecycle = 1) && decide (k = 0)))

/-- DBGACC_UPDATE: with OP = 1 or 2 one access starts, or is refused with event 0x0C10 (R521, R522). -/
def execDbgaccUpdate (v : BitVec 128) (s : State) : Outcome State Fault Refusal :=
  s.run fun x =>
    if !x.tapOn ∨ x.tap.ir ≠ .dbgacc ∨ x.tap.busy then x
    else
      let keep := bits x.tap.dbg.toNat 2 2
      let op := dbgOp v
      let set (d : Dev) (st : Nat) (busy : Bool) : Dev := { d with tap := { d.tap with dbg := dbgStatus v st, busy := busy } }
      if op = 0 ∨ op = 3 then set x keep false
      else if !x.feat 11 ∨ !x.obs.en ∨ !x.debugMay s.fuse (dbgAddr v) (decide (op = 2)) then
        let y := { x with obs := { x.obs with refused := sat1 x.obs.refused } }
        set (y.post 0x0C10 (addrDetail (addrOf (dbgAddr v)))) 2 false
      else set x 1 true

end Sys2Proof.Machine
end

