-- ==== Sys2Proof/Machine/Resets.lean ====
section
/-! DEFINITION. Resets (R76 to R83): what a COLD and a WARM reset leave, the SERVICE reset's steps, PARTITION resets and FLRs, and
what goes on when a SERVICE reset ends. -/
namespace Sys2Proof.Machine
open Host

/-! ## Values restored from keep registers (R18) -/

/-- A keep field with the value that stands for 0. -/
def orElse (v dflt : Nat) : Nat := if v = 0 then dflt else v

/-- The UE policy bits that exist (R385). -/
def policyMask : BitVec 18 := 0x7FF9

/-- Registers whose reset value is held in keep registers (R56, R383, R433, R474). -/
def Dev.loadDefaults (d : Dev) : Dev :=
  let v := d.keepVal
  let on (i : Nat) : RingCtl := { state := if bit (v 256) i then .on else .off }
  { d with
    boot := { d.boot with timeout := BitVec.ofNat 12 (min 3600 (orElse (v 488) 30)) }
    mem := { d.mem with
      uePolicy := BitVec.ofNat 18 (v 480) &&& policyMask
      capacity := BitVec.ofNat 16 (orElse (bits (v 481) 0 16) 64), leakMs := BitVec.ofNat 16 (orElse (bits (v 481) 16 16) 1000)
      kMarl := BitVec.ofNat 4 (orElse (bits (v 482) 0 4) 9), kDdr := BitVec.ofNat 4 (orElse (bits (v 482) 4 4) 9)
      retrainMs := BitVec.ofNat 16 (orElse (bits (v 482) 8 16) 128) }
    ring := { d.ring with
      systemId := BitVec.ofNat 16 (bits (v 256) 16 16), size := bits (v 256) 6 7, position := bits (v 256) 0 6
      enA := bit (v 256) 13, enB := bit (v 256) 14, ctlA := on 13, ctlB := on 14
      periodMs := BitVec.ofNat 16 (orElse (bits (v 257) 0 16) 100) }
    ime := { d.ime with ports := (span 0 4).map fun n =>
      (n, { d.nk n with peer := BitVec.ofNat 64 (v (259 + 2 * n) * 2 ^ 32 + v (258 + 2 * n)) }) } }

/-- The repair map is read again: bad plots, spares and dies, and the repairs of fabric lanes and bonds (R556, R558). -/
def Dev.readRepairMap (d : Dev) : Dev :=
  let d1 := forAll allPlots d fun e n =>
    if bit (e.keepVal (n / 32)) (n % 32) then e.updPlot n fun x => { x with state := .mappedOut } else e
  let d2 := d1.repairs.foldl (fun e w =>
    if repairKind w.2 = 6 then (e.dieOut w.2).applyEntry w.2 else if repairKind w.2 = 5 ∧ e.spareFree w.2 then e.applyEntry w.2 else e) d1
  d2.applyRepairs

/-! ## COLD and WARM -/

/-- What a COLD reset leaves: everything at its reset value but keep registers, and what is no state of the device: the reset
pin, the rails, the banks' supplies, the straps as last sampled, the host's memory and the model's own counts (R76). A keep
write in progress persists (R71). -/
def Dev.coldDev (d : Dev) : Dev :=
  (({ keep := { regs := d.keep.regs }
      boot := { straps := d.boot.straps }
      rst := { perst := d.rst.perst, railLow := d.rst.railLow }
      evt := { vectors := d.evt.vectors }
      fab := { vccio := d.fab.vccio, vccioLow := d.fab.vccioLow }
      pcie := { hostMem := d.pcie.hostMem, hostPoison := d.pcie.hostPoison }
      free := d.free } : Dev).loadDefaults).readRepairMap

/-- Boot step 1: the COLD reset is over, with event 0x0A21; the boot ROM runs and link training starts; the bypasses open (R55, R90,
R471; log 116). -/
def Dev.bootStart (d : Dev) : Dev :=
  { d with boot := { d.boot with phase := .selftest, started := true }, ring := { d.ring with bypassed := false } }.post 0x0A21 1

/-- A COLD reset by RST_CTRL or a pin, with event 0x0A20, whose record the reset itself clears; when the device is not held in reset,
boot begins at once (R55, R76, R90; log 116). -/
def Dev.coldReset (d : Dev) : Dev :=
  let e := (d.post 0x0A20 1).coldDev
  if d.heldInReset then e else e.bootStart

/-- The download deadline is counted from here (R55 step 4a, R56). -/
def Dev.startDeadline (d : Dev) : Dev := { d with boot := { d.boot with deadlineOn := true, deadlinePast := false } }

/-- The counts that their registers' text gives "since the last COLD reset" go on (R140, R220, R255, R385, R435, R501, R565). -/
def Dev.keepCounts (d old : Dev) : Dev :=
  let d1 := { d with
    fab := { d.fab with vlCount := old.fab.vlCount }
    plc := { d.plc with promoted := old.plc.promoted, demoted := old.plc.demoted }
    start := { d.start with starts := old.start.starts }
    mem := { d.mem with maxNs := old.mem.maxNs,
                        buckets := old.mem.buckets.map fun (e : Nat × Bucket) => (e.1, { corrected := e.2.corrected }) }
    ime := { d.ime with reenc := old.ime.reenc }
    rel := { d.rel with unrecorded := old.rel.unrecorded, lifePowered := old.rel.lifePowered, lifeB := old.rel.lifeB,
                        lifeC := old.rel.lifeC, lifeTrip := old.rel.lifeTrip, lifeSum := old.rel.lifeSum,
                        lifeEvt := old.rel.lifeEvt, lastMs := old.rel.lastMs, pCorrected := old.rel.pCorrected } }
  forAll (span 0 4) d1 fun e n =>
    ((e.updTower n fun t => { t with nref := (old.tower n).nref, rowMoves := (old.tower n).rowMoves }).updNk n fun x =>
      { x with tagFail := (old.nk n).tagFail, handshakes := (old.nk n).handshakes }).updRport n fun x =>
        { x with replays := (old.rport n).replays }

/-- A WARM reset (R76, R87): as COLD, but the PCIe link and PF0's configuration space with VF Enable clear, the PF0 queue with its registers and vectors, the
event time, the thermal controller, the reference's state and the meter bridge survive; boot goes on at WAIT_IMAGE. -/
def Dev.warmReset (d : Dev) : Dev :=
  let d0 := d.post 0x0A20 2
  let c := d0.coldDev
  let d1 := { c with
    pcie := { c.pcie with linkUp := d0.pcie.linkUp, crs := false, busMaster := d0.pcie.busMaster.filter (fun n => decide (n = 0)),
                          vfMse := d0.pcie.vfMse, bars := d0.pcie.bars,
                          aer := d0.pcie.aer.filter (fun (e : Nat × BitVec 32) => decide (e.1 = 0)) }
    evt := { d0.evt with vf := [], msix := d0.evt.msix.filter (fun (e : Nat × Msix) => decide (e.1 < 64)),
                         pba := d0.evt.pba.filter (fun n => decide (n < 64)) }
    thm := d0.thm
    mtr := d0.mtr
    clk := { g0 := { freq := d0.clk.target }, g1 := { freq := d0.clk.target }, target := d0.clk.target, ref := d0.clk.ref,
             monitor := d0.clk.monitor, scyc := d0.clk.scyc, stopped := decide (d0.clk.ref = RefState.stopped) }
    boot := { c.boot with phase := .waitImage, started := true }
    ring := { c.ring with bypassed := decide (d0.clk.ref = RefState.stopped) }
    rst := { c.rst with last := 2 } }
  let d2 := forAll (span 0 4) (d1.keepCounts d0) fun e m => if (e.tower m).diesOut.getLsbD 0 then e.failTower m 3 else e
  ((d2.post 0x0A21 2).startDeadline).post 0x0A01 0

/-! ## RST_CTRL -/

/-- BAR0 offset of RST_CTRL. -/
def rstCtrlOff : Nat := 0x20000

/-- A write of RST_CTRL by host software or T0 with the key; any other thread's traps; a VF window's and the debug port's do
nothing (R91, R92, R522). -/
def Dev.byRst (d : Dev) (m : Master) (key : BitVec 8) (body : Dev → Dev) : Dev :=
  match m with
  | .pf0 | .thread 0 => if key = 0xA5 then body d else d
  | .thread n => if n ≤ 64 ∧ (d.thr n).state = .run then d.trap n 0x0903 (BitVec.ofNat 64 (0x032000000000 + rstCtrlOff)) else d
  | _ => d

/-- A reset class other than COLD: refused during a seal halt (R77). -/
def Dev.unlessSealed (d : Dev) (cls : Nat) (part : Nat) (body : Dev → Dev) : Dev :=
  if d.ime.sealed then d.post 0x0A23 cls part else body d

/-- RST_COLD (R76). -/
def execRstCold (m : Master) (key : BitVec 8) (s : State) : Outcome State Fault Refusal :=
  s.run fun x => x.byRst m key Dev.coldReset

/-- RST_WARM: discarded while the COLD reset's self-test runs (R76 to R78). -/
def execRstWarm (m : Master) (key : BitVec 8) (s : State) : Outcome State Fault Refusal :=
  s.run fun x => x.byRst m key fun d => d.unlessSealed 2 0 fun d => if d.boot.phase = .selftest then d else d.warmReset

/-! ## The SERVICE reset -/

/-- Step 1: the resets of partitions in progress are suspended, a swap in steps 1 to 4 and migrations before step 5 are abandoned,
and RUNNING partitions are to freeze at their boundaries (R78, R79, R219, R292). -/
def Dev.startService (d : Dev) : Dev :=
  let d1 := { d with rst := { d.rst with svc := some .waiting, parts := d.rst.parts.map fun (r : PartReset) => { r with suspended := true } } }
  let d2 := d1.post 0x0A20 3
  let d3 := if d2.seq.swap ≠ 0 ∧ d2.seq.swap.toNat ≤ 3 then d2.swapAbandon else d2
  forAll allParts d3 fun e p => (e.abandonMigs p fun _ => true).addFreeze p .service

/-- RST_SERVICE (R76 to R79). -/
def execRstService (m : Master) (key : BitVec 8) (s : State) : Outcome State Fault Refusal :=
  s.run fun x => x.byRst m key fun d => d.unlessSealed 3 0 fun d =>
    if d.rst.svc.isSome ∨ d.boot.phase = .selftest then d else d.startService

/-- Step 4: the fence closes; a capture in progress is aborted, its area stays invalid (R79, R518). -/
def Dev.svcFence (d : Dev) : Dev :=
  let d1 := forAll allParts d fun e p =>
    let e1 := (e.part p).capture.foldl (fun g c => (g.post 0x0C06 (addrDetail (c.addr % 2 ^ 48)) p).endCapture p c 0x0911 3) e
    e1.updPart p fun q => { q with capture := [] }
  { d1 with rst := { d1.rst with svc := some .fenced } }

/-- SERVICE_BOUNDARY_WAIT_EXPIRY (R79 steps 3 and 4, R136). -/
def execServiceBoundaryWaitExpiry (s : State) : Outcome State Fault Refusal :=
  s.run fun x => if x.rst.svc = some .waiting then (forAll allParts x Dev.freezeMicro).svcFence else x

/-- Work that step 6 aborts: operations of the subsystems being reset, but a retirement, a load (R233, R414) and what is held. -/
def abortedByService (o : Op) : Bool :=
  resetsWith o && decide (o.dop ≠ 0x14) && decide (o.dop ≠ 0x02) && decide (o.dop ≠ 0x0E) && decide (o.phase ≠ .held)

/-- Step 6: what remains is aborted; each host DMA channel halts, each ticket completes with 0x0911 (R79). -/
def Dev.svcAbort (d : Dev) (aborted : Nat) : Dev :=
  let dma := d.ops.filter fun o => decide (o.dop = 0x0E) && decide (o.phase ≠ .held)
  let d1 := dma.foldl (fun e o =>
    e.endDma o 0x0911 3 0) { d with pcie := { d.pcie with dmaHalt := 0 :: d.partsIn fun (q : Part) => decide (q.state ≠ .none) } }
  let d2 := forAll allParts d1 fun e p => ((e.abortReads p).abortIcp p).updPart p fun q =>
    { q with snapReq := [], selNext := [], trigNext := [], rewinding := none }
  let gone := d2.ops.filter abortedByService
  let cut (x : Search) : Bool := gone.any fun o => decide (o.thread = x.thread) && decide (o.slot = x.slot)
  let d3 := { d2 with plc := { d2.plc with search := d2.plc.search.filter fun x => !cut x } }
  let d4 := d3.endOps gone 0x0911 3
  (d4.nextSearch (d4.ops.length + 1)).post 0x0A22 aborted

/-- A memory unit's state changed where it is `a`. -/
def MState.swap (st a b : MState) : MState := if st = a then b else st

/-- Every memory unit in one state goes to another. -/
def Dev.unitsTo (d : Dev) (a b : MState) : Dev :=
  let d1 := forAll (span 0 4) d fun e m => e.updTower m fun t => { t with state := t.state.swap a b }
  forAll (span 0 8) d1 fun e c => e.updChan c fun t => { t with state := t.state.swap a b }

/-- Marl and DDR5 enter self-refresh and the bypasses close: frames of the ports are gone (R359, R471). -/
def Dev.goPassive (d : Dev) : Dev :=
  let d1 := forAll (span 0 4) { d with ring := { d.ring with bypassed := true } } fun e n =>
    (e.bypassPort n).updRport n fun x => { x with txq := [], retry := [] }
  let d2 := d1.unitsTo .active .selfRefresh
  { d2 with mem := { d2.mem with selfRefresh := true } }

/-- SERVICE_INFLIGHT_TIMEOUT: steps 6 and 7; it also ends a wait in which every partition had frozen (R79, R81). -/
def execServiceInflightTimeout (aborted : Nat) (s : State) : Outcome State Fault Refusal :=
  s.run fun x =>
    let still := decide (x.rst.svc = some .waiting) && allParts.all fun p => decide ((x.part p).state ≠ .running)
    if x.rst.svc = some .fenced ∨ still then
      let y := (((if still then x.svcFence else x).svcAbort aborted).flushCaches.goPassive)
      { y with rst := { y.rst with svc := some .quiet } }
    else x

/-- A stop after a SERVICE reset (R456). -/
def NocStop.serviced (x : NocStop) : NocStop :=
  match x.state with
  | .off => { state := .off }
  | .draining | .drained | .fenced => { state := .fenced }
  | st => { state := st }

/-- Step 8: NOC registers to their reset values, trace off, the IME pipelines' caches empty, units to retrain (R76, R79, R456, R463; log 144). -/
def Dev.svcReset (d : Dev) : Dev :=
  let isStop (f : DrainFn) : Bool := match f with | .stop _ => true | _ => false
  let d1 := { d with noc := {
    stops := d.noc.stops.map fun (e : Nat × NocStop) => (e.1, e.2.serviced)
    draining := d.noc.draining.filter fun f => !isStop f
    late := d.noc.late.filter fun e => !isStop e.1 } }
  let d2 := forAll allParts d1 fun e p => if (e.part p).trace.state = 0 then e else
    (e.updPart p fun q => { q with trace := { hw := q.trace.hw } })
  { d2 with ime := { d2.ime with ccLines := [], mcLines := [] } }.unitsTo .selfRefresh .training

/-- SERVICE_SELF_REFRESH_ENTERED (R79 step 8). -/
def execServiceSelfRefreshEntered (s : State) : Outcome State Fault Refusal :=
  s.run fun x =>
    if x.rst.svc = some .quiet then
      let y := x.svcReset
      { y with rst := { y.rst with svc := some .retraining } }
    else x

/-! ## Work held meanwhile -/

/-- A posted operation starts after it was held (R284); its reads are clean. -/
def Dev.startOp (d : Dev) (serial : Nat) (o : Op) : Dev :=
  match o.dop with
  | 0x01 => d.startImgchk o .clean
  | 0x02 => d.startImgld o .clean
  | 0x03 => d.startPlace o
  | 0x04 => d.startMigr o
  | 0x05 => d.startAct o
  | 0x06 => d.startFrz o
  | 0x07 => d.startStep o
  | 0x08 => d.startRun o
  | 0x09 => d.startStop o
  | 0x0A => d.startSnap serial o
  | 0x0B => d.startRwnd serial o
  | 0x0C => d.startFill o
  | 0x0D => d.startRmov o
  | 0x0E => d.startDma o
  | 0x0F => d.startPrb o
  | 0x10 => d.startTrig o
  | 0x11 => d.startCens o
  | 0x12 => d.startDonew o
  | 0x13 => d.startKeyset o
  | 0x14 => d.startKeyret o
  | 0x15 => d.startEvt o
  | 0x16 => d.startThrm o
  | 0x17 => d.startMtrd o
  | 0x18 => d.startIcpg o
  | 0x19 => d.startPartOp o
  | _ => d.startHotsw o

/-- Held operations start in issue order (R284, R302). -/
def Dev.releaseHeld (d : Dev) (serial : Nat) : Dev :=
  (d.ops.filter fun o => decide (o.phase = .held)).foldl (fun e o =>
    ((e.updOp o.thread o.slot fun x => { x with phase := .run }).startOp serial { o with phase := .run }).draw 1) d

/-! ## PARTITION resets -/

/-- Class number of a PARTITION reset and an FLR (R90). -/
def partClass (flr : Bool) : Nat := if flr then 5 else 4

/-- A request for a PARTITION reset of an existing partition: held behind a SERVICE reset, else it starts (R78, R82). -/
def Dev.requestPartReset (d : Dev) (p : Nat) (flr : Bool) : Dev :=
  if p = 0 ∨ 64 < p ∨ (d.part p).state = .none then d
  else if d.rst.svc.isSome then
    { d with rst := { d.rst with held := if d.rst.held.contains (p, flr) then d.rst.held else d.rst.held ++ [(p, flr)] } }
  else if d.rst.parts.any (fun r => decide (r.part = p)) then d
  else
    let d1 := d.post 0x0A20 (partClass flr) p
    let running := decide ((d1.part p).state = .running)
    let r : PartReset := { part := p, flr := flr, waiting := running }
    let d2 := { d1 with rst := { d1.rst with parts := d1.rst.parts ++ [r] } }
    let d2 := d2.abandonMigs p fun _ => true
    let d3 := if running then d2.addFreeze p .partition else d2.startPartDrain p 1
    if flr ∧ !d3.noc.draining.contains (DrainFn.vf p) then
      { d3 with noc := { d3.noc with draining := d3.noc.draining ++ [DrainFn.vf p] } }
    else d3

/-- RST_PARTITION (R76 to R78, R82). -/
def execRstPartition (m : Master) (key : BitVec 8) (p : Nat) (s : State) : Outcome State Fault Refusal :=
  s.run fun x => x.byRst m key fun d => d.unlessSealed 4 p fun d => d.requestPartReset p false

/-- An FLR returns VF n's Bus Master Enable and MSI-X structures to their defaults, as the PCIe base specification lays down (R50;
log 4). -/
def Dev.vfDefaults (d : Dev) (n : Nat) : Dev :=
  { d with
    pcie := { d.pcie with busMaster := d.pcie.busMaster.filter (fun x => decide (x ≠ n)) }
    evt := { d.evt with msix := d.evt.msix.filter (fun (e : Nat × Msix) => decide (e.1 / 64 ≠ n)),
                        pba := d.evt.pba.filter (fun x => decide (x / 64 ≠ n)) } }

/-- VF_FLR: event 0x0A42, the VF's queue structures stay with the partition's reset (R82, R90). An FLR of a VF without a partition
resets nothing. -/
def execVfFlr (n : Nat) (s : State) : Outcome State Fault Refusal :=
  s.run fun x =>
    if n = 0 ∨ 64 < n ∨ !x.pcie.vfEnable ∨ !x.pcie.linkUp then x
    else
      let y := (x.post 0x0A42 n n).vfDefaults n
      y.unlessSealed 5 n fun d => d.requestPartReset n true

/-- PARTITION_RESET_WAIT_EXPIRY: the partition freezes at its current microcycle (R82 step 1). -/
def execPartitionResetWaitExpiry (p : Nat) (s : State) : Outcome State Fault Refusal :=
  s.run fun x =>
    if x.rst.parts.any (fun r => decide (r.part = p) && r.waiting && !r.suspended) then x.freezeMicro p else x

/-- PARTITION_RESET_DONE: drained; zeroed, BLANK, thread held, event 0x0A21 (R82 steps 2 to 6). -/
def execPartitionResetDone (p : Nat) (s : State) : Outcome State Fault Refusal :=
  s.run fun x =>
    match x.rst.parts.find? fun r => decide (r.part = p) with
    | none => x
    | some r =>
      if r.waiting ∨ r.suspended ∨ x.partDrains p then x
      else
        let cls := partClass r.flr
        let y := x.finishPartReset p cls
        let z := { y with rst := { y.rst with
          last := BitVec.ofNat 3 cls, parts := y.rst.parts.filter (fun (r : PartReset) => decide (r.part ≠ p)) } }
        z.post 0x0A21 cls p

/-! ## The end of a SERVICE reset -/

/-- A SERVICE reset aborts a load when it ends; the load of a partition that a PARTITION reset drains ends with that reset (R82, R233).
-/
def Dev.svcLoads (d : Dev) : Dev :=
  forAll allParts d fun e p => match (e.part p).load with
    | some l => if (e.part p).state = .draining then e else (e.post 0x010D l.frames p).abortLoad p 0x0911 3
    | none => e

/-- Suspended PARTITION resets go on, and held requests start (R78). -/
def Dev.resumeResets (d : Dev) : Dev :=
  let d1 := { d with rst := { d.rst with held := [], parts := d.rst.parts.map fun (r : PartReset) => { r with suspended := false } } }
  let d2 := d1.rst.parts.foldl (fun e r => if (e.part r.part).state = .running then e else e.partResetFrozen r.part) d1
  d.rst.held.foldl (fun e (x : Nat × Bool) => e.requestPartReset x.1 x.2) d2

/-- Step 9: memory and ports are back, BUSY clears, and what waited goes on (R78, R79, R233, R284, R456). A tower or channel whose
training has not been reported as failed is ACTIVE. -/
def Dev.endService (d : Dev) (serial : Nat) : Dev :=
  let d1 := (d.unitsTo .training .active)
  let held := decide (d1.clk.ref ≠ .good)
  let d2 := { d1 with
    mem := { d1.mem with selfRefresh := held }
    ring := { d1.ring with bypassed := held }
    rst := { d1.rst with svc := none, last := 3 } }
  let d3 := if held then d2.unitsTo .active .selfRefresh else
    forAll (span 0 4) d2 fun e n => if e.mayTrain n then e.trainPort n else e.updRport n fun x =>
      { x with state := if (e.rctl (n / 2)).state = .off then .bypass else .down }
  let d4 := (d3.post 0x0A21 3).svcLoads
  let late := d4.noc.late
  let d5 := late.foldl (fun e (x : DrainFn × Nat) => e.forceDrain x.1 x.2) { d4 with noc := { d4.noc with late := [] } }
  (d5.releaseHeld serial).resumeResets

/-- SERVICE_RESET_DONE (R79 step 9). -/
def execServiceResetDone (s : State) : Outcome State Fault Refusal :=
  s.run fun x => if x.rst.svc = some .retraining then x.endService s.serial else x

end Sys2Proof.Machine
end

