-- ==== Sys2Proof/Machine/Boot.lean ====
section
/-! DEFINITION. Power, boot and firmware loading (R55 to R64, R591), attestation (R65, R66), feature negotiation (R67 to R70), and
the training of the memories (R344, R349, R400, R410). -/
namespace Sys2Proof.Machine
open Host

/-! ## Rails and PERST# -/

/-- The device monitors the group: all but VDDQ, VCCIO and MVDD (R591). -/
def monitored (g : RailGroup) : Bool :=
  match g with
  | .vddq _ => false
  | .vccio _ => false
  | .mvdd => false
  | _ => true

/-- Keep writes in progress leave their registers unchanged, or persist whole (R591). -/
def Dev.keepCut (d : Dev) (keepNew : Bool) : Dev :=
  if keepNew then d
  else d.keep.persisting.foldl (fun e (w : Nat × BitVec 32) =>
    { e with keep := { e.keep with regs := tupd e.keep.regs w.1 {} fun r => { r with value := w.2, wcount := r.wcount - 1 } } }) d

/-- POWER_RAIL_UNDERVOLTAGE: as an assertion of PERST#, for as long as it lasts (R591). -/
def execPowerRailUndervoltage (g : RailGroup) (keepNew : Bool) (s : State) : Outcome State Fault Refusal :=
  s.always fun x =>
    if monitored g ∧ !x.rst.railLow.contains g then
      { x with rst := { x.rst with railLow := g :: x.rst.railLow } }.keepCut keepNew |>.coldReset
    else x

/-- Boot begins when nothing holds the device in reset: the straps are sampled (R55, R591, R603). -/
def Dev.leaveReset (d : Dev) (straps : BitVec 4) : Dev :=
  if d.heldInReset ∨ d.boot.started then d else { d with boot := { d.boot with straps := straps } }.bootStart

/-- POWER_RAIL_RESTORED: with every monitored group back, the device leaves the reset (R591). -/
def execPowerRailRestored (g : RailGroup) (straps : BitVec 4) (s : State) : Outcome State Fault Refusal :=
  s.always fun x => { x with rst := { x.rst with railLow := x.rst.railLow.filter fun y => decide (y ≠ g) } }.leaveReset straps

/-- PERST_ASSERT (R76). -/
def execPerstAssert (s : State) : Outcome State Fault Refusal :=
  s.always fun x => if x.rst.perst then x else { x with rst := { x.rst with perst := true } }.coldReset

/-- PERST_RELEASE (R55, R603). -/
def execPerstRelease (straps : BitVec 4) (s : State) : Outcome State Fault Refusal :=
  s.always fun x => { x with rst := { x.rst with perst := false } }.leaveReset straps

/-- A DDR5 channel enters FAILED with event 0x0341 and its cause; it is not mapped (R349, R384). -/
def Dev.failChan (d : Dev) (c cause : Nat) : Dev :=
  (d.updChan c fun x => { x with state := .failed, mapped := false, restoring := false, pause := false }).postSrc 0x0341
    (c + cause * 2 ^ 8) 0 (chanStop c)

/-- VDDQ_UNDERVOLTAGE: a channel that is not OFF fails as in training (R591); no channel posts 0x0341 before the feature set locks
(R349), and without DDR5 accepted the channels are absent (R70). -/
def execVddqUndervoltage (c : Nat) (s : State) : Outcome State Fault Refusal :=
  s.run fun x =>
    let st := (x.chan c).state
    if 8 ≤ c ∨ !x.feat 14 ∨ st = .off ∨ st = .failed then x else x.failChan c 1

/-! ## Boot -/

/-- PCIE_LINK_UP (R54, R55). -/
def execPcieLinkUp (s : State) : Outcome State Fault Refusal :=
  s.run fun x => if x.boot.started then { x with pcie := { x.pcie with linkUp := true } } else x

/-- Units that self-test can name: boot ROM, root core memory, sequencer memory, fuses, keep registers, PLLs, PCIe (R91). -/
def selftestUnit (u : BitVec 16) : Bool := decide (0x100 ≤ u.toNat) && decide (u.toNat ≤ 0x106)

/-- SELFTEST_DONE: WAIT_IMAGE with the download deadline, or FAILED with the failing unit (R55). STRAP3 high fails self-test (R603).
-/
def execSelftestDone (failed : Option (BitVec 16)) (us : BitVec 32) (s : State) : Outcome State Fault Refusal :=
  s.work fun x =>
    if x.boot.phase ≠ .selftest ∨ !x.boot.started ∨ failed.any (fun u => !selftestUnit u) then x
    else
      let y := { x with pcie := { x.pcie with crs := false } }
      match (if x.boot.straps.getLsbD 3 then some 0x103 else failed) with
      | some u => { y with boot := { y.boot with phase := .failed, err := u } }.post 0x0A02 u.toNat
      | none => ({ y with boot := { y.boot with phase := .waitImage } }.startDeadline).post 0x0A01 us.toNat

/-- An image may be written or verified: WAIT_IMAGE or LOWPWR (R58, R91). -/
def Dev.takesImage (d : Dev) : Bool := decide (d.boot.phase = .waitImage) || decide (d.boot.phase = .lowpwr)

/-- BAR2_WRITE: discarded in any other phase (R58). -/
def Dev.writeBar2 (d : Dev) (off : Nat) (bytes : List Byte) : Dev :=
  if d.takesImage ∧ off + bytes.length ≤ 0x800000 then { d with boot := { d.boot with bar2 := zsetBytes d.boot.bar2 off bytes } }
  else d

/-- BAR2_WRITE (R58). -/
def execBar2Write (off : Nat) (bytes : List (BitVec 8)) (s : State) : Outcome State Fault Refusal :=
  s.run fun x => x.writeBar2 off bytes

/-- GO: verification starts, in LOWPWR with the stopped PLLs restarted (R55 step 5, R57). -/
def Dev.bootGo (d : Dev) : Dev :=
  if d.boot.phase = .waitImage then { d with boot := { d.boot with phase := .verify, fromLowPwr := false } }
  else if d.boot.phase = .lowpwr then
    { d with boot := { d.boot with phase := .verify, fromLowPwr := true, pllsStopped := false } }
  else d

/-- BOOT_GO: a write of BOOT_CTRL with LENGTH and GO = 1 (R55, R91). -/
def execBootGo (m : Master) (length : BitVec 24) (s : State) : Outcome State Fault Refusal :=
  s.run fun x => x.byHostOrT0 m 0x10008 fun d => { d with boot := { d.boot with length := length } }.bootGo

/-- The device enters LOWPWR: every PLL but the PCIe PLL and the HCLK source stops (R57). -/
def Dev.toLowPwr (d : Dev) : Dev := { d with boot := { d.boot with phase := .lowpwr, pllsStopped := true } }

/-- An attempt fails: its event and ERR, BAR2 zeroed; back to LOWPWR, or there at once when the deadline passed meanwhile, else to
WAIT_IMAGE (R55 step 6b, R56 to R58). -/
def Dev.bootFail (d : Dev) (code detail : Nat) : Dev :=
  let d1 := { d with boot := { d.boot with err := BitVec.ofNat 16 code, bar2 := [] } }.post code detail
  if d1.boot.fromLowPwr then d1.toLowPwr
  else if d1.boot.deadlinePast then
    ({ d1 with boot := { d1.boot with deadlinePast := false } }.toLowPwr).post 0x0A09 0
  else { d1 with boot := { d1.boot with phase := .waitImage } }

/-- The bytes of BAR2. -/
def Dev.image (d : Dev) : List Byte := zgetBytes d.boot.bar2 0 0x800000

/-- FIRMWARE_VERIFY_DONE (R55 step 6, R63). -/
def execFirmwareVerifyDone (s : State) : Outcome State Fault Refusal :=
  s.work fun x =>
    if x.boot.phase ≠ .verify then x
    else match s.fuse.checkFirmware x.image x.boot.length.toNat with
      | some f => x.bootFail f.1 f.2
      | none => { x with boot := { x.boot with phase := .loading } }

/-- Every tower not in use trains (R344, R385). -/
def Dev.towersTrain (d : Dev) : Dev :=
  forAll (span 0 4) d fun e m => e.updTower m fun t => { t with state := t.state.swap .absent .training }

/-- The sections loaded and the firmware started: T0 runs at SEQ_ENTRY, BAR2 becomes the attestation area, and the marl towers train
(R55 step 7, R61, R65, R527; log 9). -/
def Dev.loadFirmware (d : Dev) (img : List Byte) : Dev :=
  let thermal := (fwSecs img).any fun (x : FwSec) => decide (x.type = 4)
  let d0 := { d with
    boot := { d.boot with rootCode := [], placerCode := [], thermParams := [], phyCode := [] }
    thm := { d.thm with builtin := !thermal } }
  let d1 := (d0.writeSections img [1, 2, 3, 4, 5]).runImage img
  let d2 := { d1 with boot := { d1.boot with bar2 := [], deadlineOn := false, deadlinePast := false, fromLowPwr := false } }
  let d3 := (d2.updThr 0 fun t => { t with state := .run, pc := BitVec.ofNat 64 (fwEntry img) }).towersTrain
  (d3.faultCauses 4 fun e => { e with boot := { e.boot with phase := .running } }).post 0x0A03 (fwVersion img).toNat

/-- FIRMWARE_LOADED (R55 step 7). -/
def execFirmwareLoaded (s : State) : Outcome State Fault Refusal :=
  s.work fun x => if x.boot.phase = .loading then x.loadFirmware x.image else x

/-- DOWNLOAD_DEADLINE_EXPIRY (R55 step 8, R56); with BOOT_TIMEOUT 0 there is no deadline (R91). -/
def execDownloadDeadlineExpiry (s : State) : Outcome State Fault Refusal :=
  s.run fun x =>
    if !x.boot.deadlineOn ∨ x.boot.timeout = 0 then x
    else
      let y := { x with boot := { x.boot with deadlineOn := false } }
      match y.boot.phase with
      | .waitImage => y.toLowPwr.post 0x0A09 0
      | .verify => { y with boot := { y.boot with deadlinePast := true } }
      | .loading => { y with boot := { y.boot with deadlinePast := true } }
      | _ => y

/-! ## The fused counter -/

/-- SVN_COMMIT: a value above the fused counter and at most the running image's SVN, with no commit busy, from host software or T0;
any other write, the debug port's too, is event 0x0A0C (R64). -/
def Dev.commitSvn (d : Dev) (f : Fuses) (m : Master) (v : Nat) : Dev :=
  if f.svnFused < v ∧ v ≤ d.boot.svnImage ∧ d.boot.svnTarget.isNone ∧ m ≠ .debug then
    { d with boot := { d.boot with svnTarget := some v } }
  else d.post 0x0A0C v

/-- SVN_COMMIT (R64). -/
def execSvnCommit (m : Master) (v : BitVec 7) (s : State) : Outcome State Fault Refusal :=
  s.run fun x => x.byHostOrT0 m 0x10018 fun d => d.commitSvn s.fuse m v.toNat

/-- SVN_FUSE_DONE: the fuses up to the value are blown and BUSY clears (R64). The one command that changes a fuse. -/
def execSvnFuseDone (s : State) : Outcome State Fault Refusal :=
  if s.dev.heldInReset then .next s
  else match s.dev.boot.svnTarget with
    | some v => .next { s with
        dev := { s.dev with boot := { s.dev.boot with svnTarget := none } }, fuse := { s.fuse with svnFused := max s.fuse.svnFused v } }
    | none => .next s

/-! ## Attestation -/

/-- 100 ms of event time, in 4 ns units (R65, R85). -/
def attestGap : Nat := 25000000

/-- REQ: accepted in RUNNING, no sooner than 100 ms after the previous one (R65). -/
def Dev.reqAttest (d : Dev) : Dev :=
  let early := d.boot.attestLast.any fun t => decide ((d.evt.time - t).toNat < attestGap)
  if d.boot.phase ≠ .running ∨ early then d
  else { d with boot := { d.boot with attestDone := false, attestPending := true, attestLast := some d.evt.time } }

/-- ATTEST_REQ (R65). -/
def execAttestReq (m : Master) (s : State) : Outcome State Fault Refusal :=
  s.run fun x => x.byHostOrT0 m 0x10020 Dev.reqAttest

/-- Number of a partition state (R225). -/
def PState.num (p : PState) : Nat :=
  match p with
  | .none => 0
  | .blank => 1
  | .loading => 2
  | .placed => 3
  | .frozen => 4
  | .running => 5
  | .draining => 6
  | .halted => 7

/-- The signed part of the attestation report (R66). -/
def Dev.report (d : Dev) (f : Fuses) : List Byte :=
  let parts := d.partsIn fun (q : Part) => decide (q.state ≠ PState.none)
  let drv := if d.boot.locked then d.boot.drv1.toNat * 2 ^ 64 + d.boot.drv0.toNat else 0
  leBytes 4 0x54415A56 ++ leBytes 2 1 ++ leBytes 2 0 ++ leBytes 4 (0x98 + 40 * parts.length + 384 + 16224) ++
  leBytes 1 f.lifecycle.toNat ++ leBytes 3 0 ++ leBytes 32 d.boot.nonce.toNat ++ leBytes 16 f.serial.toNat ++
  leBytes 48 d.boot.imageDigest.toNat ++ leBytes 2 d.boot.svnImage ++ leBytes 2 f.svnFused ++
  leBytes 4 d.boot.fwVersion.toNat ++ leBytes 8 d.evt.time.toNat ++ leBytes 16 drv ++ leBytes 4 parts.length ++ leBytes 4 0 ++
  parts.flatMap fun p => leBytes 1 p ++ leBytes 1 (d.part p).state.num ++ leBytes 6 0 ++ leBytes 32 (d.part p).root.toNat

/-- ATTEST_DONE: the signed report is at BAR2 offset 0, with event 0x0A50 (R65, R66). -/
def execAttestDone (s : State) : Outcome State Fault Refusal :=
  s.work fun x =>
    if !x.boot.attestPending then x
    else
      let body := x.report s.fuse
      let l := body ++ (Config.rsaSign x.free body).take 384 ++ (Config.slhSign (x.free + 1) body).take 16224
      { x.draw 2 with boot := { x.boot with bar2 := zsetBytes [] 0 l, attestPending := false, attestDone := true } }.post 0x0A50
        (0x98 + 40 * (x.partsIn fun (q : Part) => decide (q.state ≠ PState.none)).length + 384 + 16224)

/-! ## Features -/

/-- The bits a feature bit depends on (R69). -/
def featureNeeds (k : Nat) : List Nat :=
  if k = 4 then [14] else if k = 6 then [5] else if k = 15 then [0] else if k = 17 then [14] else []

/-- The accepted bits that are not offered or lack a bit they depend on: the lowest, and whether a dependency is missing (R68). -/
def rejectOf (offer0 offer1 drv0 drv1 : Word) : Option (Nat × Bool) :=
  let acc (k : Nat) : Bool := if k < 64 then drv0.getLsbD k else drv1.getLsbD (k - 64)
  let off (k : Nat) : Bool := if k < 64 then offer0.getLsbD k else offer1.getLsbD (k - 64)
  match (span 0 128).find? fun k => acc k && (!off k || (featureNeeds k).any fun y => !acc y) with
  | some k => some (k, off k)
  | none => none

/-- FEATURES_OK: the set locks or is rejected (R67, R68); with NORAK the ports of the enabled rings train (R469). -/
def Dev.submitFeatures (d : Dev) (f : Fuses) : Dev :=
  if d.boot.locked ∨ d.boot.phase ≠ .running then d
  else match rejectOf f.offer0 f.offer1 d.boot.drv0 d.boot.drv1 with
    | some (k, dep) =>
      { d with boot := { d.boot with rejected := true, rejectBit := BitVec.ofNat 8 k, rejectCause := dep } }.post 0x0A0A
        (b2n dep * 2 ^ 8 + k)
    | none =>
      let d1 := { d with boot := { d.boot with locked := true, rejected := false } }.post 0x0A0B 0
      (d1.trainRing 0).trainRing 1

/-- FEATURES_OK (R67). -/
def execFeaturesOk (m : Master) (s : State) : Outcome State Fault Refusal :=
  s.run fun x => x.byHostOrT0 m 0x30 fun d => d.submitFeatures s.fuse

/-! ## Training of the memories -/

/-- Nodes of each stored level of a channel's tree, from the blocks of level 0: `n` levels (R396). -/
def treeNodes (blocks : Nat) : Nat → Nat
  | 0 => 0
  | n + 1 => (blocks + 7) / 8 + treeNodes ((blocks + 7) / 8) n

/-- Levels of the tree of a channel: the smallest N with S ÷ 4,096 ÷ 8^N at most 8 (R396). -/
def treeLevels (bytes : Nat) : Nat := ((span 0 16).find? fun n => decide (bytes / 4096 ≤ 8 * 8 ^ n)).getD 16

/-- The carve-out of a channel of `s` bytes, in 64 MiB units (R410). -/
def carveUnits (s : Nat) (verified : Bool) : Nat :=
  let meta_ := if verified then s / 8 + s / 64 + 64 * treeNodes (s / 4096) (treeLevels s) else 0
  (s / 16 + meta_ + 2 ^ 26 - 1) / 2 ^ 26

/-- The cause for which the modules of a channel break the rules of R349, as in event 0x0341 (R384). -/
def moduleFault (l : List Module) : Option Nat :=
  let mixed := match l with
    | a :: b :: _ => decide (a.org ≠ b.org) || (a.tds != b.tds) || (a.rdimm != b.rdimm)
    | _ => false
  if l.any (fun (m : Module) => !m.rdimm || !m.wide) then some 2
  else if mixed then some 3
  else if l.any (fun (m : Module) => decide (128 < m.gib)) then some 4
  else none

/-- Bases of the channels: each range stands directly above those of lower channels (R351). -/
def Dev.placeChannels (d : Dev) : Dev :=
  forAll (span 0 8) d fun e c =>
    if (e.chan c).mapped then
      e.updChan c fun x => { x with base := ((span 0 c).map fun b => (e.chan b).user).foldl (· + ·) 0 }
    else e

/-- A channel excluded by a KIND 9 entry is not mapped (R562). -/
def Dev.excluded (d : Dev) (c : Nat) : Bool :=
  d.repairs.any fun e => decide (repairKind e.2 = 9) && decide (bits e.2 0 3 = c)

/-- A trained channel is mapped with its layout (R349, R351, R410). -/
def Dev.mapChannel (d : Dev) (c : Nat) (l : List Module) : Dev :=
  let gib := (l.map fun (m : Module) => m.gib).foldl (· + ·) 0
  let v := d.feat 4
  let carve := carveUnits (gib * 2 ^ 30) v
  let d1 := d.updChan c fun x =>
    { x with state := .active, rate := decide (l.length = 2), tds := l.any (fun (m : Module) => m.tds), dimms := l.length, gib := gib,
             verified := v, levels := if v then treeLevels (gib * 2 ^ 30) else 0, carve := carve, user := gib * 16 - carve,
             mapped := true }
  d1.placeChannels

/-- DDR5_TRAINING_DONE (R349, R562): at the lock a channel's modules are checked and trained; a channel that retrains keeps its
range. -/
def Dev.ddrTrained (d : Dev) (c : Nat) (modules : List Module) (trained : Bool) : Dev :=
  let x := d.chan c
  if 8 ≤ c ∨ 2 < modules.length ∨ !d.feat 14 then d
  else match x.state with
    | .absent =>
      if modules.isEmpty then d
      else if d.excluded c then d.updChan c fun y => { y with state := .off }
      else match moduleFault modules with
        | some cause => d.failChan c cause
        | none => if trained then d.mapChannel c modules else d.failChan c 1
    | .training =>
      if trained then
        d.updChan c fun y => { y with state := .active, restoring := false }
      else d.failChan c 1
    | _ => d

/-- DDR5_TRAINING_DONE (R349). -/
def execDdr5TrainingDone (c : Nat) (modules : List Module) (trained : Bool) (s : State) : Outcome State Fault Refusal :=
  s.work fun x => x.ddrTrained c modules trained

/-- KEYSETs that wait for metadata start again (R400). -/
def Dev.retryKeysets (d : Dev) : Dev :=
  (d.ops.filter fun o => decide (o.dop = 0x13) && decide (o.phase = .queued)).foldl (fun e o =>
    (e.updOp o.thread o.slot fun y => { y with phase := .run }).startKeyset { o with phase := .run }) d

/-- VERIFIED_META_INIT_DONE: the counter blocks are zero under new tree keys; event 0x0417 when every mapped channel is ready (R396,
R400). -/
def Dev.metaInit (d : Dev) (c : Nat) : Dev :=
  let x := d.chan c
  if 8 ≤ c ∨ !d.feat 4 ∨ !x.mapped ∨ x.state ≠ .active ∨ x.metaReady then d
  else
    let d1 := d.updChan c fun y => { y with metaReady := true, treeKey := Config.treeKey d.ime.treeSeed }
    let d2 := { d1 with ime := { d1.ime with
      counters := d1.ime.counters.filter (fun (e : Nat × Counter) => decide (e.1 / 2 ^ 32 ≠ c)), treeSeed := d1.ime.treeSeed + 1,
      ccLines := d1.ime.ccLines.filter (fun (e : Nat × Nat) => decide (e.2 / 2 ^ 48 ≠ c)),
      mcLines := d1.ime.mcLines.filter (fun (e : Nat × Nat) => decide ((e.2 - 2 ^ 60) / 2 ^ 48 ≠ c)),
      mcDirty := d1.ime.mcDirty.filter (fun (k : Nat) => decide ((k - 2 ^ 60) / 2 ^ 48 ≠ c)),
      lagging := d1.ime.lagging.filter (fun (e : Nat × List Byte) => decide (e.1 / 2 ^ 48 ≠ c)) } }
    if d2.metaReady then
      let mask := ((span 0 8).filter fun b => (d2.chan b).mapped).foldl (fun n b => n + 2 ^ b) 0
      (d2.postFree 0x0417 mask).retryKeysets
    else d2

/-- VERIFIED_META_INIT_DONE (R400). -/
def execVerifiedMetaInitDone (c : Nat) (s : State) : Outcome State Fault Refusal := s.work fun x => x.metaInit c

/-- The spare bump of a repair's group serves another failed bump already (R344, R556). -/
def Dev.bumpTaken (d : Dev) (w : Nat) : Bool :=
  ((d.repairs.map (·.2)) ++ d.rel.unrecorded.map (·.toNat)).any fun y =>
    decide (repairKind y = 7) && decide (bits y 18 10 = bits w 18 10) && decide (y ≠ w)

/-- Failed bumps that training found are recorded on their groups' spares; whether every group had one (R344, R557). -/
def Dev.recordBumps (d : Dev) : List Repair → Dev × Bool
  | [] => (d, true)
  | r :: rest =>
    if d.bumpTaken (7 * 2 ^ 28 + r.2.toNat) then ((d.recordBumps rest).1, false)
    else (d.recordRepair 7 r.2.toNat).recordBumps rest

/-- MARL_TRAINING_DONE (R344, R558). -/
def Dev.marlTrained (d : Dev) (m : Nat) (repairs : List Repair) (ok : Bool) : Dev :=
  if 4 ≤ m ∨ (d.tower m).state ≠ .training ∨ repairs.any (fun (r : Repair) => decide (r.1 ≠ 7) || decide (bits r.2.toNat 26 2 ≠ m)) then d
  else match d.recordBumps repairs with
    | (e, false) => e.failTower m 2
    | (e, true) => if ok then (e.applyTraining 7 m).updTower m fun t => { t with state := .active } else e.failTower m 1

/-- MARL_TRAINING_DONE (R344). -/
def execMarlTrainingDone (m : Nat) (repairs : List Repair) (ok : Bool) (s : State) : Outcome State Fault Refusal :=
  s.work fun x => x.marlTrained m repairs ok

end Sys2Proof.Machine
end

