-- ==== Sys2Proof/Machine/HostLink.lean ====
section
/-! DEFINITION. The host link: VF Enable (R52), link-down (R53, R320, R452), the DOE mailbox with SPDM and IDE_KM (R426, R427), and
the IDE check of a TLP (R428). -/
namespace Sys2Proof.Machine
open Host

/-! ## VF Enable and the link -/

/-- Partitions that exist. -/
def Dev.existing (d : Dev) : List Nat := d.partsIn fun (q : Part) => decide (q.state ≠ PState.none)

/-- Functions whose disable begins now: those not draining yet (R451 step 1). -/
def Dev.startDrains (d : Dev) (l : List DrainFn) : Dev :=
  let fresh := l.filter fun (f : DrainFn) => !d.noc.draining.contains f
  { d with noc := { d.noc with draining := d.noc.draining ++ fresh } }

/-- VF Enable is set: a disable still under way ends, but that of a partition's own drain (R451 step 5). -/
def Dev.setVfEnable (d : Dev) : Dev :=
  let ends (f : DrainFn) : Bool := match f with
    | .vf p => !d.rst.parts.any fun (r : PartReset) => decide (r.part = p) && r.flr
    | .dma p => decide ((d.part p).state ≠ PState.draining)
    | _ => false
  { d with
    pcie := { d.pcie with vfEnable := true }
    noc := { d.noc with draining := d.noc.draining.filter fun (f : DrainFn) => !ends f } }

/-- VF Enable clears: the VFs and their channels are disabled, and the VFs' Bus Master Enables are gone with them (R52, R452). -/
def Dev.clearVfEnable (d : Dev) : Dev :=
  if d.pcie.vfEnable then
    { d with pcie := { d.pcie with
        vfEnable := false, busMaster := d.pcie.busMaster.filter fun n => decide (n = 0),
        aer := d.pcie.aer.filter fun e => decide (e.1 = 0) } }.startDrains
      (d.existing.flatMap fun p => [DrainFn.dma p, DrainFn.vf p])
  else d

/-- VF_ENABLE_WRITE: a write that sets the bit is ignored while the set is unlocked or SRIOV is not accepted (R52, R69, R70). -/
def execVfEnableWrite (v : Bool) (s : State) : Outcome State Fault Refusal :=
  s.run fun x =>
    if !x.pcie.linkUp then x
    else if v then (if x.feat 0 then x.setVfEnable else x)
    else x.clearVfEnable

/-- Event code of a link-down, also that of the operations it ends (R53, R320). -/
def downCode (cause : LinkDownCause) : Nat :=
  match cause with
  | .refclk => 0x0A12
  | .other _ => 0x0A40

/-- Detail of a link-down's event (R90). -/
def downDetail (cause : LinkDownCause) : Nat :=
  match cause with
  | .refclk => 0
  | .other l => l.toNat

/-- One DMA channel is disabled with a forced disable: it halts, its operations, held ones among them, complete with the link-down's code, and the
forced-disable event gives their count (R320, R452). -/
def Dev.downChannel (d : Dev) (code detail p : Nat) : Dev :=
  let l := d.ops.filter fun o => decide (o.dop = 0x0E) && decide (o.part = p)
  let d1 := { d with pcie := { d.pcie with dmaHalt := p :: d.pcie.dmaHalt.filter (· ≠ p) } }
  let d2 := l.foldl (fun e o => e.endDma o code detail 0) d1
  if l.isEmpty then d2 else d2.postDrain (.dma p) 0x0511 l.length

/-- PCIE_LINK_DOWN (R53). -/
def Dev.linkDown (d : Dev) (cause : LinkDownCause) : Dev :=
  let d1 := d.existing.foldl (fun e p => e.downChannel (downCode cause) (downDetail cause) p)
    (d.downChannel (downCode cause) (downDetail cause) 0)
  let d2 := if d1.pcie.vfEnable then d1.startDrains (d1.existing.map DrainFn.vf) else d1
  { d2 with pcie := { d2.pcie with
    linkUp := false, vfEnable := false, vfMse := false, busMaster := [], bars := [], aer := [], session := 0 } }.post (downCode cause) (downDetail cause)

/-- PCIE_LINK_DOWN (R53). -/
def execPcieLinkDown (cause : LinkDownCause) (s : State) : Outcome State Fault Refusal :=
  s.run fun x => if x.pcie.linkUp then x.linkDown cause else x

/-! ## The DOE mailbox -/

/-- The mailbox answers: the link is up, configuration requests are served, and no seal halt stands (R418, R426). -/
def Dev.doeOpen (d : Dev) : Bool := d.pcie.linkUp && !d.pcie.crs && !d.ime.sealed

/-- An answer in the mailbox. -/
def Dev.answer (d : Dev) (r : DoeReply) : Dev := { d with pcie := { d.pcie with doe := some r } }

/-- SPDM_REQUEST (R426). -/
def execSpdmRequest (r : SpdmReq) (s : State) : Outcome State Fault Refusal :=
  s.run fun x =>
    if !x.doeOpen then x
    else match r with
      | .version => x.answer .version
      | .certificate => x.answer (.certificate Config.deviceCert)
      | .measurement => x.answer (.measurement x.boot.imageDigest)
      | .session =>
        let y := { x with pcie := { x.pcie with session := x.pcie.session + 1 } }
        y.answer .session

/-- An IDE_KM message: inside an SPDM session's secured messages (R426). -/
def Dev.ideKm (d : Dev) (body : Dev → Dev) : Dev := if d.doeOpen ∧ d.pcie.session ≠ 0 then body d else d

/-- IDE_KM_QUERY (R426). -/
def execIdeKmQuery (s : State) : Outcome State Fault Refusal :=
  s.run fun x => x.ideKm fun d => d.answer (.query (d.feat 1) (d.feat 2))

/-- IDE_KM may program the stream: 0 the link stream, 1 to 4 the selective streams (R426, R427). -/
def Dev.ideMay (d : Dev) (stream sub : Nat) : Bool :=
  decide (sub ≤ 2) && decide (stream ≤ 4) && (if stream = 0 then d.feat 1 else d.feat 2)

/-- The key slot of a stream, sub-stream, direction and key set. -/
def IdeKey.named (k : IdeKey) (stream sub : Nat) (rx set : Bool) : Bool :=
  decide (k.stream = stream) && decide (k.sub = sub) && (k.rx == rx) && (k.set == set)

/-- IDE_KM_KEY_PROG (R427). -/
def execIdeKmKeyProg (stream sub : Nat) (rx set : Bool) (key : BitVec 256) (s : State) : Outcome State Fault Refusal :=
  s.run fun x => x.ideKm fun d =>
    if d.ideMay stream sub then
      let rest := d.pcie.ide.filter fun (k : IdeKey) => !k.named stream sub rx set
      let slot : IdeKey := { stream := stream, sub := sub, rx := rx, set := set, key := key, active := false }
      let e := { d with pcie := { d.pcie with ide := rest ++ [slot] } }
      e.answer .keyOk
    else d.answer .keyError

/-- A key set is the one in use, or no longer. -/
def Dev.ideActive (d : Dev) (stream sub : Nat) (rx set on : Bool) : Dev :=
  let turn (k : IdeKey) : IdeKey :=
    if k.named stream sub rx set then { k with active := on }
    else if on && k.named stream sub rx (!set) then { k with active := false } else k
  { d with pcie := { d.pcie with ide := d.pcie.ide.map turn } }

/-- IDE_KM_K_SET_GO: the key set is in use and the stream secure, with event 0x0441 when it was not (R426, R428). -/
def Dev.ideGo (d : Dev) (stream sub : Nat) (rx set : Bool) : Dev :=
  if d.pcie.ide.any fun (k : IdeKey) => k.named stream sub rx set then
    let d1 := (d.ideActive stream sub rx set true).answer .setDone
    if d1.pcie.ideSecure.contains stream then d1
    else
      ({ d1 with pcie := { d1.pcie with
        ideSecure := stream :: d1.pcie.ideSecure, ideInsecure := d1.pcie.ideInsecure.filter fun n => decide (n ≠ stream) } }).post
          0x0441 stream
  else d

/-- IDE_KM_K_SET_GO (R426). -/
def execIdeKmKSetGo (stream sub : Nat) (rx set : Bool) (s : State) : Outcome State Fault Refusal :=
  s.run fun x => x.ideKm fun d => d.ideGo stream sub rx set

/-- IDE_KM_K_SET_STOP: the key set is in use no longer; a stream without one is not secure (R426). -/
def Dev.ideStop (d : Dev) (stream sub : Nat) (rx set : Bool) : Dev :=
  let d1 := d.ideActive stream sub rx set false
  let still := d1.pcie.ide.any fun (k : IdeKey) => decide (k.stream = stream) && k.active
  ({ d1 with pcie := { d1.pcie with
    ideSecure := if still then d1.pcie.ideSecure else d1.pcie.ideSecure.filter fun n => decide (n ≠ stream) } }).answer .setDone

/-- IDE_KM_K_SET_STOP (R426). -/
def execIdeKmKSetStop (stream sub : Nat) (rx set : Bool) (s : State) : Outcome State Fault Refusal :=
  s.run fun x => x.ideKm fun d => d.ideStop stream sub rx set

/-- AER uncorrectable error status of a function (R47). -/
def Pcie.aerOf (x : Pcie) (fn : Nat) : BitVec 32 := tget x.aer fn 0

/-- AER of a function logs an uncorrectable error, with event 0x0A41 (R47, R90; the status bits are the PCIe base specification's, log
4). -/
def Dev.logAer (d : Dev) (fn status : Nat) : Dev :=
  ({ d with pcie := { d.pcie with aer := tset d.pcie.aer fn (d.pcie.aerOf fn ||| BitVec.ofNat 32 status) } }).post 0x0A41
    (d.pcie.aerOf fn ||| BitVec.ofNat 32 status).toNat

/-- A received TLP of a stream that failed its IDE check: discarded; the stream is insecure without its keys, AER logs it, event
0x0440; DMA operations whose transfers used it complete with 0x0916 (R428). Which used it the state does not say, for the
association by RID and address lies in the host's configuration: a free value for each, but that all used the link stream where no
selective one is secure (log 33). -/
def Dev.ideFail (d : Dev) (stream fn : Nat) : Dev :=
  let d0 := ({ d with pcie := { d.pcie with
    ide := d.pcie.ide.filter (fun (k : IdeKey) => decide (k.stream ≠ stream))
    ideSecure := d.pcie.ideSecure.filter (fun n => decide (n ≠ stream))
    ideInsecure := stream :: d.pcie.ideInsecure.filter (fun n => decide (n ≠ stream)) } }).logAer fn (2 ^ 28)
  let d1 := d0.post 0x0440 stream
  let l := d1.ops.filter fun o => decide (o.dop = 0x0E) && decide (o.phase ≠ .held)
  let all := decide (stream = 0) && d1.pcie.ideSecure.isEmpty
  ((span 0 l.length).zip l).foldl (fun e (x : Nat × Op) =>
    if all || Config.freeBool (d1.free + x.1) then
      e.endDma x.2 0x0916 (addrDetail (addrOf (BitVec.ofNat 64 (field (e.block x.2 32) 0x10 8)))) 0
    else e) (d1.draw l.length)

end Sys2Proof.Machine
end

