-- ==== Sys2Proof/Machine/Clocks.lean ====
section
/-! DEFINITION. Clocks: what a tick of time does (R39, R85, R276, R479), grain-clock PLLs and frequency changes (R34 to
R37), and loss of the reference (R45, R46). -/
namespace Sys2Proof.Machine
open Host

/-- Plots of a partition that count plot-milliseconds (R569). -/
def Dev.busyPlots (d : Dev) (p : Nat) : Nat :=
  ((d.plotsOf p).filter fun n => (d.plot n).inDesign || decide ((d.plot n).state = PlotState.loading)).length

/-- A millisecond of plot time is counted for every partition (R569). -/
def Dev.plotMs (d : Dev) : Dev :=
  forAll allParts d fun e p => if e.busyPlots p = 0 then e else e.updPart p fun q => { q with plotmsInc := q.plotmsInc + e.busyPlots p }

/-- 20 ns pass with no command waiting (log 19): five 4 ns units of event time, on the reference (five HCLK cycles) and on
the monitor oscillator (two) alike (R39, R85); 16 cycles of the 800 MHz SCLK and 20 ns
of ring time while SYSREFCLK feeds them (R38, R45, R57, R276, R479), with the 40 NCLK cycles of the rings (R439); at each full millisecond the plots count (R569). The event counter stands still in reset (R85). -/
def Dev.tick (d : Dev) : Dev :=
  if d.heldInReset then d
  else
    let d1 := { d with evt := { d.evt with time := d.evt.time + 5 } }
    let d2 := if d1.evt.time.toNat / 250000 = d.evt.time.toNat / 250000 then d1 else d1.plotMs
    if !d.sysClocked then d2
    else { d2 with clk := { d2.clk with scyc := d2.clk.scyc + 16 }, ring := { d2.ring with time := d2.ring.time + 20 } }.netTick

/-- An idle step of the block: the queue is empty and time passes (log 19). -/
def State.tick (s : State) : State := { s with dev := s.dev.tick }

/-! ## The grain-clock target -/

/-- A field held within its limits. -/
def clampTo (lo hi v : Nat) : Nat := min hi (max lo v)

/-- Grain-clock maximum of a band: the smaller of its field and those of every lower band (R537, R544). -/
def Thm.bandMax (t : Thm) (band : Nat) : Nat :=
  let a := clampTo 16 0xA0 t.maxA.toNat
  let b := min a (clampTo 16 0x90 t.maxB.toNat)
  if band = 0 then a else if band = 1 then b else min b (clampTo 16 0x78 t.maxC.toNat)

/-- The grain clock the device is to run: the lower of REQ and the band's maximum, 100 MHz from step 5 of a trip on (R34, R537,
R540). -/
def Thm.wanted (t : Thm) : Nat := if t.tripCold then 16 else min (t.bandMax t.band) (clampTo 16 160 t.req.toNat)

/-- The PLL of a number. -/
def Clk.pll (c : Clk) (n : Bool) : Pll := if n then c.g1 else c.g0

/-- A PLL changed. -/
def Clk.setPll (c : Clk) (n : Bool) (p : Pll) : Clk := if n then { c with g1 := p } else { c with g0 := p }

/-- The frequency on the spines before any stop: the active PLL's, halved while the division of R35 is in force. -/
def Clk.output (c : Clk) : Nat := let f := (c.pll c.active).freq; if c.divided then f / 2 else f

/-- A new target: the spare locks to it, and a target below the output halves the output; a target the active PLL already has ends
the sequence and lifts the division (R35 steps 1 and 2, R36). -/
def Clk.retarget (c : Clk) (t : Nat) : Clk :=
  let c1 := { c with target := t }
  if c.bothLost ∨ c.stopped then c1
  else
    let spare : Pll := { freq := t, locked := false }
    if t = (c.pll c.active).freq then
      { c1 with switching := false, divided := false }.setPll (!c.active) (if c.switching then spare else c.pll (!c.active))
    else { c1 with switching := true, divided := c.divided || decide (t < c.output) }.setPll (!c.active) spare

/-- GCLK_TARGET_CHANGE: the target that the registers and the band ask for is a new one (R34, R35, R537). -/
def execGclkTargetChange (target : Nat) (s : State) : Outcome State Fault Refusal :=
  s.run fun x =>
    if target = x.thm.wanted ∧ target ≠ x.clk.target then { x with clk := x.clk.retarget target } else x

/-- The clocks' own events go on: not while both PLLs are lost, the reference is lost or the PLLs are stopped (R37, R45, R57). -/
def Dev.pllsRun (d : Dev) : Bool := !d.clk.bothLost && decide (d.clk.ref = RefState.good) && !d.boot.pllsStopped

/-- SPARE_PLL_LOCKED: the spines switch to the spare, and the former active PLL is to lock to the new frequency (R35 steps 3 and 4).
-/
def execSparePllLocked (s : State) : Outcome State Fault Refusal :=
  s.run fun x =>
    let c := x.clk
    if x.pllsRun ∧ c.switching then
      let c1 := (c.setPll (!c.active) { freq := c.target }).setPll c.active { freq := c.target, locked := false }
      { x with clk := { c1 with active := !c.active, switching := false, divided := false } }
    else x

/-- SPARE_PLL_RELOCKED: the spare holds the frequency it is to hold (R35 step 4, R36, R37). -/
def execSparePllRelocked (s : State) : Outcome State Fault Refusal :=
  s.run fun x =>
    let c := x.clk
    if x.pllsRun ∧ !c.switching then
      { x with clk := c.setPll (!c.active) { c.pll (!c.active) with locked := true } }
    else x

/-- Number of a PLL in the details of R90. -/
def pllNo (n : Bool) : Nat := b2n n

/-- Both grain-clock PLLs have lost lock: the grain clock stops, every partition freezes at its current microcycle (R37 items 1 and
2). -/
def Dev.pllsLost (d : Dev) (n : Bool) : Dev :=
  let p : Pll := { freq := d.clk.target, locked := false }
  let d1 := forAll allParts d Dev.freezeMicro
  { d1 with clk := { d1.clk with
    g0 := p, g1 := p, switching := false, divided := false, stopped := true, bothLost := true,
    lastLoss := some d.evt.time } }.post 0x0A14 (pllNo n + 2 ^ 8)

/-- GPLL_LOSS_OF_LOCK (R37): a PLL that has not locked has nothing to lose. -/
def Dev.pllLost (d : Dev) (n : Bool) : Dev :=
  let c := d.clk
  if !d.pllsRun ∨ !(c.pll n).locked then d
  else if n ≠ c.active then
    { d with clk := c.setPll n { c.pll n with locked := false } }.post 0x0A14 (pllNo n + 2 ^ 9)
  else if (c.pll (!n)).locked then
    { d with clk := { c.setPll n { c.pll n with locked := false } with active := !n } }.post 0x0A14 (pllNo n)
  else d.pllsLost n

/-- GPLL_LOSS_OF_LOCK (R37). -/
def execGpllLossOfLock (pll : Bool) (s : State) : Outcome State Fault Refusal := s.run fun x => x.pllLost pll

/-- GPLL_RESTART_LOCK: the grain clock restarts from the PLL that locked, event 0x0A15, and the verification pass runs (R37 item 3,
R178). -/
def execGpllRestartLock (pll : Bool) (s : State) : Outcome State Fault Refusal :=
  s.run fun x =>
    let c := x.clk
    if c.bothLost ∧ c.ref = .good ∧ !x.boot.pllsStopped then
      let c1 := (c.setPll pll { freq := c.target }).setPll (!pll) { freq := c.target, locked := false }
      { x with clk := { c1 with active := pll, stopped := false, bothLost := false, lastLoss := none, verify := true } }.post 0x0A15
        (pllNo pll)
    else x

/-- One second in 4 ns units of event time (R85). -/
def evtSecond : Nat := 250000000

/-- GPLL_RETRY_TIMER: the PLL is tried again, with event 0x0A14 at most once per second (R37 item 4). -/
def execGpllRetryTimer (pll : Bool) (s : State) : Outcome State Fault Refusal :=
  s.run fun x =>
    if x.clk.bothLost ∧ x.clk.ref = .good ∧ !x.boot.pllsStopped ∧ !x.clk.lastLoss.any (fun t => decide ((x.evt.time - t).toNat < evtSecond)) then
      { x with clk := { x.clk with lastLoss := some x.evt.time } }.post 0x0A14 (pllNo pll + 2 ^ 8)
    else x

/-! ## Loss of the reference -/

/-- REFCLK_LOST: holdover, HCLK from the monitor oscillator, event 0x0A10; RUNNING partitions are to freeze at their boundaries (R45
steps 1 and 2), and no automatic rewind under way returns one to its run (R46). -/
def execRefclkLost (s : State) : Outcome State Fault Refusal :=
  s.run fun x =>
    if x.clk.ref = .good then
      let y := { x with clk := { x.clk with ref := RefState.holdover, monitor := true } }.post 0x0A10 0
      forAll allParts y fun e p => (e.addFreeze p .refclk).updPart p fun q => { q with resume := false }
    else x

/-- REFCLK_FREEZE_TIMEOUT: what still runs freezes at its current microcycle; memory enters self-refresh and the bypasses close (R45
step 2, R359, R471). -/
def execRefclkFreezeTimeout (s : State) : Outcome State Fault Refusal :=
  s.run fun x => if x.clk.ref = .holdover then (forAll allParts x Dev.freezeMicro).goPassive else x

/-- HOLDOVER_END: every clock fed by SYSREFCLK stops (R45 step 3). -/
def execHoldoverEnd (s : State) : Outcome State Fault Refusal :=
  s.run fun x =>
    if x.clk.ref = .holdover then
      { x with clk := { x.clk with ref := RefState.stopped, stopped := true, divided := false, switching := false,
                                   g0 := { freq := x.clk.target, locked := false }, g1 := { freq := x.clk.target, locked := false } } }
    else x

/-- Memory and ports come back after the reference: units retrain, the bypasses open and the ports retrain (R45 step 4, R429). -/
def Dev.leavePassive (d : Dev) : Dev :=
  let d1 := { d with mem := { d.mem with selfRefresh := false }, ring := { d.ring with bypassed := false } }.unitsTo .selfRefresh .training
  forAll (span 0 4) d1 fun e n => if e.mayTrain n then e.trainPort n else e.updRport n fun x =>
    { x with state := if (e.rctl (n / 2)).state = .off then .bypass else .down }

/-- REFCLK_RESTORED: the PLLs relock, event 0x0A11; after a stop of the grain clock the verification pass runs; partitions stay FROZEN
(R45 step 4, R46, R178). -/
def execRefclkRestored (s : State) : Outcome State Fault Refusal :=
  s.run fun x =>
    if x.clk.ref = .good then x
    else
      let c := x.clk
      let p : Pll := { freq := c.target }
      let c1 := if c.stopped ∨ c.bothLost then
          { c with g0 := p, g1 := p, stopped := false, bothLost := false, lastLoss := none, verify := true }
        else c
      let y := { x with clk := { c1 with ref := RefState.good, monitor := false } }.post 0x0A11 0
      if y.svcCut ∨ !y.mem.selfRefresh then y else y.leavePassive

end Sys2Proof.Machine
end

