-- ==== Sys2Proof/Machine/Thermal.lean ====
section
/-! DEFINITION. Power samples (R28, R529), the thermal model and the sensor checks (R525 to R534), bands and rates of rise (R535 to
R538), trips (R539, R540), and the grain-clock registers (R537). Temperatures are in units of 0.25 °C. -/
namespace Sys2Proof.Machine
open Host

/-! ## Power -/

/-- The THM_POWER group of a rail group, numbered in the order of R28: VCORE_HP, LA, LB, VKAOL_A, B, VMARL0 to 3, then the other
hardpan groups (R28, R544). -/
def powerGroup (rail : Nat) : Nat :=
  match rail with
  | 0 => 0
  | 1 => 1
  | 2 => 4
  | 3 => 2
  | 4 => 3
  | 5 => 5
  | 6 => 6
  | 7 => 7
  | 8 => 8
  | _ => 0

/-- Maximum of a group in mW (R30); a tower's is a quarter of the four towers' (log 34). -/
def powerMax (g : Nat) : Nat :=
  if g = 0 then 140000 else if g = 1 ∨ g = 4 then 190000 else if g = 2 ∨ g = 3 then 35000 else 15000

/-- The power of a group in one sample, none when a rail of it is missing or out of range. -/
def samplePower (mw : List (Option Nat)) (g : Nat) : Option Nat :=
  ((span 0 37).filter fun i => decide (powerGroup i = g)).foldl (fun a i => match a, mw.getD i none with
    | some x, some y => some (x + y)
    | _, _ => none) (some 0)

/-- POWER_SAMPLE: the 37 groups are sampled; a fault is posted and counted once (R28, R529). -/
def Dev.samplePowers (d : Dev) (mw : List (Option Nat)) : Dev :=
  let d1 := { d with thm := { d.thm with samples := d.thm.samples ++ [mw] } }
  forAll (span 0 9) d1 fun e g =>
    if (samplePower mw g).isNone ∧ !e.thm.pfault.contains g then
      { e with thm := { e.thm with pfault := g :: e.thm.pfault, pfaults := sat1 e.thm.pfaults } }.post 0x070B g
    else e

/-- POWER_SAMPLE (R28). -/
def execPowerSample (mw : List (Option Nat)) (s : State) : Outcome State Fault Refusal := s.run fun x => x.samplePowers mw

/-- POWER_FAULT_RECOVERY: after 1 ms of good samples the measured power is used again (R529). -/
def execPowerFaultRecovery (g : Nat) (s : State) : Outcome State Fault Refusal :=
  s.run fun x =>
    if x.thm.samples.all fun l => (samplePower l g).isSome then
      { x with thm := { x.thm with pfault := x.thm.pfault.filter fun y => decide (y ≠ g) } }
    else x

/-- The power of a group over the samples since the last step: their mean, the group's maximum while its fault is in force (R528,
R529). -/
def Thm.stepPower (t : Thm) (g : Nat) : Nat :=
  let l := t.samples.filterMap fun x => samplePower x g
  if t.pfault.contains g then powerMax g
  else if l.isEmpty then tget t.power g 0
  else l.foldl (· + ·) 0 / l.length

/-! ## Sensors -/

/-- Offset of a sensor: a signed byte of keep registers 384 to 475 (R526). -/
def Dev.sensorOffset (d : Dev) (n : Nat) : Int := (BitVec.ofNat 8 (bits (d.keepVal (384 + n / 4)) (8 * (n % 4)) 8)).toInt

/-- The grid of a cell sensor: first sensor and width (R525). -/
def sensorGrid (n : Nat) : Nat × Nat := if n < 256 then (n / 64 * 64, 8) else (256, 4)

/-- Neighbours of a sensor (R531). -/
def neighbours (n : Nat) : List Nat :=
  if n < 272 then
    let g := sensorGrid n
    let x := (n - g.1) % g.2
    let y := (n - g.1) / g.2
    (if 0 < x then [n - 1] else []) ++ (if x + 1 < g.2 then [n + 1] else []) ++
    (if 0 < y then [n - g.2] else []) ++ (if y + 1 < g.2 then [n + g.2] else [])
  else
    let t := (n - 272) % 24
    [if n % 2 = 0 then n + 1 else n - 1] ++ (if 2 ≤ t then [n - 2] else []) ++ (if t + 2 < 24 then [n + 2] else [])

/-- Nodes of a sensor's cells or die (R525, R527). -/
def sensorNodes (n : Nat) : List Nat :=
  if n < 256 then [64 + n]
  else if n < 272 then
    let x := (n - 256) % 4
    let y := (n - 256) / 4
    [16 * y + 2 * x, 16 * y + 2 * x + 1, 16 * y + 8 + 2 * x, 16 * y + 8 + 2 * x + 1]
  else [320 + (n - 272) / 2]

/-- Estimate of a node. -/
def Dev.estimate (d : Dev) (n : Nat) : Int := tget d.thm.est n 0

/-- Estimate that a sensor is checked against: its node's, the mean of its cells' for a hardpan sensor (R531). -/
def Dev.sensorEst (d : Dev) (n : Nat) : Int :=
  let l := sensorNodes n
  (l.map d.estimate).foldl (· + ·) 0 / (l.length : Int)

/-- A sorted list with a value inserted. -/
def insertInt (x : Int) : List Int → List Int
  | [] => [x]
  | y :: r => if x ≤ y then x :: y :: r else y :: insertInt x r

/-- Twice the median of a list: with an even count, the sum of the two middle values (R531). -/
def median2 (l : List Int) : Int :=
  let s := l.foldr insertInt []
  let n := s.length
  if n % 2 = 1 then 2 * s.getD (n / 2) 0 else s.getD (n / 2 - 1) 0 + s.getD (n / 2) 0

/-- The neighbour check of a sensor fails (R531). -/
def Dev.neighbourFails (d : Dev) (n : Nat) : Bool :=
  let l := (neighbours n).filter fun i => !(d.sensor i).suspect && !(d.sensor i).invalid
  !l.isEmpty && decide (48 < (2 * (d.sensor n).reading - median2 (l.map fun i => (d.sensor i).reading)).natAbs)

/-- The model check of a sensor fails (R531). -/
def Dev.modelFails (d : Dev) (n : Nat) : Bool :=
  let l := sensorNodes n
  decide (32 * l.length < (l.length * (d.sensor n).reading - (l.map d.estimate).foldl (· + ·) 0).natAbs)

/-- Rise of a sensor's reading over the last 10 ms, none before 100 steps have passed (R532, R538); `back` is how many steps the
history's latest entry lies before now. -/
def Thm.riseOf (t : Thm) (back : Nat) (now : Int) (pick : Tab Int × Tab Int → Int) : Option Int :=
  (t.hist[100 - back]?).map fun h => now - pick h

/-- The rising-neighbour rule holds for a kaolin sensor (R532). -/
def Dev.risingNeighbour (d : Dev) (n : Nat) : Bool :=
  let c := n % 64
  let rise (i : Nat) : Option Int := d.thm.riseOf 1 (d.sensor i).reading fun h => tget h.1 i 0
  let more (i : Nat) : Bool := match rise i, rise n with
    | some a, some b => !(d.sensor i).suspect && decide (12 ≤ a - b)
    | _, _ => false
  decide (64 ≤ n) && decide (n < 192) && d.modelFails n && more c && more (192 + c)

/-- A sensor's new sample: the reading with its offset, or invalid (R526). -/
def Dev.takeSample (d : Dev) (n : Nat) (v : Option Int) : Dev :=
  { d with thm := { d.thm with sensors := tupd d.thm.sensors n {} fun x => match v with
    | some r => { x with reading := r + d.sensorOffset n, invalid := false }
    | none => { x with invalid := true } } }

/-- The checks of a plausible sensor, on the readings of this step: when it becomes suspect, with event 0x0704 (R531, R532). -/
def Dev.checkSensor (d : Dev) (before : Dev) (n : Nat) : Dev :=
  let x := before.sensor n
  if x.suspect then d
  else
    let nb := !x.invalid && before.neighbourFails n
    let mo := !x.invalid && before.modelFails n
    let ri := !x.invalid && before.risingNeighbour n
    let fails := if nb && mo then x.fails + 1 else 0
    let rises := if ri then x.rises + 1 else 0
    let bad := x.invalid || decide (3 ≤ fails) || decide (3 ≤ rises)
    let d1 := { d with thm := { d.thm with sensors := tset d.thm.sensors n { x with fails := fails, rises := rises, suspect := bad } } }
    if bad then d1.post 0x0704 (n + b2n nb * 2 ^ 9 + b2n mo * 2 ^ 10 + b2n ri * 2 ^ 11 + b2n x.invalid * 2 ^ 12) else d1

/-- Blocks of R533: 2 × 2 adjacent sensors of one grid, and two adjacent dies of one tower. -/
def sensorBlocks : List (List Nat) :=
  ((span 0 4).flatMap fun g => (span 0 7).flatMap fun y => (span 0 7).map fun x =>
    let n := 64 * g + 8 * y + x
    [n, n + 1, n + 8, n + 9]) ++
  ((span 0 3).flatMap fun y => (span 0 3).map fun x =>
    let n := 256 + 4 * y + x
    [n, n + 1, n + 4, n + 5]) ++
  ((span 0 4).flatMap fun m => (span 0 11).map fun t => span (272 + 24 * m + 2 * t) 4)

/-- A block is guarded: two or more of its sensors are suspect (R533). -/
def Dev.blockGuarded (d : Dev) (b : List Nat) : Bool := decide (2 ≤ (b.filter fun n => (d.sensor n).suspect).length)

/-- The guarded sensors and control values, from the suspects and estimates (R533, R534). -/
def Dev.setControls (d : Dev) : Dev :=
  let guarded := (sensorBlocks.filter d.blockGuarded).flatten
  let value (n : Nat) : Int :=
    let x := d.sensor n
    let est := match (sensorNodes n).map d.estimate with
      | a :: r => r.foldl max a
      | [] => 0
    if guarded.contains n then est + 20 else if x.suspect then est else x.reading
  let control (n : Nat) : Int := if n < 272 then value n else max (value (n / 2 * 2)) (value (n / 2 * 2 + 1))
  { d with thm := { d.thm with sensors := (span 0 368).map fun n =>
      (n, { d.sensor n with guarded := guarded.contains n, control := control n }) } }

/-- Event 0x0706 for each block that a step made guarded (R533). -/
def Dev.postGuards (d old : Dev) : Dev :=
  (sensorBlocks.filter fun b => d.blockGuarded b && !old.blockGuarded b).foldl (fun e b => e.post 0x0706 (b.headD 0)) d

/-! ## Bands -/

/-- Domains of bands: 0 the device, 1 kaolin A, 2 kaolin B, 4 to 7 the towers (R543). -/
def bandDomains : List Nat := [0, 1, 2, 4, 5, 6, 7]

/-- Highest control value of a domain's own cells or dies (R535, R536). -/
def Dev.domainHot (d : Dev) (dom : Nat) : Int :=
  if dom = 0 then d.hottest 0 272
  else if dom = 1 then d.hottest 64 64
  else if dom = 2 then d.hottest 128 64
  else d.hottest (272 + 24 * (dom - 4)) 24

/-- Band of a domain on its control values alone. -/
def Thm.cells (t : Thm) (dom : Nat) : Nat := tget t.cellBand dom 0

/-- Band of the device or a tower: raised by one, up to C, while a rate action is in force (R535, R538). -/
def Thm.raised (t : Thm) (dom : Nat) : Nat :=
  if t.acts.contains dom then max (t.cells dom) (min 2 (t.cells dom + 1)) else t.cells dom

/-- Band in force of a domain (R535, R536, R539, R540). -/
def Thm.bandOf (t : Thm) (dom : Nat) : Nat :=
  let dev := if t.trip then 3 else t.raised 0
  if dom = 0 then dev
  else if dom = 1 ∨ dom = 2 then max dev (t.cells dom)
  else if t.towerTrip.contains (dom - 4) then 3 else t.raised dom

/-- Band shown for a domain. -/
def Dev.shownBand (d : Dev) (dom : Nat) : Nat :=
  if dom = 0 then d.thm.band else if dom = 1 then d.thm.bandKA else if dom = 2 then d.thm.bandKB else (d.tower (dom - 4)).band

/-- A domain takes a band. -/
def Dev.showBand (d : Dev) (dom b : Nat) : Dev :=
  if dom = 0 then { d with thm := { d.thm with band := b } }
  else if dom = 1 then { d with thm := { d.thm with bandKA := b } }
  else if dom = 2 then { d with thm := { d.thm with bandKB := b } }
  else d.updTower (dom - 4) fun t => { t with band := b }

/-- Regions of a tier start a catch-up pass on a move to a higher band (R176). -/
def Dev.catchUpTier (d : Dev) (first band : Nat) : Dev :=
  let l := span first 256
  { d with fab := { d.fab with
    catchUp := d.fab.catchUp.filter (fun n => !l.contains n) ++ l
    refreshBand := l.foldl (fun t n => tset t n (min 2 band)) d.fab.refreshBand
    refreshRow := l.foldl (fun t n => tset t n 0) d.fab.refreshRow } }

/-- A domain's band changes, with event 0x0701 (R535, R543). -/
def Dev.changeBand (d : Dev) (dom : Nat) : Dev :=
  let old := d.shownBand dom
  let new := d.thm.bandOf dom
  if old = new then d
  else
    let d1 := (d.showBand dom new).post 0x0701 (new + 4 * old + 16 * dom)
    if min 2 old < min 2 new ∧ dom = 1 then d1.catchUpTier 0 new
    else if min 2 old < min 2 new ∧ dom = 2 then d1.catchUpTier 256 new
    else d1

/-- Every band is set. -/
def Dev.setBands (d : Dev) : Dev := bandDomains.foldl Dev.changeBand d

/-- Band that a control value enters (R535). -/
def bandEntered (v : Int) : Nat := if 380 < v then 2 else if 340 < v then 1 else 0

/-- Bands on control values rise at once (R535). -/
def Dev.raiseCells (d : Dev) : Dev :=
  { d with thm := { d.thm with cellBand := bandDomains.map fun k => (k, max (d.thm.cells k) (bandEntered (d.domainHot k))) } }

/-! ## Trips -/

/-- Sensors of H0 to H4 or of a set of sensors that are plausible and read above a limit, and nodes estimated above one (R539):
each with its index as in R543. -/
def Dev.hotSpots (d : Dev) (reading est : Int) : List (Nat × Int) :=
  (((span 0 368).filter fun n => !(d.sensor n).suspect && decide (reading < (d.sensor n).reading)).map fun n =>
    (n, (d.sensor n).reading)) ++
  ((span 0 368).filter fun n => decide (est < d.estimate n)).map fun n => (2 ^ 15 + n, d.estimate n)

/-- The tower of a hot spot's index. -/
def spotTower (i : Nat) : Option Nat :=
  if 2 ^ 15 ≤ i then (if 320 ≤ i - 2 ^ 15 then some ((i - 2 ^ 15 - 320) / 12) else none)
  else if 272 ≤ i then some ((i - 272) / 24) else none

/-- A trip starts, and towers that meet its condition are in trip (R539, R540 step 1). -/
def Dev.checkTrip (d : Dev) : Dev :=
  let l := d.hotSpots 420 432
  match l with
  | [] => d
  | (i, v) :: _ =>
    let tows := (span 0 4).filter fun m => d.thm.towerTrip.contains m || l.any fun x => decide (spotTower x.1 = some m)
    let d1 := { d with thm := { d.thm with towerTrip := tows } }
    if d.thm.trip then d1
    else
      { d1 with thm := { d1.thm with trip := true, tripCold := false, trips := sat1 d1.thm.trips } }.post 0x0707
        (i + intField 16 v * 2 ^ 16)

/-! ## The step -/

/-- The group of power that is spread over a node (R527, R528, R544): H0, loam A, kaolin A, kaolin B, loam B, the towers. -/
def nodeGroup (n : Nat) : Nat := if n < 320 then n / 64 else 5 + (n - 320) / 12

/-- The nodes over which a group's power is spread. -/
def groupNodes (g : Nat) : List Nat := if g < 5 then span (64 * g) 64 else span (320 + 12 * (g - 5)) 12

/-- The power of a node, in whole mW: its group's in proportion to its weight (R528; log 15). -/
def nodePower (weight idle : Nat → Nat) (p : List Nat) (n : Nat) : Nat :=
  let g := nodeGroup n
  let total := ((groupNodes g).map weight).foldl (· + ·) 0
  if total = 0 then idle n else p.getD g 0 * weight n / total

/-- The model advances (R527, R528): the parameters of the type 4 section, or the built-in ones when none is loaded. -/
def Dev.advanceModel (d : Dev) : Dev :=
  let t := d.thm
  let p := (span 0 9).map t.stepPower
  let params := if t.builtin then [] else d.boot.thermParams
  let spread := (span 0 368).map (nodePower (Config.activity params d.free) (Config.idleShare d.free) p)
  { d.draw 1 with thm := { t with
      est := (span 0 368).map fun n => (n, Config.estimate params t.est spread t.plate n)
      power := (span 0 9).zip p
      peak := (span 0 9).zip p |>.map fun x => (x.1, max (tget t.peak x.1 0) x.2)
      samples := [], steps := t.steps + 1, stepTime := d.evt.time } }

/-- The readings and estimates of this step enter the history. -/
def Dev.keepHistory (d : Dev) : Dev :=
  let now := ((span 0 368).map fun n => (n, (d.sensor n).reading), d.thm.est)
  { d with thm := { d.thm with hist := (now :: d.thm.hist).take 101 } }

/-- A second of powered time, 10,000 model steps: the service-life counts (R563; log 35). -/
def Dev.lifeSecond (d : Dev) : Dev :=
  let r := d.rel
  let b := d.thm.band
  { d with rel := { r with
    lifePowered := r.lifePowered + 1
    lifeB := r.lifeB + b2n (decide (b = 1)), lifeC := r.lifeC + b2n (decide (b = 2)), lifeTrip := r.lifeTrip + b2n (decide (b = 3))
    lifeSum := r.lifeSum + BitVec.ofInt 64 (d.hottest 0 272) } }

/-- THERMAL_MODEL_STEP (R525 to R540): sensors are sampled, the model advances, sensors are checked, and control values, bands and
trip follow; every second the service-life counts. -/
def Dev.thermalStep (d : Dev) (samples : List (Option Int)) : Dev :=
  let d1 := forAll (span 0 368) d fun e n => e.takeSample n (samples.getD n none)
  let d2 := d1.advanceModel
  let d3 := forAll (span 0 368) d2 fun e n => e.checkSensor d2 n
  let d4 := (d3.postGuards d2).setControls
  let d5 := (d4.checkTrip.raiseCells.setBands).keepHistory
  if d5.thm.steps % 10000 = 0 then d5.lifeSecond else d5

/-- THERMAL_MODEL_STEP (R527). -/
def execThermalModelStep (samples : List (Option Int)) (s : State) : Outcome State Fault Refusal :=
  s.run fun x => x.thermalStep samples

/-- SENSOR_RECOVERY: a sensor that has passed its checks for 1 s is plausible again, with event 0x0705 (R532). -/
def execSensorRecovery (n : Nat) (s : State) : Outcome State Fault Refusal :=
  s.run fun x =>
    let y := x.sensor n
    if n < 368 ∧ y.suspect ∧ !y.invalid then
      ({ x with thm := { x.thm with
          sensors := tset x.thm.sensors n { y with suspect := false, fails := 0, rises := 0 } } }.post 0x0705 n).setControls
    else x

/-- Exit threshold of a band (R535). -/
def bandExit (b : Nat) : Int := if b = 1 then 328 else 368

/-- BAND_DOWN_TIMER: a band falls by one when its highest control value lies at or below the exit threshold (R535). -/
def execBandDownTimer (dom : Nat) (s : State) : Outcome State Fault Refusal :=
  s.run fun x =>
    let b := x.thm.cells dom
    if bandDomains.contains dom ∧ b ≠ 0 ∧ x.domainHot dom ≤ bandExit b then
      { x with thm := { x.thm with cellBand := tset x.thm.cellBand dom (b - 1) } }.setBands
    else x

/-- The sensors that the cold-plate value is fitted to: loam B and the top dies (R530). -/
def plateSensors : List Nat := span 192 64 ++ (span 0 4).flatMap fun m => span (272 + 24 * m + 22) 2

/-- COLD_PLATE_FIT (R530). With no plausible sensor among them there is no residual, and the value stays. -/
def execColdPlateFit (s : State) : Outcome State Fault Refusal :=
  s.run fun x =>
    let l := (plateSensors.filter fun n => !(x.sensor n).suspect).map fun n => (n, (x.sensor n).reading)
    if l.isEmpty then x
    else { x with thm := { x.thm with plate := Config.plateFit (if x.thm.builtin then [] else x.boot.thermParams) x.thm.est l } }

/-! ## Rates of rise -/

/-- Sensors and nodes of a domain: the device's are those of H0 to H4 (R538). -/
def domainSpots (dom : Nat) : List Nat × List Nat :=
  if dom = 0 then (span 0 272, span 0 320) else (span (272 + 24 * (dom - 4)) 24, span (320 + 12 * (dom - 4)) 12)

/-- Rises over the last 10 ms in a domain, each with its index as in R543: plausible sensors and node estimates (R538). -/
def Dev.rises (d : Dev) (dom : Nat) : List (Nat × Int) :=
  let sp := domainSpots dom
  ((sp.1.filter fun n => !(d.sensor n).suspect).filterMap fun n =>
    (d.thm.riseOf 0 (d.sensor n).reading fun h => tget h.1 n 0).map fun r => (n, r)) ++
  sp.2.filterMap fun n => (d.thm.riseOf 0 (d.estimate n) fun h => tget h.2 n 0).map fun r => (2 ^ 15 + n, r)

/-- 10 ms of event time (R85). -/
def tenMs : Nat := 2500000

/-- An event time lies less than 10 ms back. -/
def Dev.lately (d : Dev) (t : Tab (BitVec 56)) (k : Nat) : Bool :=
  t.any fun e => decide (e.1 = k) && decide ((d.evt.time - e.2).toNat < tenMs)

/-- An event of a domain's rise, at most once per 10 ms (R538). -/
def Dev.postRise (d : Dev) (code key : Nat) (l : List (Nat × Int)) : Dev :=
  match l with
  | [] => d
  | (i, r) :: _ =>
    if d.lately d.thm.rateEvt key then d
    else { d with thm := { d.thm with rateEvt := tset d.thm.rateEvt key d.evt.time } }.post code (i + intField 16 r * 2 ^ 16)

/-- The rises of one domain: a warning, an action, or the end of one (R538). -/
def Dev.checkDomain (d : Dev) (dom : Nat) : Dev :=
  let l := d.rises dom
  let w := l.filter fun x => decide (40 ≤ x.2)
  let a := l.filter fun x => decide (80 ≤ x.2)
  let d1 := if w.isEmpty then d else { d with thm := { d.thm with rateLast := tset d.thm.rateLast dom d.evt.time } }
  let d2 := (d1.postRise 0x0702 (2 * dom) w).postRise 0x0703 (2 * dom + 1) a
  let rest := d2.thm.acts.filter fun x => decide (x ≠ dom)
  let acts := if !a.isEmpty then dom :: rest else if d2.lately d2.thm.rateLast dom then d2.thm.acts else rest
  { d2 with thm := { d2.thm with acts := acts } }

/-- RATE_OF_RISE_CHECK (R538). -/
def execRateOfRiseCheck (s : State) : Outcome State Fault Refusal :=
  s.run fun x =>
    let y := forAll [0, 4, 5, 6, 7] x Dev.checkDomain
    { y with thm := { y.thm with warn := [0, 4, 5, 6, 7].any fun k => y.lately y.thm.rateLast k } }.setBands

/-! ## Trips go on and end -/

/-- TRIP_WAIT_TIMEOUT: a partition that reached no boundary freezes at its current microcycle (R540 step 2). -/
def execTripWaitTimeout (s : State) : Outcome State Fault Refusal :=
  s.run fun x => if x.thm.trip then forAll allParts x Dev.freezeMicro else x

/-- TRIP_FREEZE_COMPLETE: every partition is frozen and every capture has ended: the target becomes 100 MHz (R540 step 5). -/
def execTripFreezeComplete (s : State) : Outcome State Fault Refusal :=
  s.run fun x =>
    if x.thm.trip ∧ (allParts.all fun p => decide ((x.part p).state ≠ PState.running) && (x.part p).capture.isEmpty) then
      { x with thm := { x.thm with tripCold := true } }
    else x

/-- TRIP_END: no plausible sensor above 100 °C and no estimate above 103 °C; TRIP clears, event 0x0708, and the bands start at C (R539,
R540 step 6). -/
def execTripEnd (s : State) : Outcome State Fault Refusal :=
  s.run fun x =>
    if x.thm.trip ∧ (x.hotSpots 400 412).isEmpty then
      let towers := x.thm.towerTrip.map (· + 4)
      let y := { x with thm := { x.thm with
        trip := false, tripCold := false, towerTrip := []
        cellBand := bandDomains.map fun k => (k, if k ≤ 2 ∨ towers.contains k then 2 else x.thm.cells k) } }
      (y.post 0x0708 0).setBands
    else x

/-! ## Registers -/

/-- THM_GCLK.REQ is written (R537, R544). -/
def Dev.writeReq (d : Dev) (v : Word) : Dev := { d with thm := { d.thm with req := v.setWidth 8 } }

/-- THM_BAND_MAX is written (R537, R544). -/
def Dev.writeMax (d : Dev) (v : Word) : Dev :=
  { d with thm := { d.thm with maxA := v.setWidth 8, maxB := (v >>> 8).setWidth 8, maxC := (v >>> 16).setWidth 8 } }

/-- GCLK_REQ_WRITE (R537, R544). -/
def execGclkReqWrite (m : Master) (bandMax : Bool) (v : BitVec 64) (s : State) : Outcome State Fault Refusal :=
  s.run fun x =>
    if bandMax then x.byHostOrT0 m 0xA00010 fun d => d.writeMax v
    else x.byHostOrT0 m 0xA00008 fun d => d.writeReq v

end Sys2Proof.Machine
end

