-- ==== Sys2Proof/Machine/Reliability.lean ====
section
/-! DEFINITION. Scrubbing and plot digests (R545 to R549), the scrubber's protection and fallback (R550 to R552), patrol (R553 to
R555), bond tests and bank copies (R560, R561), vacated channels (R562) and service life (R563). -/
namespace Sys2Proof.Machine
open Host

/-! ## The settings vote -/

/-- One bit of a byte flipped. -/
def flipBit (b : BitVec 8) (i : Nat) : BitVec 8 := b ^^^ (1#8 <<< i)

/-- An upset hits copy `u / 9` of the settings: bit `u % 9` of PASS_MS, or DIGEST for 8 (log 17). -/
def Rel.upset (r : Rel) (u : Nat) : Rel :=
  let c := u / 9
  let at_ (i : Nat) : Bool := decide (i = c)
  if u % 9 < 8 then { r with passMs := ((span 0 3).zip r.passMs).map fun x => if at_ x.1 then flipBit x.2 (u % 9) else x.2 }
  else { r with digest := ((span 0 3).zip r.digest).map fun x => if at_ x.1 then !x.2 else x.2 }

/-- The bitwise majority of three bytes. -/
def majority (a b c : BitVec 8) : BitVec 8 := (a &&& b) ||| (a &&& c) ||| (b &&& c)

/-- The majority of three bits. -/
def majorityBit (a b c : Bool) : Bool := (a && b) || (a && c) || (b && c)

/-- PASS_MS as voted, before its limits (R550). -/
def Rel.passVote (r : Rel) : BitVec 8 := majority (r.passMs.getD 0 0) (r.passMs.getD 1 0) (r.passMs.getD 2 0)

/-- DIGEST as voted (R550). -/
def Rel.digestVote (r : Rel) : Bool := majorityBit (r.digest.getD 0 true) (r.digest.getD 1 true) (r.digest.getD 2 true)

/-- All three copies of PASS_MS differ; of one bit they cannot (R550). -/
def Rel.noMajority (r : Rel) : Bool :=
  let a := r.passMs.getD 0 0
  let b := r.passMs.getD 1 0
  let c := r.passMs.getD 2 0
  decide (a ≠ b) && decide (b ≠ c) && decide (a ≠ c)

/-- The vote: copies that differ from the majority are rewritten and counted (R550). -/
def Rel.vote (r : Rel) : Rel :=
  let n := (r.passMs.filter fun x => decide (x ≠ r.passVote)).length + (r.digest.filter fun x => x != r.digestVote).length
  { r with passMs := [r.passVote, r.passVote, r.passVote], digest := [r.digestVote, r.digestVote, r.digestVote],
           votefix := satAdd r.votefix n }

/-! ## Fallback -/

/-- Design cycle numbers of the partitions now. -/
def Dev.cyclesNow (d : Dev) : Tab (BitVec 64) := allParts.map fun p => (p, (d.part p).cycle)

/-- A region falls back for a cause (R551, R552 step 1). -/
def Dev.fallBack (d : Dev) (cause n : Nat) : Dev :=
  if 512 ≤ n ∨ d.rel.fallback.contains n then d
  else
    let d1 := { d with rel := { d.rel with
      fallback := n :: d.rel.fallback
      softCycles := if d.rel.fallback.isEmpty then d.cyclesNow else d.rel.softCycles } }
    (d1.post 0x0808 (n + cause * 2 ^ 12)).faultCauses 3 fun e =>
      { e with start := { e.start with sfScrub := e.start.sfScrub || e.start.sfScrubEn } }

/-- SCRUB_PASS_START: regions whose pass has not ended fall back; the settings are voted; two bits of every canary codeword are changed,
at positions of the pass's draw (R545, R550, R551). A pass needs the grain
clock (R178). -/
def execScrubPassStart (overrun upset : List Nat) (s : State) : Outcome State Fault Refusal :=
  s.work fun x =>
    if !x.clocked then x
    else
      let r := upset.foldl Rel.upset x.rel
      let d1 := { x with rel := r.vote }
      let d2 := if x.rel.passOn then overrun.foldl (fun e n => e.fallBack 3 n) d1 else d1
      let d3 := if r.noMajority then forAll allPlots d2 fun e n => e.fallBack 2 n else d2
      { d3 with rel := { d3.rel with passOn := true, canary := some d3.free, passCycles := d3.cyclesNow } }.draw 1

/-! ## Stored configuration -/

/-- The units scrub a plot that is not LOADING, CLEARING or MAPPED_OUT (R546). -/
def Dev.scrubbed (d : Dev) (n : Nat) : Bool := decide (n < 512) && match (d.plot n).state with
  | .loading => false
  | .clearing => false
  | .mappedOut => false
  | _ => true

/-- A plot is damaged: event 0x0807, its set, and a freeze cause at the next boundary (R549). -/
def Dev.damagePlot (d : Dev) (p n detail : Nat) : Dev :=
  let l := (d.plot n).logical
  if (d.part p).damaged.contains l then d
  else ((d.post 0x0807 (n * 2 ^ 23 + detail) p).addDamage p l).addFreeze p .damage

/-- One plot after its pass: damaged by a word that cannot be read, or by a digest that differs (R546, R549). -/
def Dev.judgePlot (d : Dev) (digest : Bool) (p n : Nat) : Dev :=
  match d.badWords n with
  | k :: _ => d.damagePlot p n (keyCtx k * 2 ^ 20 + 1)
  | [] => match d.recorded p n with
    | some r => if digest && decide (d.derived n ≠ r) then d.damagePlot p n 2 else d
    | none => d

/-- The root is recomputed from digests by logical plot (R497, R549). -/
def Dev.rootFrom (d : Dev) (p : Nat) (f : Nat → BitVec 256) : Dev :=
  d.updPart p fun q => { q with root := digestRoot ((span 0 q.plots).map f) (ctxCount q.ctx) }

/-- One partition after a pass over the plots `mine`: when every plot has matched, its root is recomputed and comparable and
CLEAN_CYCLE is the number that stood when the pass began; with a damaged plot the root is as derived (R548, R549). -/
def Dev.judgePart (d : Dev) (digest : Bool) (cycles : Tab (BitVec 64)) (mine : Nat → Bool) (p : Nat) : Dev :=
  let plots := (d.plotsOf p).filter fun n => mine n && (d.plot n).inDesign
  let d1 := plots.foldl (fun e n => e.judgePlot digest p n) d
  let q := d1.part p
  let whole := digest && decide (q.plots ≠ 0) && decide (plots.length = q.plots) &&
    plots.all fun n => (d1.recorded p n).isSome
  if !whole then d1
  else if q.damaged.isEmpty then
    (d1.rootFrom p fun l => tget q.digests l 0).updPart p fun y =>
      { y with rooted := true, cleanCycle := (tget cycles p 0).setWidth 48 }
  else
    (d1.rootFrom p fun l => match d1.physical p l with | some n => d1.derived n | none => 0).draw 4

/-- The two bits of a canary codeword that a pass changes, of the pass's draw: two different positions (R551; log 141). -/
def canaryBits (draw n i : Nat) : BitVec 80 :=
  let r := (Config.freeWord (draw * 2 ^ 48 + 128 * n + i)).toNat
  let a := r % 80
  (1#80 <<< a) ||| (1#80 <<< ((a + 1 + r / 80 % 79) % 80))

/-- The canary check fails at a codeword: the unit does not report it as corrected with the pattern restored (R551). Two changed bits and
no others are always corrected (R339). -/
def Rel.canaryFails (r : Rel) (h : CanaryHit) : Bool :=
  let loc := Config.canaryLoc h.region h.word
  let pattern := Config.canaryPattern h.region h.word
  decide (h.word < 128) && (!h.reported ||
    (decide (h.bits ≠ 0) &&
      decide (readCode loc (codeword loc pattern ^^^ canaryBits (r.canary.getD 0) h.region h.word ^^^ h.bits) ≠ (.corrected, pattern))))

/-- Regions whose canary check fails in a pass (R551). -/
def Rel.canaryLost (r : Rel) (l : List CanaryHit) : List Nat := (l.filter r.canaryFails).map fun h => h.region

/-- A region that retries: a good pass counts, two in a row end its fallback with event 0x0809 (R552 step 4). -/
def Dev.retryPass (d : Dev) (canary : List Nat) (n : Nat) : Dev :=
  if !d.rel.retry.any (fun e => decide (e.1 = n)) then d
  else if canary.contains n then { d with rel := { d.rel with retry := tset d.rel.retry n 0 } }
  else if tget d.rel.retry n 0 = 0 then { d with rel := { d.rel with retry := tset d.rel.retry n 1 } }
  else
    { d with rel := { d.rel with
      retry := tdel d.rel.retry n, fallback := d.rel.fallback.filter fun y => decide (y ≠ n) } }.post 0x0809 n

/-- The unit of a region works: not in fallback, or in retry (R552). -/
def Rel.unitRuns (r : Rel) (n : Nat) : Bool := !r.fallback.contains n || r.retry.any fun e => decide (e.1 = n)

/-- SCRUB_PASS_END (R545 to R552): the words, the canaries, the digests; partitions with a region in fallback are judged whole by the
readback service. `late` are bits that changed after the pass had read their words. -/
def execScrubPassEnd (hits : List CanaryHit) (stored late : List (CfgLoc × Nat × BitVec 80)) (ms : BitVec 8) (s : State) : Outcome State Fault Refusal :=
  s.work fun x =>
    if !x.rel.passOn then x
    else
      let canary := x.rel.canaryLost hits
      let d1 := (x.upsetStored stored).scrubPlots fun n => x.rel.unitRuns n && x.scrubbed n
      let d2 := (forAll allPlots d1 fun e n => e.retryPass canary n)
      let d3 := canary.foldl (fun e n => if x.rel.fallback.contains n then e else e.fallBack 1 n) d2
      let d4 := forAll allParts d3 fun e p => e.judgePart x.rel.digestVote x.rel.passCycles (fun n => x.rel.unitRuns n) p
      { d4 with rel := { d4.rel with passOn := false, canary := none, lastMs := if d4.rel.lastMs.toNat < ms.toNat then ms else d4.rel.lastMs } }.upsetStored late

/-- FALLBACK_SOFTWARE_PASS: the readback service scrubs the regions in fallback, derives digests and treats damage; for the partitions
concerned this pass is what judges every plot (R552 step 2). `late` are bits that changed after the pass had read their words. -/
def execFallbackSoftwarePass (stored late : List (CfgLoc × Nat × BitVec 80)) (s : State) : Outcome State Fault Refusal :=
  s.work fun x =>
    if x.rel.fallback.isEmpty then x
    else
      let d1 := (x.upsetStored stored).scrubPlots fun n => x.rel.fallback.contains n && x.scrubbed n
      let parts := allParts.filter fun p => (x.plotsOf p).any fun n => x.rel.fallback.contains n
      let d2 := forAll parts d1 fun e p => e.judgePart x.rel.digestVote x.rel.softCycles (fun _ => true) p
      { d2 with rel := { d2.rel with softCycles := d2.cyclesNow } }.upsetStored late

/-- BAR0 offset of the REL block. -/
def relOff : Nat := 0xB00000

/-- GO of REL_RETRY: ignored for a region not in fallback (R552 step 3, R565). -/
def Dev.startRetry (d : Dev) (n : Nat) : Dev :=
  if d.rel.fallback.contains n then { d with rel := { d.rel with retry := tset d.rel.retry n 0 } } else d

/-- SCRUB_RETRY (R552). -/
def execScrubRetry (m : Master) (n : Nat) (s : State) : Outcome State Fault Refusal :=
  s.run fun x => x.byHostOrT0 m (relOff + 0x48) fun d => d.startRetry n

/-! ## Bond tests -/

/-- A bond test may run in the plot's state (R560). -/
def Dev.bondTestable (d : Dev) (n : Nat) : Bool := match (d.plot n).state with
  | .free => true
  | .mappedOut => true
  | .ready => true
  | .frozen => true
  | _ => false

/-- A write of REL_DIAG: PLOT, and with GO a test, ignored while BUSY or in another plot state (R560, R565). -/
def Dev.writeDiag (d : Dev) (n : Nat) (go : Bool) : Dev :=
  let d1 := { d with rel := { d.rel with diagPlot := BitVec.ofNat 9 n } }
  if go ∧ !d1.rel.diagBusy ∧ d1.bondTestable n then { d1 with rel := { d1.rel with diagBusy := true, diagNow := n } } else d1

/-- BOND_TEST (R560). -/
def execBondTest (m : Master) (n : Nat) (s : State) : Outcome State Fault Refusal :=
  s.run fun x => if n < 512 then x.byHostOrT0 m (relOff + 0x50) fun d => d.writeDiag n true else x

/-- BOND_TEST_DONE: a KIND 2 or 3 entry for every failed bond (clod, group, bond), event 0x0817, and a plot that cannot stream is
marked bad (R559, R560). -/
def execBondTestDone (bonds : List (Nat × Nat × Nat)) (s : State) : Outcome State Fault Refusal :=
  s.work fun x =>
    if !x.rel.diagBusy then x
    else
      let n := x.rel.diagNow
      let d1 := bonds.foldl (fun e (b : Nat × Nat × Nat) =>
        e.recordRepair (if n < 256 then 2 else 3) (n % 256 * 2 ^ 20 + b.1 % 1024 * 2 ^ 10 + b.2.1 % 16 * 2 ^ 6 + b.2.2 % 64)) x
      let d2 := { d1 with rel := { d1.rel with diagBusy := false, diagFailed := BitVec.ofNat 16 bonds.length } }
      (d2.post 0x0817 (n * 2 ^ 23 + bonds.length % 2 ^ 16)).markUnstreamable n

/-! ## Patrol -/

/-- The patrol of a tower or channel is quarantined (R462, R555). -/
def Dev.patrolQuar (d : Dev) (cl : Nat) : Bool :=
  if 3 ≤ cl ∧ cl ≤ 6 then (d.arb 49 (64 + cl)).quar else if 7 ≤ cl ∧ cl ≤ 14 then (d.arb (33 + cl) 40).quar else false

/-- A line lies in an allocation of a partition with PATROL = 1 (R553). -/
def Dev.patrolled (d : Dev) (a : Nat) : Bool :=
  allParts.any fun p =>
    let q := d.part p
    let holds (r : Option (Nat × Nat)) : Bool := match r with
      | some x => within (a / 64 * 64) 64 x.1 x.2
      | none => false
    q.patrol && (holds q.marl || holds q.ddr)

/-- A line of a tower that patrol covers: of an allocation, or of the carry codes of one (R343, R553). -/
def Dev.patrolledLine (d : Dev) (a : Nat) : Bool :=
  let off := (a - marlBase) % towerSize
  if inCarryArea a 64 then (span 0 16).any fun i => d.patrolled (a - off + 16 * (off / 64 * 64) + 64 * i)
  else d.patrolled a && d.dramRange (a / 64 * 64) 64

/-- A line of a channel's metadata that patrol covers: of the counter and tree areas once they are initialised, or the MACs or carry codes of
lines of an allocation (R411, R553). -/
def Dev.patrolledMeta (d : Dev) (c off : Nat) : Bool :=
  let h := d.chan c
  let line := off / 64 * 64
  if off < h.treeBase ∨ h.bytes ≤ off ∨ h.state ≠ .active then false
  else if off < h.macBase then h.metaReady
  else if off < h.ccBase then (span 0 8).any fun i => d.patrolled (h.base * 2 ^ 26 + 8 * (line - h.macBase) + 64 * i)
  else (span 0 16).any fun i => d.patrolled (h.base * 2 ^ 26 + 16 * (line - h.ccBase) + 64 * i)

/-- The patrol of a tower or channel is granted a read: requester 67 + m of the row-move engine, or 40 of the channel's front end (R457,
R555). -/
def Dev.patrolServed (d : Dev) (cl : Nat) : Dev :=
  if 3 ≤ cl ∧ cl ≤ 6 then d.served 49 (64 + cl) else if 7 ≤ cl ∧ cl ≤ 14 then d.served (33 + cl) 40 else d

/-- What a patrol reads exists and is covered; its class, the address logged, the detail of 0x0810 and its source, where the rules give them
(R553, R564): a line of a channel's metadata has no system address, so its address is free. -/
def Dev.patrolOf (d : Dev) (w : PatrolAt) : Option (Nat × Nat × Nat × Nat) :=
  match w with
  | .bram n j row =>
    if n < 512 ∧ j < 32 ∧ row < 1024 ∧ d.eccOn n j then some (0, rowDetail n j row, rowDetail n j row, 0x45) else none
  | .line a =>
    let cl := d.classOf a
    if d.patrolledLine a ∧ !d.patrolQuar cl then some (cl, a / 64 * 64, addrDetail a, classSource cl) else none
  | .tree c off =>
    if c < 8 ∧ d.patrolledMeta c off ∧ !d.patrolQuar (7 + c) then
      some (7 + c, (Config.freeWord d.free).toNat, (Config.freeWord d.free).toNat % 2 ^ 32, chanStop c)
    else none

/-- The bits of a line's codeword that an outcome says have changed, and which codeword: other outcomes say nothing to patrol, which checks
the device code alone (R553). -/
def patrolChange (rd : ReadOutcome) : Nat × BitVec 80 :=
  match rd with
  | .upset w c => (w % 8, c)
  | _ => (0, 0)

/-- A patrol read that was corrected counts; one that cannot be is logged, with event 0x0810 (R554). -/
def Dev.patrolFound (d : Dev) (at_ : Nat × Nat × Nat × Nat) (loc : Nat) (v : Verdict) (kind : Nat) : Dev :=
  match v with
  | .clean => d
  | .corrected => { d with rel := { d.rel with pCorrected := sat1 d.rel.pCorrected } }.countCorrected at_.1 loc
  | _ => ({ d with rel := { d.rel with pUe := sat1 d.rel.pUe } }.logUe at_.1 kind at_.2.1).postSrc 0x0810 at_.2.2.1 0 at_.2.2.2

/-- KIND of MEM_UE_LOG for a codeword (R382). -/
def Verdict.kind : Verdict → Nat
  | .fold => 2
  | _ => 1

/-- Patrol of a line at a system address: each changed codeword, rewritten where it was corrected; a poisoned line cannot be read (R377,
R554). -/
def Dev.patrolLine (d : Dev) (at_ : Nat × Nat × Nat × Nat) (a : Nat) (rd : ReadOutcome) : Dev :=
  let e := d.absorb (match rd with | .upset w c => .upset (w % 8) c | _ => .clean) a 64
  if e.poisoned a 64 then e.patrolFound at_ 0 .uncorrectable 3
  else (e.changedWords a 64).foldl (fun g x =>
    let h := g.patrolFound at_ (g.locOf x.1) x.2 x.2.kind
    if x.2 = .corrected then h.settle (x.1 / 8) (x.1 / 8 + 1) else h) e

/-- Patrol of a row of a block memory. -/
def Dev.patrolRow (d : Dev) (at_ : Nat × Nat × Nat × Nat) (key : Nat) (c : BitVec 80) : Dev :=
  let w := d.rowWord key (d.row key) ^^^ c
  let x := readCode (rowLoc key) w
  let e := (d.setRow key w).patrolFound at_ (rowLoc key) x.1 x.1.kind
  if x.1 = .corrected then e.codeRow key x.2 else e

/-- PATROL_READ: codewords of a line or a row are read under the device code (R553 to R555). -/
def execPatrolRead (w : PatrolAt) (rd : ReadOutcome) (s : State) : Outcome State Fault Refusal :=
  s.work fun x =>
    match x.patrolOf w with
    | none => x
    | some at_ =>
      let y := (x.draw 1).patrolServed at_.1
      let c := patrolChange rd
      match w with
      | .bram n j row => y.patrolRow at_ (rowKey n j row) c.2
      | .line a => y.patrolLine at_ (a / 64 * 64) rd
      | .tree ch off =>
        let loc := locDdr ch (off / 64 * 64 + 8 * c.1)
        let v := (readChanged loc 0 c.2).1
        y.patrolFound at_ loc v v.kind

/-! ## Spare banks -/

/-- First line of row r of a bank on its die, by a KIND 5 entry (R342, R556). -/
def bankLine (w r : Nat) : Nat :=
  (marlBase + bits w 26 2 * towerSize + (4096 * bits w 22 4 + r) * 2 ^ 20 + bits w 12 5 * 2 ^ 15 + bits w 17 5 * 2 ^ 10) / 64

/-- Row r of the bank of a KIND 5 entry cannot be read: a codeword of it is uncorrectable, or a line poisoned (R377, R561). -/
def Dev.rowLost (d : Dev) (w r : Nat) : Bool :=
  let a := 64 * bankLine w r
  d.poisoned a 1024 || (d.changedWords a 1024).any fun x => match x.2 with
    | .uncorrectable | .fold => true
    | _ => false

/-- SPARE_BANK_COPY_DONE: the rows have been moved, those that could not be read are poisoned, the spare serves the bank, event 0x0813
(R346, R561). `upset` names stored bits of the bank that have changed: a system address and the bits of its codeword. -/
def execSpareBankCopyDone (i : Nat) (upset : List (Nat × BitVec 80)) (s : State) : Outcome State Fault Refusal :=
  s.work fun x =>
    if !x.rel.copies.contains i then x
    else
      let w := x.keepVal i
      let m := bits w 26 2
      let mine (a : Nat) : Bool := (span 0 4096).any fun r => within a 1 (64 * bankLine w r) 1024
      let y := (upset.filter fun u => mine u.1).foldl (fun e u => e.upset u.1 u.2) x
      let lost := (span 0 4096).filter (y.rowLost w)
      let moved := forAll (span 0 4096) y fun e r =>
        let a := 64 * bankLine w r
        (e.countRange a 1024).settle (a / 8) (a / 8 + 128)
      let lines := lost.flatMap fun r => span (bankLine w r) 16
      let d1 := { moved with
        rel := { moved.rel with copies := moved.rel.copies.filter (fun k => decide (k ≠ i)) }
        mem := { moved.mem with poison := lines.filter (fun l => !moved.mem.poison.contains l) ++ moved.mem.poison } }
      ((d1.updTower m fun t => { t with rowMoves := satAdd t.rowMoves 4096 }).applyEntry w).postSrc 0x0813
        (bits w 0 28 + min 15 lost.length * 2 ^ 28) 0 (towerStop m)

/-! ## Vacating a channel -/

/-- Why a VACATE of channel c is refused, 0 when it is not (R562, R564). -/
def Dev.vacateRefused (d : Dev) (c : Nat) : Nat :=
  let h := d.chan c
  let hits (r : Option (Nat × Nat)) : Bool := match r with
    | some x => meets x.1 x.2 (h.base * 2 ^ 26) (h.user * 2 ^ 26)
    | none => false
  if h.state ≠ .active then 4
  else if allParts.any fun p => hits (d.part p).ddr then 1
  else if allParts.any fun p => hits ((d.part p).placement.bind (·.jrnl)) then 2
  else if d.ime.granules.any fun g => decide (g.2 ≠ 0) && decide (h.base ≤ g.1) && decide (g.1 < h.base + h.user) then 3
  else 0

/-- VACATE: the checks; then the channel is DRAINING and its stop disabled (R562 steps 1 and 2). -/
def Dev.vacate (d : Dev) (c : Nat) (persist : Bool) : Dev :=
  let why := d.vacateRefused c
  let d1 := { d with rel := { d.rel with ddrResult := BitVec.ofNat 4 why } }
  if why ≠ 0 then d1.postSrc 0x0816 (c + why * 2 ^ 8) 0 (chanStop c)
  else (d1.updChan c fun x => { x with state := .draining, persist := persist }).disableStop (chanStop c)

/-- DDR_VACATE (R562). -/
def execDdrVacate (m : Master) (c : Nat) (persist : Bool) (s : State) : Outcome State Fault Refusal :=
  s.run fun x => if c < 8 then x.byHostOrT0 m (relOff + 0x68) fun d => d.vacate c persist else x

/-- DDR_VACATE_DONE: the drained stop goes OFF with event 0x0512, the channel is OFF with event 0x0815, and PERSIST writes its entry
(R454, R562 step 3). -/
def execDdrVacateDone (c : Nat) (s : State) : Outcome State Fault Refusal :=
  s.work fun x =>
    let h := x.chan c
    if 8 ≤ c ∨ h.state ≠ .draining ∨ (x.stop (chanStop c)).state ≠ .drained then x
    else
      let d1 := (x.updStop (chanStop c) fun y => { y with state := .off, offReq := false }).postSrc 0x0512 (chanStop c) 0 (chanStop c)
      let d2 := (d1.loseContents (chanStop c)).postSrc 0x0815 c 0 (chanStop c)
      let d3 := if h.persist then d2.recordRepair 9 c else d2
      d3.updChan c fun y => { y with persist := false }

/-- RESTORE, from OFF: the stop goes ON and the channel retrains (R562 step 4). -/
def Dev.restoreChan (d : Dev) (c : Nat) : Dev :=
  if (d.chan c).state = .off then
    let d1 := { d with rel := { d.rel with ddrResult := 0 } }
    (d1.updStop (chanStop c) fun y => { y with state := .on, offReq := false }).updChan c fun y =>
      { y with state := .training, restoring := true, metaReady := false }
  else d

/-- DDR_RESTORE (R562). -/
def execDdrRestore (m : Master) (c : Nat) (s : State) : Outcome State Fault Refusal :=
  s.run fun x => if c < 8 then x.byHostOrT0 m (relOff + 0x68) fun d => d.restoreChan c else x

/-! ## Service life -/

/-- The conditions of R563 that the counts do not meet: the temperature mean and the share of band C and trip (R564). -/
def Rel.lifeMisses (r : Rel) : Nat :=
  b2n (decide (380 * (r.lifePowered : Int) < r.lifeSum.toInt)) + 2 * b2n (decide (r.lifePowered < 10 * (r.lifeC + r.lifeTrip)))

/-- LIFE_CHECK: after 720 h, at most once per 24 h of powered time (R563). -/
def execLifeCheck (s : State) : Outcome State Fault Refusal :=
  s.run fun x =>
    let r := x.rel
    let due := match r.lifeEvt with
      | some t => decide (t + 86400 ≤ r.lifePowered)
      | none => true
    if 2592000 ≤ r.lifePowered ∧ r.lifeMisses ≠ 0 ∧ due = true then
      { x with rel := { r with lifeEvt := some r.lifePowered } }.post 0x0818 r.lifeMisses
    else x

end Sys2Proof.Machine
end

