-- ==== Sys2Proof/Machine/Events.lean ====
section
/-! DEFINITION. The event queues' registers: EVT_CONS, EVT_LOST, EVT_CTRL and the VF queues' indices (R86 to R89). They stay live through
a seal halt. -/
namespace Sys2Proof.Machine
open Host

/-- A write of an EVT register by host software, T0 or the debug port, in every phase (R87, R522); any other thread's traps. -/
def Dev.byLive (d : Dev) (m : Master) (off : Nat) (body : Dev → Dev) : Dev :=
  match m with
  | .pf0 | .thread 0 => body d
  | .debug => if d.tap.busy then body d else d
  | .thread n => if n ≤ 64 ∧ (d.thr n).state = .run then d.trap n 0x0903 (BitVec.ofNat 64 (0x032000000000 + off)) else d
  | .vf _ => d

/-- The PF0 queue changed. -/
def Dev.updPf (d : Dev) (f : EvtQueue → EvtQueue) : Dev := { d with evt := { d.evt with pf := f d.evt.pf } }

/-- EVT_CONS.INDEX is written (R86). -/
def Dev.writeCons (d : Dev) (v : Word) : Dev := d.updPf fun q => { q with cons := v.toNat % 4096 }

/-- EVT_LOST is written: any non-zero value clears the count (R91). -/
def Dev.writeLost (d : Dev) (v : Word) : Dev := d.updPf fun q => { q with lost := if v.setWidth 32 = 0 then q.lost else 0 }

/-- EVT_CTRL.MASK is written; bits 5 and 6 read 0 (R91). -/
def Dev.writeEvtMask (d : Dev) (v : Word) : Dev := { d with evt := { d.evt with mask := v.setWidth 8 &&& 0x9F } }

/-- EVT_CONS_WRITE (R86). -/
def execEvtConsWrite (m : Master) (v : BitVec 64) (s : State) : Outcome State Fault Refusal :=
  s.run fun x => x.byLive m 0x40008 fun d => d.writeCons v

/-- VF p stands on the link (R52). -/
def Dev.vfUp (d : Dev) (p : Nat) : Bool :=
  decide (1 ≤ p) && decide (p ≤ 64) && d.pcie.linkUp && d.pcie.vfEnable && d.pcie.vfMse

/-- The consumer index of VF p's queue is written; without EVT_VF or the partition both indices read 0 (R50, R70, R88). -/
def Dev.writeVfCons (d : Dev) (p : Nat) (v : Word) : Dev :=
  if d.feat 15 ∧ (d.part p).state ≠ .none then
    { d with evt := { d.evt with vf := tupd d.evt.vf p {} fun q => { q with cons := v.toNat % 256 } } }
  else d

/-- VF_EVT_CONS_WRITE (R88). -/
def execVfEvtConsWrite (p : Nat) (v : BitVec 64) (s : State) : Outcome State Fault Refusal :=
  s.run fun x => if x.vfUp p then x.writeVfCons p v else x

end Sys2Proof.Machine
end

