-- ==== Sys2Proof/Machine/Icp.lean ====
section
/-! DEFINITION. Requests of design logic to the internal configuration port (R240 to R246): WRITE and REJOIN. A REJOIN that waits is
held beside the WRITEs in progress, with a count of 0. -/
namespace Sys2Proof.Machine
open Host

/-- A request message as the ICP reads it (R241). -/
def icpReq (p port : Nat) (l : List Byte) (addr : Nat) : IcpReq :=
  { part := p, port := port, tag := BitVec.ofNat 8 (field l 1 1), plot := field l 2 2,
    ctx := if field l 0 1 = 1 then field l 4 1 else 0, first := if field l 0 1 = 1 then field l 6 2 else 0,
    count := if field l 0 1 = 1 then field l 8 2 else 0, addr := addr }

/-- A request is malformed: STATUS 9 (R241, R242). -/
def icpMalformed (l : List Byte) : Bool :=
  let op := field l 0 1
  decide (l.length ≠ 64) || (decide (op ≠ 1) && decide (op ≠ 2)) || !zeros l 5 1 || !zeros l 0x0A 6 || !zeros l 0x18 40 ||
    (decide (op = 1) && (decide (field l 8 2 = 0) || decide (1024 < field l 6 2 + field l 8 2) ||
      decide (field l 0x10 8 % 2048 ≠ 0)))

/-- A migration moves the logical plot (R217, R242). -/
def Dev.migrating (d : Dev) (p logical : Nat) : Bool :=
  d.plc.migs.any fun g => decide (g.part = p) && g.moves.any fun m => decide (m.1 = logical)

/-- The STATUS with which the ICP refuses a request, in the order of R242: 9, then 1 to 5. -/
def Dev.icpRefused (d : Dev) (p : Nat) (l : List Byte) : Option Nat :=
  let q := d.part p
  let plot := field l 2 2
  let write := decide (field l 0 1 = 1)
  if icpMalformed l then some 9
  else match q.grant with
    | none => some 1
    | some g =>
      if q.grantDrain then some 1
      else if plot < g.first ∨ g.last < plot ∨ q.plots ≤ plot then some 2
      else if write ∧ (ctxCount q.ctx ≤ field l 4 1 ∨ !g.ctxMask.getLsbD (field l 4 1)) then some 3
      else if write ∧ g.len < field l 0x10 8 + 2048 * field l 8 2 then some 4
      else if q.state ≠ .running ∧ q.state ≠ .frozen then some 5
      else match d.physical p plot with
        | none => some 5
        | some n =>
          if (d.plot n).state = .clearing ∨ d.migrating p plot ∨ ((d.plot n).state = .loading ∧ !(d.plot n).icpLoading) then some 5
          else none

/-- Step 1 of a reload: a plot that is not LOADING leaves the design, at once when FROZEN, else at the next boundary (R243). -/
def Dev.icpTake (d : Dev) (p n : Nat) : Dev :=
  if (d.plot n).state = .loading ∨ (d.plot n).icpLeave then d
  else d.updPlot n fun x =>
    if (d.part p).state = .running then { x with icpLeave := true, icpFrames := [] }
    else { x with state := .loading, icpLoading := true, icpFrames := [] }

/-- An accepted WRITE (R243). -/
def Dev.icpWrite (d : Dev) (p port : Nat) (l : List Byte) : Dev :=
  let q := d.part p
  match q.grant, d.physical p (field l 2 2) with
  | some g, some n =>
    let r := icpReq p port l (q.keyAt g.keySlot * 2 ^ 48 + g.base + field l 0x10 8)
    { d with icp := d.icp ++ [r] }.icpTake p n
  | _, _ => d

/-- A rejoin that nothing holds up takes place at once in a FROZEN partition (R243 step 3). -/
def Dev.rejoinNow (d : Dev) (p n : Nat) : Dev :=
  let x := d.plot n
  if (d.part p).state = .frozen ∧ x.icpRejoin ∧ x.state = .loading ∧ !d.icpBusy p x.logical then d.rejoinPlot p n else d

/-- An accepted REJOIN (R243): a plot that is not reloading has nothing to rejoin, and is done. -/
def Dev.icpRejoinReq (d : Dev) (p port : Nat) (l : List Byte) : Dev :=
  let r := icpReq p port l 0
  match d.physical p (field l 2 2) with
  | none => d
  | some n =>
    if (d.plot n).icpLoading ∨ (d.plot n).icpLeave then
      ({ d with icp := d.icp ++ [r] }.updPlot n fun x => { x with icpRejoin := true }).rejoinNow p n
    else d.icpAnswer r 0 0

/-- A request arrives: a quarantined requester's ends with STATUS 8, a refused one with its STATUS, another is accepted (R242,
R246, R453). -/
def Dev.icpArrive (d : Dev) (p port : Nat) (l : List Byte) (body : Dev → Dev) : Dev :=
  let r := icpReq p port l 0
  if p = 0 ∨ 64 < p ∨ (d.part p).state = .none then d
  else if (d.arb 48 (64 + p)).quar then (d.refuseQuar 48 (64 + p)).icpAnswer r 8 0
  else match d.icpRefused p l with
    | some st => d.icpAnswer r st 0
    | none => body d

/-- ICP_WRITE_REQUEST: a request that is no REJOIN (R242). -/
def execIcpWriteRequest (p port : Nat) (msg : List (BitVec 8)) (s : State) : Outcome State Fault Refusal :=
  s.work fun d => if field msg 0 1 = 2 then d else d.icpArrive p port msg fun d => d.icpWrite p port msg

/-- ICP_REJOIN_REQUEST: a request that is no WRITE (R243). -/
def execIcpRejoinRequest (p port : Nat) (msg : List (BitVec 8)) (s : State) : Outcome State Fault Refusal :=
  s.work fun d => if field msg 0 1 = 1 then d else d.icpArrive p port msg fun d => d.icpRejoinReq p port msg

/-- A frame of a WRITE cannot be read: its log and event, which a carry code that disagrees at the plot's loam port makes 0x0422 (R242, R380,
R425). -/
def Dev.icpReadBad (d : Dev) (p n : Nat) (b : Bad) (y : Nat) : Dev :=
  if b = .moved then { d with ime := { d.ime with ccFabric := sat1 d.ime.ccFabric } }.postSrc 0x0422 p p (loamStop n) else d.opReadBad b y p

/-- Frames of a WRITE from number `i` on, each read from the window at its place, until one cannot be read or disagrees with the declarations
(R194, R242, R243 step 2). Answered are the frames written and the STATUS, none in a seal halt. -/
def Dev.icpFrames (d : Dev) (pl : Placement) (n : Nat) (r : IcpReq) (rd : ReadOutcome) : Nat → Nat → Dev × Nat × Option Nat
  | 0, i => (d, i, some 0)
  | m + 1, i =>
    let k := r.addr / 2 ^ 48
    let a := r.addr % 2 ^ 48 + 2048 * i
    let here := decide (outcomeAt rd < 2048)
    match d.look k a 2048 (if here then rd else .clean) false with
    | .halt e => (e, i, none)
    | .bad e _ .abort => (e, i, some 8)
    | .bad e y b => (e.icpReadBad r.part n b y, i, some 7)
    | .good e =>
      let frame := e.memRead k a 2048
      let f := e.draw 1
      if pl.frameBad r.plot r.ctx (r.first + i) frame then
        (f.post 0x0208 (r.plot * 2 ^ 23 + r.ctx * 2 ^ 20 + (r.first + i) * 2 ^ 10) r.part, i, some 6)
      else
        ((f.writeFrame n r.ctx (r.first + i) frame).updPlot n fun x =>
          { x with icpFrames := (x.icpFrames.filter fun y => decide (y ≠ (r.ctx, r.first + i))) ++ [(r.ctx, r.first + i)] }).icpFrames pl n r
            (if here then .clean else outcomePast rd 32) m (i + 1)

/-- ICP_WRITE_DONE: the frames are read and written, and the request is answered: 0 done, 6 with event 0x0208 at a frame that
disagrees, 7 at a read that fails, 8 when it was aborted (R242, R380, R453). -/
def execIcpWriteDone (p : Nat) (tag : BitVec 8) (rd : ReadOutcome) (s : State) : Outcome State Fault Refusal :=
  s.work fun d =>
    match d.icp.find? fun r => decide (r.part = p) && decide (r.tag = tag) && decide (r.count ≠ 0) with
    | none => d
    | some r =>
      match d.physical p r.plot, (d.part p).placement with
      | some n, some pl =>
        if (d.plot n).state ≠ .loading then d
        else
          let k := r.addr / 2 ^ 48
          let a := r.addr % 2 ^ 48
          match d.refuse 0 k a (2048 * r.count) false with
          | some f => ((d.postRefuse f 0 k a false 3).icpAnswer r (if f = Refuse.disabled then 8 else 7) 0).rejoinNow p n
          | none =>
            let x := (d.served 48 (64 + p)).icpFrames pl n r rd r.count 0
            match x.2.2 with
            | some st => (x.1.icpAnswer r st x.2.1).rejoinNow p n
            | none => x.1
      | _, _ => d

end Sys2Proof.Machine
end

