-- ==== Sys2Proof/Machine/Meter.lean ====
section
/-! DEFINITION. The sealed meter die (R566 to R580), its I3C port (R577, R578), and the bridge between it and the hardpan (R569,
R581 to R586). -/
namespace Sys2Proof.Machine
open Host

/-! ## Registers and log -/

/-- A log entry is written; a full log loses its oldest (R576). -/
def MeterRegs.logEntry (r : MeterRegs) (type data : Nat) : MeterRegs :=
  let e : LogEntry := { seq := r.logseq + 1, seconds := r.seconds.setWidth 32, energy := r.energy.setWidth 48,
                        type := BitVec.ofNat 8 type, data := BitVec.ofNat 8 data }
  let full := decide (1024 ≤ r.log.length)
  { r with log := (if full then r.log.drop 1 else r.log) ++ [e], logseq := r.logseq + 1,
           logwraps := if full then r.logwraps + 1 else r.logwraps }

/-- The die's registers changed. -/
def MeterDie.upd (m : MeterDie) (f : MeterRegs → MeterRegs) : MeterDie := { m with regs := f m.regs }

/-- The meter does what `f` says while MVDD is within range (R570). -/
def MeterDie.on (m : MeterDie) (f : MeterDie → MeterDie) : MeterDie := if m.powered then f m else m

/-- FLAGS (R568). -/
def MeterRegs.flags (r : MeterRegs) : Nat := b2n r.tamper + 2 * b2n r.calFault + 4 * b2n r.clockFault + 8 * b2n r.unmetered

/-! ## Power, seconds, energy -/

/-- METER_POWER_UP: the registers come from the store; the calibration is checked; log entries of TYPE 1, 4 and 6 (R570 to R573). -/
def MeterDie.powerUp (m : MeterDie) (railsUp calOk : Bool) : MeterDie :=
  if m.powered then m
  else
    let r0 := m.store.logEntry 1 0
    let r1 := if calOk then r0 else { r0 with calFault := true }.logEntry 4 0
    let r2 := if railsUp then { r1 with unmetered := true }.logEntry 6 0 else r1
    { m with powered := true, regs := r2, calOk := calOk, power := 0, internal := r2.clockFault, ptr := 0, nonce := none, rstat := 0,
             readout := [], logsel := 0, dynAddr := none, mwl := 0, mrl := 0, ibiEn := false, bus := [], cntSeq := none,
             badCounts := 0, wrMinute := 0 }

/-- METER_POWER_UP (R570, R572, R573). -/
def execMeterPowerUp (railsUp calOk : Bool) (s : State) : Outcome State Fault Refusal := s.meter fun m => m.powerUp railsUp calOk

/-- MVDD_POWER_FAIL: a TYPE 2 entry, and the registers are stored (R570, R576). -/
def execMvddPowerFail (s : State) : Outcome State Fault Refusal :=
  s.meter fun m => m.on fun m =>
    let r := m.regs.logEntry 2 0
    { m with regs := r, store := r, powered := false }

/-- Samples of 1 mW that make 1 mWh at 4 kHz (R566). -/
def samplesPerMwh : Nat := 14400000

/-- METER_SAMPLE: the metered groups' total power accumulates into ENERGY, unless the calibration failed (R566, R573). -/
def execMeterSample (mw : Nat) (s : State) : Outcome State Fault Refusal :=
  s.meter fun m => m.on fun m =>
    if m.regs.calFault then { m with power := mw }
    else
      let f := m.regs.energyFrac + mw
      { m with power := mw, pulse := m.pulse + f / samplesPerMwh,
               regs := { m.regs with energy := m.regs.energy + BitVec.ofNat 64 (f / samplesPerMwh), energyFrac := f % samplesPerMwh } }

/-- METER_SECOND: SECONDS, and OPTIME at 1 W or more (R568, R573). -/
def execMeterSecond (s : State) : Outcome State Fault Refusal :=
  s.meter fun m => m.on fun m => m.upd fun r =>
    { r with seconds := r.seconds + 1,
             optime := if decide (1000 ≤ m.power) && !r.calFault then r.optime + 1 else r.optime }

/-- METER_STORE (R570). -/
def execMeterStore (s : State) : Outcome State Fault Refusal := s.meter fun m => m.on fun m => { m with store := m.regs }

/-- Bytes 0x000 to 0x0FF of a signed readout (R580). -/
def MeterDie.readoutHead (m : MeterDie) (nonce : BitVec 256) : List Byte :=
  let r := m.regs
  leBytes 4 0x524D5A56 ++ leBytes 2 1 ++ leBytes 2 r.flags ++ leBytes 16 m.serial.toNat ++ leBytes 48 m.romDigest.toNat ++
  leBytes 48 m.calDigest.toNat ++ leBytes 8 r.rseq.toNat ++ leBytes 8 r.seconds.toNat ++ leBytes 8 r.energy.toNat ++
  leBytes 8 r.optime.toNat ++ leBytes 8 r.wrcount.toNat ++ leBytes 4 r.logseq.toNat ++ leBytes 4 r.logwraps.toNat ++
  leBytes 32 nonce.toNat ++ leBytes 56 0

/-- A list cut or filled with zero bytes to a length. -/
def padTo (n : Nat) (l : List Byte) : List Byte := (l ++ List.replicate n 0).take n

/-- A signed readout of 16,864 bytes (R580). -/
def MeterDie.signed (m : MeterDie) (nonce : BitVec 256) : List Byte :=
  let h := m.readoutHead nonce
  h ++ padTo 16608 (Config.meterSign h)

/-- The entries of TYPE 7 and 8 at the end of a minute (R576). -/
def MeterDie.minuteLog (m : MeterDie) : MeterDie :=
  let r1 := if m.badCounts = 0 then m.regs else m.regs.logEntry 7 (min 255 m.badCounts)
  let r2 := if m.wrMinute = 0 then r1 else r1.logEntry 8 (min 255 m.wrMinute)
  { m with regs := r2, badCounts := 0, wrMinute := 0 }

/-- METER_MINUTE, at a full minute of SECONDS: the minute's log entries; a readout is signed, served to the port when a nonce was
pending (R576, R578, R579). -/
def execMeterMinute (s : State) : Outcome State Fault Refusal :=
  s.meter fun m => m.on fun m =>
    if m.regs.seconds.toNat % 60 ≠ 0 then m
    else
      let m1 := m.minuteLog.upd fun r => { r with rseq := r.rseq + 1 }
      match m1.nonce with
      | some n => { m1 with nonce := none, rstat := 2, readout := m1.signed n, ibi := m1.ibi + b2n m1.ibiEn }
      | none => m1

/-- METER_TAMPER (R571). -/
def execMeterTamper (s : State) : Outcome State Fault Refusal :=
  s.meter fun m => m.on fun m => m.upd fun r => { r with tamper := true }.logEntry 3 0

/-- CRYSTAL_FAULT (R574). -/
def execCrystalFault (s : State) : Outcome State Fault Refusal :=
  s.meter fun m => m.on fun m =>
    if m.regs.clockFault then m
    else { m with internal := true, regs := { m.regs with clockFault := true }.logEntry 5 1 }

/-- CRYSTAL_RECOVERED (R574). -/
def execCrystalRecovered (s : State) : Outcome State Fault Refusal :=
  s.meter fun m => m.on fun m =>
    if m.regs.clockFault then { m with internal := false, regs := { m.regs with clockFault := false }.logEntry 5 0 } else m

/-- MPULSE_IMPULSE: one impulse for each 0.1 Wh (R573, R575). -/
def execMpulseImpulse (s : State) : Outcome State Fault Refusal :=
  s.meter fun m => m.on fun m =>
    if 100 ≤ m.pulse ∧ !m.regs.calFault then { m with pulse := m.pulse - 100, pulses := m.pulses + 1 } else m

/-! ## The I3C port -/

/-- A write-capable access counts (R578). -/
def MeterDie.countWrite (m : MeterDie) : MeterDie := { m.upd (fun r => { r with wrcount := r.wrcount + 1 }) with wrMinute := m.wrMinute + 1 }

/-- A nonce for the next signed readout; one that arrives while another is pending is refused (R577, R579). A write of fewer than 32
bytes holds no nonce (log 36). -/
def MeterDie.takeNonce (m : MeterDie) (l : List Byte) : MeterDie :=
  if l.length < 32 then m
  else if m.nonce.isSome then { m with rstat := 3 }
  else { m with nonce := some (BitVec.ofNat 256 (leNat (l.take 32))), rstat := 1 }

/-- LOGSEL takes a 2-byte index (R577). -/
def MeterDie.takeLogsel (m : MeterDie) (l : List Byte) : MeterDie := if l.length < 2 then m else { m with logsel := leNat (l.take 2) }

/-- A private write: its first byte is the pointer, data counts and goes to REQ or LOGSEL or nowhere (R577, R578). -/
def MeterDie.privateWrite (m : MeterDie) (ptr : Byte) (data : List Byte) : MeterDie :=
  let m1 := { m with ptr := ptr }
  if data.isEmpty then m1
  else
    let m2 := m1.countWrite
    if ptr = 0x20 then m2.takeNonce data else if ptr = 0x40 then m2.takeLogsel data else m2

/-- I3C_PRIVATE_WRITE (R577, R578). -/
def execI3cPrivateWrite (ptr : BitVec 8) (data : List (BitVec 8)) (s : State) : Outcome State Fault Refusal :=
  s.meter fun m => m.on fun m => m.privateWrite ptr data

/-- REQ: a private write of a nonce at pointer 0x20 (R579). -/
def execReq (nonce : List (BitVec 8)) (s : State) : Outcome State Fault Refusal :=
  s.meter fun m => m.on fun m => m.privateWrite 0x20 nonce

/-- LOGSEL: a private write of an index at pointer 0x40 (R577). -/
def execLogsel (data : List (BitVec 8)) (s : State) : Outcome State Fault Refusal :=
  s.meter fun m => m.on fun m => m.privateWrite 0x40 data

/-- The 16 bytes of a log entry (R576). -/
def LogEntry.bytes (e : LogEntry) : List Byte :=
  leBytes 4 e.seq.toNat ++ leBytes 4 e.seconds.toNat ++ leBytes 6 e.energy.toNat ++ [e.type, e.data]

/-- Pointer 0x10's item (R577). -/
def MeterRegs.block (r : MeterRegs) : List Byte :=
  leBytes 8 r.seconds.toNat ++ leBytes 8 r.energy.toNat ++ leBytes 8 r.optime.toNat ++ leBytes 8 r.wrcount.toNat ++
  leBytes 4 r.logseq.toNat ++ leBytes 4 r.logwraps.toNat ++ leBytes 2 r.flags ++ leBytes 6 0

/-- The item a pointer selects for reading (R577). -/
def MeterDie.item (m : MeterDie) (ptr : Nat) : List Byte :=
  if ptr = 0x00 then leBytes 16 m.serial.toNat
  else if ptr = 0x10 then m.regs.block
  else if ptr = 0x28 then [m.rstat]
  else if ptr = 0x30 then m.readout
  else if ptr = 0x44 then (match m.regs.log[m.logsel]? with | some e => e.bytes | none => [])
  else if ptr = 0x50 then leBytes 4 Config.meterCert.length ++ Config.meterCert
  else if ptr = 0x60 then
    allParts.flatMap fun p => leBytes 8 (tget m.regs.dcyc p 0).toNat ++ leBytes 8 (tget m.regs.plotms p 0).toNat
  else []

/-- I3C_PRIVATE_READ: the item from its first byte, zeros past its end (R577). -/
def execI3cPrivateRead (len : Nat) (s : State) : Outcome State Fault Refusal :=
  s.meter fun m => m.on fun m => { m with bus := padTo len (m.item m.ptr.toNat) }

/-- SETDASA and ENTDAA give a dynamic address to a target that has none (R577). -/
def MeterDie.assign (m : MeterDie) (a : BitVec 7) : MeterDie := if m.dynAddr.isNone then { m with dynAddr := some a } else m

/-- SETDASA (R577). -/
def execSetdasa (addr : BitVec 7) (s : State) : Outcome State Fault Refusal := s.meter fun m => m.on fun m => m.assign addr

/-- ENTDAA (R577). -/
def execEntdaa (addr : BitVec 7) (s : State) : Outcome State Fault Refusal := s.meter fun m => m.on fun m => m.assign addr

/-- A code addressed to the meter by its dynamic address that counts as a write-capable access (R578). -/
def MeterDie.coded (m : MeterDie) (f : MeterDie → MeterDie) : MeterDie := if m.dynAddr.isSome then f m.countWrite else m

/-- SETNEWDA (R578). -/
def execSetnewda (addr : BitVec 7) (s : State) : Outcome State Fault Refusal :=
  s.meter fun m => m.on fun m => m.coded fun m => { m with dynAddr := some addr }

/-- SETMWL (R578). -/
def execSetmwl (v : BitVec 16) (s : State) : Outcome State Fault Refusal :=
  s.meter fun m => m.on fun m => m.coded fun m => { m with mwl := v }

/-- SETMRL (R578). -/
def execSetmrl (v : BitVec 16) (s : State) : Outcome State Fault Refusal :=
  s.meter fun m => m.on fun m => m.coded fun m => { m with mrl := v }

/-- ENEC: the in-band interrupt is enabled, and raised when RSTAT is 2 (R578). -/
def execEnec (s : State) : Outcome State Fault Refusal :=
  s.meter fun m => m.on fun m => { m with ibiEn := true, ibi := m.ibi + b2n (!m.ibiEn && decide (m.rstat = 2)) }

/-! ## The bridge, hardpan side -/

/-- A readout frame fails its CRC: discarded, counted, event 0x0B06 (R581). -/
def Dev.badReadout (d : Dev) : Dev := { d with mtr := { d.mtr with badFrames := sat1 d.mtr.badFrames } }.post 0x0B06 1

/-- Event 0x0B07, at most once per second: WRCOUNT rose since the last one, or since the first frame (R585). -/
def Dev.postRose (d : Dev) (first : Bool) : Dev :=
  let m := d.mtr
  let rose := (m.wrcount - m.wrPosted).toNat
  if first then { d with mtr := { m with wrPosted := m.wrcount } }
  else if rose = 0 ∨ m.wrTime.any (fun t => decide ((d.evt.time - t).toNat < evtSecond)) then d
  else { d with mtr := { m with wrPosted := m.wrcount, wrTime := some d.evt.time } }.post 0x0B07 rose

/-- A valid value frame: the MTR registers take it, with events for the link, flags newly set, CLOCK_FAULT cleared and a risen WRCOUNT
(R585, R586). -/
def Dev.takeValues (d : Dev) (r : MeterRegs) : Dev :=
  let m := d.mtr
  let first := m.rxTime.isNone
  let new := BitVec.ofNat 4 r.flags &&& ~~~m.flags
  let cleared := m.flags.getLsbD 2 && !r.clockFault
  let d1 := { d with mtr := { m with
    link := true, lost := false, flags := BitVec.ofNat 4 r.flags, seconds := r.seconds, energy := r.energy, optime := r.optime,
    wrcount := r.wrcount, logseq := r.logseq, logwraps := r.logwraps, rxTime := some d.evt.time,
    dcyc := allParts.map (fun p => (p, tget r.dcyc p 0)), plotms := allParts.map (fun p => (p, tget r.plotms p 0)) } }
  let d2 := if m.lost then d1.post 0x0B02 0 else d1
  let d3 := if new = 0 then d2 else d2.post 0x0B04 new.toNat
  let d4 := if cleared then d3.post 0x0B05 0 else d3
  d4.postRose first

/-- Bytes of a value frame before its CRC (R581). -/
def valueLen : Nat := 1072

/-- A value frame: the items of pointers 0x10 and 0x60, and the CRC-32C (R577, R581). -/
def MeterDie.valueFrame (m : MeterDie) : List Byte :=
  let l := m.item 0x10 ++ m.item 0x60
  l ++ leBytes 4 (crc32c l).toNat

/-- A value frame passes its CRC (R581). -/
def valueOk (w : List Byte) : Bool := decide ((crc32c (w.take valueLen)).toNat = leNat (w.drop valueLen))

/-- The values that a value frame holds (R577, R581). -/
def valuesOf (w : List Byte) : MeterRegs :=
  let num (at_ len : Nat) : Nat := leNat ((w.drop at_).take len)
  let flags := num 40 2
  { seconds := BitVec.ofNat 64 (num 0 8), energy := BitVec.ofNat 64 (num 8 8), optime := BitVec.ofNat 64 (num 16 8),
    wrcount := BitVec.ofNat 64 (num 24 8), logseq := BitVec.ofNat 32 (num 32 4), logwraps := BitVec.ofNat 32 (num 36 4),
    tamper := bit flags 0, calFault := bit flags 1, clockFault := bit flags 2, unmetered := bit flags 3,
    dcyc := allParts.map fun p => (p, BitVec.ofNat 64 (num (32 + 16 * p) 8)),
    plotms := allParts.map fun p => (p, BitVec.ofNat 64 (num (40 + 16 * p) 8)) }

/-- VALUE_FRAME: the meter's registers arrive, with the bits of the frame that change on the link; a frame that fails its CRC is
discarded (R581). -/
def execValueFrame (upset : List (Nat × BitVec 8)) (s : State) : Outcome State Fault Refusal :=
  s.run fun x =>
    let w := changeBytes s.die.valueFrame upset
    if !s.die.powered then x
    else if w = s.die.valueFrame then x.takeValues s.die.regs
    else if valueOk w then x.takeValues (valuesOf w)
    else x.badReadout

/-- SIGNED_READOUT_FRAME, as it arrives with its CRC-32C: every waiting form 1 completes with it (R581, R584). -/
def execSignedReadoutFrame (bytes : List (BitVec 8)) (crc : BitVec 32) (s : State) : Outcome State Fault Refusal :=
  s.run fun x =>
    if !s.die.powered ∨ bytes.length ≠ 16864 then x
    else if crc32c bytes ≠ crc then x.badReadout
    else
      let l := x.ops.filter waitsReadout
      let y := l.foldl (fun e o => (e.writeBlock o 0 bytes).done o.thread o.slot) x
      if l.isEmpty then y else { y with mtr := { y.mtr with form1 := some y.evt.time } }

/-- One partition's count frame, as far as its fields hold the increments (R582). -/
def Dev.sendCount (d : Dev) (p : Nat) : Dev :=
  let q := d.part p
  if q.dcycInc = 0 ∧ q.plotmsInc = 0 then d
  else
    let a := min q.dcycInc (2 ^ 48 - 1)
    let b := min q.plotmsInc (2 ^ 32 - 1)
    let f : CountFrame := { type := 1, part := BitVec.ofNat 8 p, seq := d.mtr.seqNo, dcyc := BitVec.ofNat 48 a, plotms := BitVec.ofNat 32 b }
    let d1 := d.updPart p fun q => { q with dcycInc := q.dcycInc - a, plotmsInc := q.plotmsInc - b }
    { d1 with mtr := { d1.mtr with seqNo := d1.mtr.seqNo + 1, sent := d1.mtr.sent ++ [f] } }

/-- COUNT_FRAME_SEND (R582). -/
def execCountFrameSend (s : State) : Outcome State Fault Refusal :=
  s.run fun x => if x.feat 13 then forAll allParts x Dev.sendCount else x

/-- The meter's checks of a count frame (R582). -/
def MeterDie.accepts (m : MeterDie) (f : CountFrame) : Bool :=
  decide (f.type = 1) && decide (1 ≤ f.part.toNat) && decide (f.part.toNat ≤ 64) && decide (m.cntSeq ≠ some f.seq)

/-- The 14 bytes of a count frame before its CRC-16 (R582). -/
def CountFrame.bytes (f : CountFrame) : List Byte :=
  [f.type, f.part] ++ leBytes 2 f.seq.toNat ++ leBytes 6 f.dcyc.toNat ++ leBytes 4 f.plotms.toNat

/-- The 16 bytes of a count frame, byte 0 lowest (R582). -/
def CountFrame.wire (f : CountFrame) : BitVec 128 := BitVec.ofNat 128 (leNat (f.bytes ++ leBytes 2 (crc16 f.bytes).toNat))

/-- The count frame that 16 bytes spell (R582). -/
def countOf (w : BitVec 128) : CountFrame :=
  { type := w.extractLsb' 0 8, part := w.extractLsb' 8 8, seq := w.extractLsb' 16 16, dcyc := w.extractLsb' 32 48,
    plotms := w.extractLsb' 80 32 }

/-- The CRC-16 of 16 bytes as they arrive is right (R582). -/
def countOk (w : BitVec 128) : Bool := decide (crc16 (countOf w).bytes = w.extractLsb' 112 16)

/-- 16 bytes reach the meter: `sent` as they left, `upset` the bits that changed; the frame they spell counts when it passes its checks
(R582). -/
def MeterDie.takeCount (m : MeterDie) (sent : CountFrame) (upset : BitVec 128) : MeterDie :=
  let w := sent.wire ^^^ upset
  let f := if upset = 0 then sent else countOf w
  if (decide (upset = 0) || countOk w) && m.accepts f then
    let p := f.part.toNat
    { m.upd (fun r => { r with dcyc := tupd r.dcyc p 0 (· + f.dcyc.setWidth 64), plotms := tupd r.plotms p 0 (· + f.plotms.setWidth 64) })
      with cntSeq := some f.seq }
  else { m with badCounts := m.badCounts + 1 }

/-- COUNT_FRAME: the oldest frame under way reaches the meter, with the bits that change on the link (R582). -/
def execCountFrame (upset : BitVec 128) (s : State) : Outcome State Fault Refusal :=
  match s.dev.mtr.sent with
  | [] => .next s
  | f :: rest => .next { s with
      dev := { s.dev with mtr := { s.dev.mtr with sent := rest } }, die := s.die.on fun m => m.takeCount f upset }

/-- METER_LINK_LOST: no valid value frame for 3 s; event 0x0B01 (R585). -/
def execMeterLinkLost (secs : BitVec 32) (s : State) : Outcome State Fault Refusal :=
  s.run fun x =>
    if x.mtr.lost then x else { x with mtr := { x.mtr with lost := true, link := false } }.post 0x0B01 secs.toNat

end Sys2Proof.Machine
end

