-- ==== Sys2Proof/Machine/RegRead.lean ====
section
/-! DEFINITION. What every register of PF0 BAR0 and of the VF windows reads (R13, R49 and the register tables). A field with no state of
its own is computed here. Write-only and reserved fields read zero (R15, R17). -/
namespace Sys2Proof.Machine
open Host

/-- A register of fields (lowest bit, width, value). -/
def pack (l : List (Nat × Nat × Nat)) : Word :=
  BitVec.ofNat 64 (l.foldl (fun acc x => acc + x.2.2 % 2 ^ x.2.1 * 2 ^ x.1) 0)

/-- A register of one value. -/
def plain (n : Nat) : Word := BitVec.ofNat 64 n

/-- Index of `o` in an array of 8-byte registers from `base`, of numbers `first` to `last` counted from 0 at `base`. -/
def regIdx (o base first last : Nat) : Option Nat :=
  let i := (o - base) / 8
  if base ≤ o ∧ first ≤ i ∧ i ≤ last then some i else none

/-! ## Encodings of states -/

/-- BOOT_STATUS.PHASE (R55). -/
def Phase.num : Phase → Nat
  | .selftest => 0 | .waitImage => 1 | .verify => 2 | .loading => 3 | .running => 4 | .lowpwr => 5 | .failed => 6 | .sealed => 7
/-- SEQ_THR_n.STATE (R258). -/
def TState.num : TState → Nat
  | .idle => 0 | .run => 1 | .wait => 2 | .trapped => 3 | .suspended => 4 | .held => 5
/-- FAB_PLOT_n.STATE (R131). -/
def PlotState.num : PlotState → Nat
  | .free => 0 | .loading => 1 | .ready => 2 | .running => 3 | .frozen => 4 | .clearing => 5 | .mappedOut => 6
/-- MEM_DDR_CH_c.STATE (R385). -/
def MState.num : MState → Nat
  | .absent => 0 | .training => 1 | .active => 2 | .selfRefresh => 3 | .draining => 4 | .off => 5 | .failed => 6
/-- IME_KEYID_k.STATE (R412). -/
def KState.num : KState → Nat
  | .free => 0 | .active => 1 | .retiring => 2 | .retired => 3
/-- IME_KEYID_k.MODE (R389). -/
def KMode.num : KMode → Nat
  | .plain => 0 | .sealed => 1 | .verified => 2
/-- IME_NK_PORT_n.STATE (R435). -/
def NkState.num : NkState → Nat
  | .down => 0 | .handshake => 1 | .sealed => 2 | .bypass => 3 | .retryWait => 4
/-- RING_PORT_n.STATE (R501). -/
def PortState.num : PortState → Nat
  | .down => 0 | .training => 1 | .sealing => 2 | .up => 3 | .bypass => 4
/-- NOC_STOP_s.STATE and RING_CTRL_r.STATE (R466, R501). -/
def StopState.num : StopState → Nat
  | .absent => 0 | .on => 1 | .draining => 2 | .drained => 3 | .fenced => 4 | .off => 5

/-! ## Host link, boot, resets, keep registers and events -/

/-- ID block (R91, R603). -/
def Dev.readId (d : Dev) (f : Fuses) (o : Nat) : Word :=
  let b := d.boot
  match o with
  | 0x00 => pack [(32, 16, 0x3208), (24, 8, f.majorRev.toNat), (16, 8, f.minorRev.toNat), (8, 2, f.lifecycle.toNat)]
  | 0x08 => f.serial.setWidth 64
  | 0x10 => f.offer0
  | 0x18 => f.offer1
  | 0x20 => b.drv0
  | 0x28 => b.drv1
  | 0x30 => pack [(16, 1, b2n b.rejectCause), (8, 8, b.rejectBit.toNat), (2, 1, b2n b.rejected), (1, 1, b2n b.locked)]
  | 0x38 => pack [(0, 4, b.straps.toNat)]
  | _ => 0

/-- BOOT block (R91): FW_VERSION is 0 before RUNNING. -/
def Dev.readBoot (d : Dev) (f : Fuses) (o : Nat) : Word :=
  let b := d.boot
  match o with
  | 0x00 => pack [(32, 32, b.fwVersion.toNat), (16, 16, b.err.toNat), (0, 4, b.phase.num)]
  | 0x08 => pack [(32, 24, b.length.toNat)]
  | 0x10 => pack [(0, 12, b.timeout.toNat)]
  | 0x18 => pack [(15, 1, b2n b.svnTarget.isSome), (8, 7, b.svnImage), (0, 7, f.svnFused)]
  | 0x20 => pack [(1, 1, b2n b.attestDone)]
  | _ => 0

/-- RST block (R91, R92). -/
def Dev.readRst (d : Dev) (o : Nat) : Word :=
  match o with
  | 0x08 => pack [(4, 3, d.rst.last.toNat), (0, 1, b2n d.rst.svc.isSome)]
  | 0x10 => pack [(0, 16, d.rst.svcWait.toNat)]
  | _ => 0

/-- KEEP block (R71, R75, R92). -/
def Dev.readKeep (d : Dev) (o : Nat) : Word :=
  match regIdx o 0 0 511 with
  | some i =>
    let k := d.keepReg i
    pack [(49, 1, b2n k.worn), (32, 17, k.wcount), (0, 32, k.value.toNat)]
  | none => if o = 0x1000 then pack [(1, 1, b2n d.keep.readErr), (0, 1, b2n !d.keep.persisting.isEmpty)] else 0

/-- Half of an event record: the low or the high word (R84, R86). -/
def EvtRec.half (r : EvtRec) (high : Bool) : Word :=
  if high then pack [(8, 56, r.time.toNat), (0, 8, r.source.toNat)]
  else pack [(57, 7, r.part.toNat), (54, 3, r.cls.toNat), (49, 1, b2n r.sealed), (48, 1, b2n r.ovf), (32, 16, r.code.toNat),
    (0, 32, r.detail.toNat)]

/-- Half of an MSI-X table entry (R89; PCIe base specification, log 4). -/
def Msix.half (m : Msix) (high : Bool) : Word :=
  if high then pack [(32, 1, b2n m.masked), (0, 32, m.data.toNat)] else m.addr

/-- Pending bits of a function with `n` vectors (R89). -/
def Dev.pba (d : Dev) (fn n : Nat) : Word := plain ((span 0 n).foldl (fun acc v => acc + b2n (d.evt.pba.contains (64 * fn + v)) * 2 ^ v) 0)

/-- EVT block with PF0's MSI-X table, PBA and queue (R49, R86, R89, R91). -/
def Dev.readEvt (d : Dev) (o : Nat) : Word :=
  let e := d.evt
  match o with
  | 0x00 => plain e.pf.prod
  | 0x08 => plain e.pf.cons
  | 0x10 => pack [(0, 32, e.pf.lost.toNat)]
  | 0x18 => pack [(0, 8, e.mask.toNat)]
  | 0x20 => pack [(0, 56, e.time.toNat)]
  | _ =>
    match regIdx o 0x8000 0 127, regIdx o 0x10000 0 8191 with
    | some i, _ => (d.msix 0 (i / 2)).half (decide (i % 2 = 1))
    | _, some i => (tget e.pf.slots (i / 2) {}).half (decide (i % 2 = 1))
    | _, _ => if o = 0xC000 then d.pba 0 64 else 0

/-! ## Sequencer, fabric and placer -/

/-- SEQ block (R293). -/
def Dev.readSeq (d : Dev) (o : Nat) : Word :=
  let q := d.seq
  match o with
  | 0x00 =>
    let active := (allThreads.filter fun n => decide ((d.thr n).state = .run) || decide ((d.thr n).state = .wait)).length
    pack [(40, 8, q.queue.length), (32, 8, active), (16, 4, q.swap.toNat), (2, 1, b2n q.double), (1, 1, b2n (decide (q.tvec ≠ 0))),
      (0, 1, b2n q.trapMode)]
  | 0x08 => pack [(48, 16, q.last.code.toNat), (32, 7, q.last.thread), (0, 22, q.last.pc.toNat)]
  | 0x10 => q.last.tval
  | 0x18 => pack [(48, 16, q.hotCode.toNat), (40, 8, q.hotCause.toNat), (0, 16, q.hotWait.toNat)]
  | _ =>
    match regIdx o 0x100 0 64, regIdx o 0x400 0 64 with
    | some n, _ => ((d.thr n).winNext.getD (d.win n))
    | _, some n => pack [(52, 5, (d.thr n).busySlots.length), (45, 3, (d.thr n).state.num), (0, 22, (d.thr n).pc.toNat)]
    | _, _ => 0

/-- The grain clock of a plot is gated (R134). -/
def Dev.gated (d : Dev) (n : Nat) : Bool :=
  match (d.plot n).state with
  | .mappedOut | .ready => true
  | .free => d.fab.gateFree
  | .frozen => d.fab.gateFrozen
  | _ => false

/-- FENCE of FAB_PLOT_n: north, east, south, west, vertical from bit 0; 1 is closed (R133). -/
def Dev.fences (d : Dev) (n : Nat) : Nat :=
  let shut (m : Option Nat) : Bool := !m.any (d.fenceOpen n)
  (span 0 4).foldl (fun acc k => acc + b2n (shut (neighbour n k)) * 2 ^ k) (b2n (shut (some (overPlot n))) * 16)

/-- FAB_PLOT_n (R140). -/
def Dev.readPlot (d : Dev) (n : Nat) : Word :=
  let x := d.plot n
  pack [(51, 13, x.vldis.toNat), (46, 1, b2n x.rewind), (45, 1, b2n (d.gated n)), (40, 5, d.fences n), (32, 3, x.state.num),
    (30, 2, if x.part = 0 then 0 else (d.part x.part).ctx), (21, 9, x.logical), (0, 7, x.part)]

/-- FAB_PART_p and PVF_STATE (R140, R256). -/
def Dev.readPart (d : Dev) (p : Nat) : Word :=
  let q := d.part p
  pack [(61, 3, q.state.num), (60, 1, b2n q.placement.isSome), (59, 1, b2n q.headFull.isSome), (58, 1, b2n q.headPart.isSome),
    (57, 1, b2n q.startGrp), (56, 1, b2n q.reqSig), (55, 1, b2n q.exempt), (54, 1, b2n q.pinsKnown), (53, 1, b2n q.grant.isSome),
    (52, 1, b2n ((d.plotsOf p).any fun n => (d.plot n).icpLoading)), (50, 2, q.ctx), (41, 9, q.plots), (23, 18, q.banks.toNat)]

/-- Plots of a tier that are mapped out (R138). -/
def Dev.badPlots (d : Dev) (tier : Nat) : Nat := ((span (256 * tier) 256).filter fun n => decide ((d.plot n).state = .mappedOut)).length

/-- FAB block (R140, R600). -/
def Dev.readFab (d : Dev) (o : Nat) : Word :=
  let f := d.fab
  let s := d.start
  match o with
  | 0x00 => pack [(48, 8, d.inUse 1), (40, 8, d.inUse 0), (32, 8, d.badPlots 1), (24, 8, d.badPlots 0), (16, 8, d.usable 1),
      (8, 8, d.usable 0)]
  | 0x08 => pack [(1, 1, b2n f.gateFrozen), (0, 1, b2n f.gateFree)]
  | 0x10 => pack [(63, 1, b2n f.vlValid), (60, 3, f.vlCtx.toNat), (48, 9, f.vlPlot.toNat), (36, 12, f.vlLane.toNat), (0, 32, f.vlCount.toNat)]
  | 0x18 => pack [(32, 32, s.tStart.toNat), (16, 8, s.starts.toNat), (3, 1, b2n s.failed), (2, 1, b2n s.waiting), (1, 1, b2n s.line),
      (0, 1, b2n s.hold)]
  | 0x20 => pack [(15, 1, b2n s.sfFw), (14, 1, b2n s.sfScrub), (13, 1, b2n s.sfCensus), (12, 1, b2n d.ime.sealed), (5, 1, b2n s.sfSeen),
      (4, 1, b2n s.sfLine), (2, 1, b2n s.sfFw), (1, 1, b2n s.sfScrubEn), (0, 1, b2n s.sfCensusEn)]
  | _ =>
    match regIdx o 0x1000 0 511, regIdx o 0x3000 1 64, regIdx o 0x4000 0 17 with
    | some n, _, _ => d.readPlot n
    | _, some p, _ => d.readPart p
    | _, _, some b => tget f.iobank b 1 ||| pack [(62, 2, tget f.vccio b 3)]
    | _, _, _ => 0

/-- PLC_PART_p (R220). -/
def Dev.readPlacement (d : Dev) (p : Nat) : Word :=
  match (d.part p).placement with
  | some pl =>
    let placed := pl.sched.total
    pack [(48, 16, placed), (32, 16, placed - pl.compiled.foldl (· + ·) 0), (23, 9, pl.map.length),
      (0, 23, (pl.netLens.filter fun n => decide (2 ≤ n)).length)]
  | none => 0

/-- PLC block (R220). -/
def Dev.readPlc (d : Dev) (o : Nat) : Word :=
  let c := d.plc
  match o with
  | 0x00 => pack [(8, 8, c.wTherm.toNat), (0, 8, c.improve.toNat)]
  | 0x08 => pack [(63, 1, b2n c.search.isSome), (48, 7, c.lastPart), (32, 16, c.lastCode.toNat), (0, 32, c.lastTime.toNat)]
  | 0x10 => pack [(63, 1, b2n c.migrEn), (32, 16, c.period.toNat), (16, 8, c.maxPages.toNat), (0, 16, c.hot.toNat)]
  | 0x18 => pack [(32, 32, c.promoted.toNat), (0, 32, c.demoted.toNat)]
  | 0x20 => pack [(63, 1, b2n !c.migs.isEmpty), (48, 7, c.movePart), (39, 9, c.moveLogical), (30, 9, c.moveFrom), (21, 9, c.moveTo),
      (0, 21, c.moveHold.toNat)]
  | _ => match regIdx o 0x100 1 64 with
    | some p => d.readPlacement p
    | none => 0

/-! ## Memory, inline encryption and the rings -/

/-- MEM_DDR_CH_c (R385): DIMMS, INSTALLED, USER and BASE read 0 while ABSENT. -/
def Dev.readChan (d : Dev) (c : Nat) : Word :=
  let h := d.chan c
  let k := b2n (decide (h.state ≠ .absent))
  pack [(61, 3, h.state.num), (57, 1, b2n h.rate), (56, 1, b2n h.tds), (54, 2, k * h.dimms), (32, 16, k * h.user), (16, 16, k * h.base),
    (0, 16, k * h.gib)]

/-- MEM block (R385). -/
def Dev.readMem (d : Dev) (o : Nat) : Word :=
  let m := d.mem
  match o with
  | 0x00 => pack [(0, 18, m.uePolicy.toNat)]
  | 0x08 => pack [(32, 16, m.leakMs.toNat), (0, 16, m.capacity.toNat)]
  | 0x10 => pack [(63, 1, b2n m.ueValid), (58, 5, m.ueClass.toNat), (56, 2, m.ueKind.toNat), (0, 48, m.ueAddr.toNat)]
  | 0x18 => pack [(8, 4, m.kDdr.toNat), (0, 4, m.kMarl.toNat)]
  | 0x20 => pack [(48, 16, m.maxNs.toNat), (0, 16, m.retrainMs.toNat)]
  | _ =>
    match regIdx o 0x100 0 17, regIdx o 0x200 0 7, regIdx o 0x400 1 64, regIdx o 0x600 1 64 with
    | some n, _, _, _ =>
      let b := tget m.buckets n {}
      pack [(32, 32, b.corrected.toNat), (31, 1, b2n b.latch), (16, 15, b.overflows.toNat), (0, 16, b.level.toNat)]
    | _, some c, _, _ => d.readChan c
    | _, _, some p, _ =>
      pack [(48, 16, (d.part p).jSize.toNat), (0, 28, match (d.part p).placement.bind (·.jrnl) with
        | some j => j.1 / 2 ^ 20
        | none => 0)]
    | _, _, _, some p =>
      pack [(32, 32, (d.part p).jUsed / 1024), (1, 1, b2n (d.part p).jFull), (0, 1, b2n ((d.part p).placement.bind (·.jrnl)).isSome)]
    | _, _, _, _ => 0

/-- Repair-map entries of a kind that are in force on a tower: spare bumps (KIND 7) and spare banks (KIND 5) in use (R385, R556). -/
def Dev.sparesUsed (d : Dev) (kind m : Nat) : Nat :=
  (d.rel.applied.filter fun e => decide (repairKind e.toNat = kind) && decide (bits e.toNat 26 2 = m)).length

/-- MARL block (R385). -/
def Dev.readMarl (d : Dev) (o : Nat) : Word :=
  match regIdx o 0 0 3, regIdx o 0x100 0 3 with
  | some m, _ =>
    let t := d.tower m
    pack [(61, 3, t.state.num), (59, 2, t.band), (36, 12, t.diesOut.toNat), (24, 8, d.sparesUsed 5 m), (16, 8, d.sparesUsed 7 m)]
  | _, some m => pack [(32, 32, (d.tower m).nref.toNat), (0, 32, (d.tower m).rowMoves.toNat)]
  | _, _ => 0

/-- Bits of the channels that satisfy a condition. -/
def Dev.chanBits (d : Dev) (f : Chan → Bool) : Nat := (span 0 8).foldl (fun acc c => acc + b2n (f (d.chan c)) * 2 ^ c) 0

/-- A rights mask as it reads (R415, R416): entry 0 all ones, others only ACTIVE KeyIDs. -/
def Dev.readRights (d : Dev) (k : Nat) : Word := plain (d.rights (k / 2) (decide (k % 2 = 1)))

/-- IME_KEYID_k (R435). -/
def Dev.readKeyid (d : Dev) (k : Nat) : Word :=
  pack [(62, 2, (d.keyid k).state.num), (60, 2, (d.keyid k).mode.num), (48, 7, d.keyOwner k),
    (32, 16, if k = 0 then 0 else (d.ime.granules.filter fun g => decide (g.2 = k)).length)]

/-- IME block (R435). -/
def Dev.readIme (d : Dev) (o : Nat) : Word :=
  let e := d.ime
  match o with
  | 0x00 => pack [(40, 8, d.chanBits (·.metaReady)), (32, 8, d.chanBits (·.verified)), (0, 1, b2n e.sealed)]
  | 0x08 => pack [(32, 16, e.cause.toNat), (16, 16, e.extra.toNat)]
  | 0x10 => pack [(32, 16, e.rekeyS.toNat), (0, 16, e.retireUs.toNat)]
  | 0x18 =>
    let k := tget e.granules e.bindSel.toNat 0
    pack [(32, 15, e.bindSel.toNat), (7, 1, b2n (decide (k ≠ 0))), (0, 6, k)]
  | 0x20 => pack [(32, 32, e.ccHits.toNat), (0, 32, e.ccMisses.toNat)]
  | 0x28 => pack [(32, 32, e.mcHits.toNat), (0, 32, e.mcMisses.toNat)]
  | 0x30 => pack [(0, 32, e.reenc.toNat)]
  | 0x38 => pack [(48, 12, e.ccPcie.toNat), (36, 12, e.ccNorak.toNat), (24, 12, e.ccFabric.toNat), (12, 12, e.ccSeq.toNat),
      (0, 12, e.ccMemory.toNat)]
  | _ =>
    match regIdx o 0x100 0 7, regIdx o 0x200 0 63, regIdx o 0x400 0 11, regIdx o 0x1000 0 133 with
    | some c, _, _, _ =>
      let h := d.chan c
      pack [(36, 1, b2n h.verified), (32, 4, h.levels), (16, 16, h.carve), (0, 16, h.user)]
    | _, some k, _, _ => d.readKeyid k
    | _, _, some n, _ =>
      let k := d.nk (n % 4)
      if n < 4 then pack [(61, 3, k.state.num), (48, 8, k.epoch.toNat), (32, 16, k.tagFail.toNat), (16, 16, k.handshakes.toNat)]
      else if n < 8 then k.peer else k.seen
    | _, _, _, some k => d.readRights k
    | _, _, _, _ => 0

/-- Requesters now quarantined, all instances (R466). -/
def Dev.quarantined (d : Dev) : Nat := (d.noc.pri.filter fun (e : Nat × ArbPri) => e.2.quar).length

/-- NOC_ARB_PRI_i_r (R466). -/
def Dev.readPri (d : Dev) (i r : Nat) : Word :=
  let y := d.arb i r
  if r < arbReqs i then
    pack [(63, 1, b2n y.quar), (62, 1, b2n y.masked), (61, 1, 1), (32, 16, y.count.toNat), (8, 1, b2n (d.arbHigh i r)), (0, 3, y.level.toNat)]
  else 0

/-- NOC block (R466). -/
def Dev.readNoc (d : Dev) (o : Nat) : Word :=
  let c := d.noc
  match o with
  | 0x00 => pack [(63, 1, b2n c.fatal), (40, 8, min 255 d.quarantined), (0, 32, c.sbCorrected.toNat)]
  | 0x08 => pack [(32, 10, c.quantum.toNat), (12, 3, c.baseMgmt.toNat), (8, 3, c.baseRsp.toNat), (4, 3, c.basePost.toNat),
      (0, 3, c.baseReq.toNat)]
  | 0x10 => pack [(0, 16, c.drainUs.toNat)]
  | 0x18 => pack [(1, 1, b2n c.frozen)]
  | _ =>
    match regIdx o 0x100 0 39, regIdx o 0x400 0 50, regIdx o 0x1000 0 591, regIdx o 0x10000 0 13055 with
    | some s, _, _, _ =>
      let x := d.stop s
      pack [(61, 3, x.state.num), (60, 1, b2n x.forced), (32, 16, x.aborted.toNat)]
    | _, some i, _, _ =>
      if arbReqs i = 0 then 0
      else
        let x := d.arbCfg i
        pack [(56, 8, arbReqs i), (32, 24, x.wd.toNat), (16, 16, x.window.toNat), (0, 16, x.quota.toNat)]
    | _, _, some k, _ => if k % 16 < 10 then tget c.stats k 0 else 0
    | _, _, _, some k => d.readPri (k / 256) (k % 256)
    | _, _, _, _ => 0

/-- Enabled bindings of a partition (R501). -/
def Dev.bindingCount (d : Dev) (p : Nat) : Nat := (d.bindings p).length

/-- RING_PORT_n (R501). -/
def Dev.readPort (d : Dev) (n : Nat) : Word :=
  let x := d.rport n
  pack [(61, 3, x.state.num), (56, 5, x.txLanes), (51, 5, x.rxLanes), (49, 2, x.txSpares), (47, 2, x.rxSpares), (46, 1, b2n x.degraded),
    (40, 6, x.peerPos.getD 0), (39, 1, b2n x.peerPos.isSome), (0, 32, x.replays.toNat)]

/-- RING block (R501). -/
def Dev.readRing (d : Dev) (o : Nat) : Word :=
  let r := d.ring
  match o with
  | 0x00 => pack [(16, 16, r.systemId.toNat), (15, 1, b2n d.onRing), (14, 1, b2n r.enB), (13, 1, b2n r.enA), (6, 7, r.size), (0, 6, r.position)]
  | 0x58 => r.time
  | 0x60 => pack [(16, 1, b2n r.auto), (0, 16, r.periodMs.toNat)]
  | 0x68 => pack [(56, 8, r.round.toNat), (48, 8, r.origin.toNat), (40, 8, r.differ.toNat), (32, 8, r.present.toNat), (0, 32, r.rounds.toNat)]
  | 0x70 => pack [(63, 1, b2n r.locked), (62, 1, b2n (d.onRing && decide (r.position = 0))), (56, 6, r.hops.toNat), (0, 32, r.offset.toNat)]
  | _ =>
    match regIdx o 0x8 0 3, regIdx o 0x28 0 3, regIdx o 0x48 0 1 with
    | some n, _, _ => d.readPort n
    | _, some n, _ => pack [(32, 32, (d.rport n).fecOk.toNat), (0, 32, (d.rport n).fecBad.toNat)]
    | _, _, some k =>
      let c := d.rctl k
      pack [(61, 3, c.state.num), (60, 1, b2n c.forced), (32, 16, c.aborted.toNat)]
    | _, _, _ =>
      match regIdx o 0x400 0 127, regIdx o 0x1000 4 259, regIdx o 0x2000 1 64, regIdx o 0x10000 0 4095 with
      | some k, _, _, _ => plain (bits (tget r.results (k / 2) 0).toNat (64 * (k % 2)) 64)
      | _, some k, _, _ => plain (bits (d.part (k / 4)).exp.toNat (64 * (k % 4)) 64)
      | _, _, some p, _ =>
        let q := d.part p
        pack [(63, 1, b2n q.cut), (48, 8, q.group.toNat), (40, 8, q.gen.toNat), (16, 12, d.bindingCount p), (0, 16, q.stale.toNat)]
      | _, _, _, some b => tget r.cuts b 0
      | _, _, _, _ => 0

/-! ## Observation, thermal, reliability and the meter -/

/-- The partition to which a trigger unit is assigned, 0 for none (R524). -/
def Dev.trigOwner (d : Dev) (u : Nat) : Nat := (allParts.find? fun p => (d.part p).trigs.getLsbD u).getD 0

/-- OBS block (R524): LEVEL shows the pins that are driven (R506). -/
def Dev.readObs (d : Dev) (o : Nat) : Word :=
  let b := d.obs
  match o with
  | 0x00 => pack [(0, 7, b.gib.toNat)]
  | 0x08 => pack [(32, 32, b.refused.toNat), (1, 1, b2n d.tap.busy), (0, 1, b2n b.en)]
  | 0x10 => pack [(32, 32, b.skipped.toNat), (0, 32, (b.level &&& d.poutDriven).toNat)]
  | _ =>
    match regIdx o 0x100 1 64, regIdx o 0x300 1 64, regIdx o 0x500 1 64, regIdx o 0x700 0 15, regIdx o 0x900 1 64 with
    | some p, _, _, _, _ => (d.part p).talloc
    | _, some p, _, _, _ => pack [(16, 32, (d.part p).pout.toNat), (0, 16, (d.part p).trigs.toNat)]
    | _, _, some p, _, _ =>
      let t := (d.part p).trace
      pack [(62, 2, t.state), (61, 1, b2n t.wrapped), (40, 16, t.lost.toNat), (0, 34, t.wptr)]
    | _, _, _, some u, _ =>
      let t := d.trig u
      pack [(63, 1, b2n t.armed), (56, 7, d.trigOwner u), (53, 3, t.state), (0, 32, t.count.toNat)]
    | _, _, _, _, some p => pack [(32, 32, d.snapNeed p / 1024), (0, 16, (d.part p).snapUs.toNat)]
    | _, _, _, _, _ => 0

/-- THM block (R544). -/
def Dev.readThm (d : Dev) (o : Nat) : Word :=
  let t := d.thm
  match o with
  | 0x00 =>
    let guarded := (span 0 368).any fun i => (d.sensor i).guarded
    pack [(63, 1, b2n t.trip), (62, 1, b2n !t.acts.isEmpty), (61, 1, b2n guarded), (56, 2, t.band), (54, 2, t.bandKA), (52, 2, t.bandKB),
      (32, 9, d.suspects), (0, 12, intField 12 (d.hottest 0 272))]
  | 0x08 => pack [(24, 1, b2n d.clk.divided), (16, 8, d.gclkCur), (0, 8, t.req.toNat)]
  | 0x10 => pack [(16, 8, t.maxC.toNat), (8, 8, t.maxB.toNat), (0, 8, t.maxA.toNat)]
  | 0x18 => pack [(32, 16, t.trips.toNat), (0, 16, t.tripWait.toNat)]
  | 0x20 => pack [(32, 12, intField 12 t.plate), (16, 1, b2n t.builtin), (0, 16, t.pfaults.toNat)]
  | _ =>
    match regIdx o 0x40 0 8, regIdx o 0x1000 0 367, regIdx o 0x2000 1 64 with
    | some g, _, _ => pack [(32, 32, tget t.peak g 0), (0, 32, tget t.power g 0)]
    | _, some n, _ =>
      let s := d.sensor n
      pack [(63, 1, b2n s.suspect), (62, 1, b2n s.invalid), (61, 1, b2n s.guarded), (36, 12, intField 12 s.control),
        (16, 12, intField 12 (d.sensorEst n)), (0, 12, intField 12 s.reading)]
    | _, _, some p => (d.part p).tsnap
    | _, _, _ => 0

/-- REL_PART_p (R565): DPLOT is the lowest-numbered damaged plot. -/
def Dev.readRelPart (d : Dev) (p : Nat) : Word :=
  let q := d.part p
  pack [(63, 1, b2n q.patrol), (62, 1, b2n !q.damaged.isEmpty), (53, 9, q.damaged.foldl min (q.damaged.headD 0)), (0, 48, q.cleanCycle.toNat)]

/-- REL block (R565). -/
def Dev.readRel (d : Dev) (o : Nat) : Word :=
  let r := d.rel
  match o with
  | 0x00 => pack [(48, 16, r.votefix.toNat), (32, 10, r.fallback.length), (24, 8, r.lastMs.toNat), (8, 8, r.passVote.toNat),
      (0, 1, b2n r.digestVote)]
  | 0x50 => pack [(63, 1, b2n r.diagBusy), (32, 16, r.diagFailed.toNat), (0, 9, r.diagPlot.toNat)]
  | 0x58 => pack [(32, 32, r.pCorrected.toNat), (16, 16, r.pUe.toNat), (0, 8, r.hours.toNat)]
  | 0x68 => pack [(60, 4, r.ddrResult.toNat)]
  | 0x70 => pack [(32, 32, r.lifePowered), (0, 32, r.lifeB)]
  | 0x78 => pack [(32, 32, r.lifeC), (0, 32, r.lifeTrip)]
  | 0x80 => r.lifeSum
  | _ =>
    match regIdx o 0x8 0 7, regIdx o 0x100 1 64 with
    | some w, _ => plain ((span 0 64).foldl (fun acc i => acc + b2n (r.fallback.contains (64 * w + i)) * 2 ^ i) 0)
    | _, some p => d.readRelPart p
    | _, _ => 0

/-- MTR block (R586). -/
def Dev.readMtr (d : Dev) (o : Nat) : Word :=
  let m := d.mtr
  match o with
  | 0x00 => pack [(32, 32, m.badFrames.toNat), (16, 4, m.flags.toNat), (2, 1, b2n (d.ops.any waitsReadout)), (1, 1, b2n (d.feat 13)),
      (0, 1, b2n m.link)]
  | 0x08 => m.seconds
  | 0x10 => m.energy
  | 0x18 => m.optime
  | 0x20 => m.wrcount
  | 0x28 => pack [(32, 32, m.logwraps.toNat), (0, 32, m.logseq.toNat)]
  | 0x30 => pack [(0, 56, (m.rxTime.getD 0).toNat)]
  | _ =>
    match regIdx o 0x100 1 64, regIdx o 0x300 1 64 with
    | some p, _ => tget m.dcyc p 0
    | _, some p => tget m.plotms p 0
    | _, _ => 0

/-! ## The windows -/

/-- The 8-byte register at an aligned offset of PF0 BAR0 (R49); the blocks that a SERVICE reset resets read zero until it ends
(R79). -/
def Dev.readReg (d : Dev) (f : Fuses) (off : Nat) : Word :=
  if 0x400000 ≤ off ∧ off < 0xA00000 ∧ d.rst.svc.isSome then 0
  else if off < 0x10000 then d.readId f off
  else if off < 0x20000 then d.readBoot f (off - 0x10000)
  else if off < 0x30000 then d.readRst (off - 0x20000)
  else if off < 0x40000 then d.readKeep (off - 0x30000)
  else if off < 0x100000 then d.readEvt (off - 0x40000)
  else match off / 0x100000 with
    | 1 => d.readSeq (off % 0x100000)
    | 2 => d.readFab (off % 0x100000)
    | 3 => d.readPlc (off % 0x100000)
    | 4 => d.readMem (off % 0x100000)
    | 5 => d.readMarl (off % 0x100000)
    | 6 => d.readIme (off % 0x100000)
    | 7 => d.readNoc (off % 0x100000)
    | 8 => d.readRing (off % 0x100000)
    | 9 => d.readObs (off % 0x100000)
    | 10 => d.readThm (off % 0x100000)
    | 11 => d.readRel (off % 0x100000)
    | 12 => d.readMtr (off % 0x100000)
    | _ => 0

/-- PVF_DMA_STATUS (R321). -/
def Dev.readDma (d : Dev) (p : Nat) : Word :=
  let l := d.ops.filter fun o => decide (o.dop = 0x0E) && decide (o.part = p)
  pack [(48, 16, (tget d.pcie.dmaCode p 0).toNat), (40, 6, l.length), (39, 1, b2n (d.pcie.dmaHalt.contains p)),
    (38, 1, b2n (l.any fun o => decide (o.phase = .run))), (0, 38, tget d.pcie.dmaBytes p 0)]

/-- The 8-byte register at an aligned offset of VF p's window (R50, R51, R88, R256, R321); one whose partition does not exist, or whose
function is being disabled, reads zero past its queue and MSI-X structures (R50, R452). -/
def Dev.readVf (d : Dev) (p off : Nat) : Word :=
  let q := d.part p
  let e := tget d.evt.vf p {}
  let here := decide (q.state ≠ .none)
  if off < 0x2000 then
    match regIdx off 0x800 0 15, regIdx off 0x1000 0 511 with
    | some i, _ => (d.msix p (i / 2)).half (decide (i % 2 = 1))
    | _, some i => (tget e.slots (i / 2) {}).half (decide (i % 2 = 1))
    | _, _ =>
      if off = 0xC00 then d.pba p 8
      else if off = 0 ∧ here then plain e.prod
      else if off = 8 ∧ here then plain e.cons
      else 0
  else if !here then 0
  else match off with
    | 0x2000 => d.readPart p
    | 0x2008 => q.cycle
    | 0x2030 => pack [(48, 16, q.loadCode.toNat), (32, 1, b2n q.load.isSome), (0, 32, q.loadFrames.toNat)]
    | 0x2038 => pack [(56, 8, q.icpStatus.toNat), (48, 8, q.icpTag.toNat), (0, 32, q.icpFrames.toNat)]
    | 0x3000 => d.readDma p
    | _ => match regIdx off 0x2010 0 3 with
      | some n => plain (bits q.root.toNat (64 * n) 64)
      | none => 0

/-- Bytes of registers at any alignment (R13). -/
def regBytes (reg : Nat → Word) (off n : Nat) : List Byte :=
  (((span (off / 8) ((off + n + 7) / 8 - off / 8)).flatMap fun q => leBytes 8 (reg (8 * q)).toNat).drop (off % 8)).take n

end Sys2Proof.Machine
end

