-- ==== Sys2Proof/Machine/Registers.lean ====
section
/-! DEFINITION. Writes of registers (R13 to R17 and the register tables), and the accesses that reach them: TLPs from the host (R47 to R52,
R261, R428), LDS and STS (R266, R267), and the debug port (R521). -/
namespace Sys2Proof.Machine
open Host

/-! ## Writes, block by block; a field that is not named here is read-only or a command -/

/-- ID block: the accepted set until it is locked, and FEATURES_OK (R67, R91). -/
def Dev.writeId (d : Dev) (f : Fuses) (o : Nat) (v : Word) : Dev :=
  match o with
  | 0x20 => if d.boot.locked then d else { d with boot := { d.boot with drv0 := v } }
  | 0x28 => if d.boot.locked then d else { d with boot := { d.boot with drv1 := v } }
  | 0x30 => if v.getLsbD 0 then d.submitFeatures f else d
  | _ => d

/-- Eight bytes of the attestation nonce, in RUNNING (R65, R91). -/
def Dev.writeNonce (d : Dev) (i : Nat) (v : Word) : Dev :=
  if d.boot.phase = .running then
    let n := d.boot.nonce.toNat
    { d with boot := { d.boot with nonce := BitVec.ofNat 256 (n - bits n (64 * i) 64 * 2 ^ (64 * i) + v.toNat * 2 ^ (64 * i)) } }
  else d

/-- BOOT block (R91). -/
def Dev.writeBoot (d : Dev) (f : Fuses) (m : Master) (o : Nat) (v : Word) : Dev :=
  match o with
  | 0x08 =>
    let e := { d with boot := { d.boot with length := BitVec.ofNat 24 (bits v.toNat 32 24) } }
    if v.getLsbD 0 then e.bootGo else e
  | 0x10 => { d with boot := { d.boot with timeout := v.setWidth 12 } }
  | 0x18 => d.commitSvn f m (bits v.toNat 16 7)
  | 0x20 => if v.getLsbD 0 then d.reqAttest else d
  | _ => match regIdx o 0x28 0 3 with
    | some i => d.writeNonce i v
    | none => d

/-- RST_CTRL: the reset class that is asked for (R76 to R78, R91). -/
def Dev.writeRstCtrl (d : Dev) (v : Word) : Dev :=
  let p := bits v.toNat 8 7
  match bits v.toNat 0 3 with
  | 1 => d.coldReset
  | 2 => d.unlessSealed 2 0 fun d => if d.boot.phase = .selftest then d else d.warmReset
  | 3 => d.unlessSealed 3 0 fun d => if d.rst.svc.isSome ∨ d.boot.phase = .selftest then d else d.startService
  | 4 => d.unlessSealed 4 p fun d => d.requestPartReset p false
  | _ => d

/-- KEEP block (R71, R91). -/
def Dev.writeKeep (d : Dev) (o : Nat) (v : Word) : Dev :=
  match regIdx o 0 0 511 with
  | some i => d.keepStore i (v.setWidth 32)
  | none => if o = 0x1000 ∧ v.getLsbD 1 then { d with keep := { d.keep with readErr := false } } else d

/-- Half of an MSI-X table entry is written; unmasking a vector that is pending delivers it (R89; PCIe base specification, log 4). -/
def Dev.writeMsix (d : Dev) (fn i : Nat) (v : Word) : Dev :=
  let key := 64 * fn + i / 2
  let old := tget d.evt.msix key {}
  let new : Msix := if i % 2 = 0 then { old with addr := v } else { old with data := v.setWidth 32, masked := v.getLsbD 32 }
  let e := { d with evt := { d.evt with msix := tset d.evt.msix key new } }
  if !new.masked ∧ e.evt.pba.contains key then
    { e with evt := { e.evt with pba := e.evt.pba.filter fun k => decide (k ≠ key) } }.raise fn (i / 2)
  else e

/-- EVT block (R86 to R89); during a seal halt only EVT_CONS, EVT_LOST and EVT_CTRL (R420). -/
def Dev.writeEvt (d : Dev) (o : Nat) (v : Word) : Dev :=
  match o with
  | 0x08 => d.writeCons v
  | 0x10 => d.writeLost v
  | 0x18 => d.writeEvtMask v
  | _ => match regIdx o 0x8000 0 127 with
    | some i => if d.ime.sealed then d else d.writeMsix 0 i v
    | none => d

/-- SEQ_THR_n: a PC that is no multiple of 4 makes the whole write ignored (R293). -/
def Dev.writeThr (d : Dev) (n : Nat) (v : Word) : Dev :=
  let pc := bits v.toNat 0 22
  if pc % 4 ≠ 0 then d
  else match bits v.toNat 61 3 with
    | 1 => d.startThread n pc
    | 2 => d.resumeThread n
    | 3 => d.stopThread n
    | _ => d

/-- SEQ block (R293). -/
def Dev.writeSeq (d : Dev) (o : Nat) (v : Word) : Dev :=
  match o with
  | 0x00 => if v.getLsbD 2 then { d with seq := { d.seq with double := false } } else d
  | 0x18 => { d with seq := { d.seq with hotWait := v.setWidth 16 } }
  | _ => match regIdx o 0x100 0 64, regIdx o 0x400 0 64 with
    | some n, _ => d.writeWin n v
    | _, some n => d.writeThr n v
    | _, _ => d

/-- FAB_SYSFAULT: CLEAR and FW_ASSERT change the causes in one write (R252, R255). -/
def Dev.writeSysfault (d : Dev) (v : Word) : Dev :=
  let clear := v.getLsbD 3
  let d1 := d.faultCauses 4 fun e => { e with start := { e.start with
    sfFw := v.getLsbD 2, sfCensus := e.start.sfCensus && !clear, sfScrub := e.start.sfScrub && !clear } }
  { d1 with start := { d1.start with
    sfSeen := d1.start.sfSeen && !v.getLsbD 5, sfScrubEn := v.getLsbD 1, sfCensusEn := v.getLsbD 0 } }

/-- FAB block (R140, R255, R600). -/
def Dev.writeFab (d : Dev) (o : Nat) (v : Word) : Dev :=
  match o with
  | 0x08 => { d with fab := { d.fab with gateFree := v.getLsbD 0, gateFrozen := v.getLsbD 1 } }
  | 0x10 => if v.getLsbD 63 then { d with fab := { d.fab with vlValid := false } } else d
  | 0x18 => if v.getLsbD 3 then { d with start := { d.start with failed := false } } else d
  | 0x20 => d.writeSysfault v
  | _ => match regIdx o 0x4000 0 17 with
    | some b => d.writeIobank b v
    | none => d

/-- PLC block (R220). -/
def Dev.writePlc (d : Dev) (o : Nat) (v : Word) : Dev :=
  match o with
  | 0x00 => { d with plc := { d.plc with wTherm := (v >>> 8).setWidth 8, improve := v.setWidth 8 } }
  | 0x10 => { d with plc := { d.plc with
      migrEn := v.getLsbD 63, period := (v >>> 32).setWidth 16, maxPages := (v >>> 16).setWidth 8, hot := v.setWidth 16 } }
  | _ => d

/-- MEM block (R385): BUSERR may be set only when UE_BUSERR is accepted (R381); a journal's size while no placement is held. -/
def Dev.writeMem (d : Dev) (o : Nat) (v : Word) : Dev :=
  match o with
  | 0x00 => { d with mem := { d.mem with uePolicy := if d.feat 16 then v.setWidth 18 &&& policyMask else 0 } }
  | 0x08 => { d with mem := { d.mem with leakMs := (v >>> 32).setWidth 16, capacity := v.setWidth 16 } }
  | 0x10 => if v.getLsbD 63 then { d with mem := { d.mem with ueValid := false } } else d
  | 0x18 => { d with mem := { d.mem with kDdr := (v >>> 8).setWidth 4, kMarl := v.setWidth 4 } }
  | 0x20 => { d with mem := { d.mem with retrainMs := v.setWidth 16 } }
  | _ => match regIdx o 0x400 1 64 with
    | some p =>
      if (d.part p).placement.isSome then d
      else d.updPart p fun q => { q with jSize := (v >>> 48).setWidth 16 }
    | none => d

/-- A partition's KeyID set plus KeyID 0, as a mask (R416). -/
def Dev.setMask (d : Dev) (p : Nat) : Word :=
  BitVec.ofNat 64 ((span 0 64).foldl (fun acc k => acc + b2n (decide (k = 0) || (d.part p).keys.contains k) * 2 ^ k) 0)

/-- Bits that the lifecycle state allows in entry 1 of the rights table (R416, R522). -/
def Fuses.debugKeys (f : Fuses) : Word := if f.lifecycle = 0 then ~~~0 else if f.lifecycle = 1 then 1 else 0

/-- An entry of the rights table is written, RD or WR (R415, R416): bits of KeyIDs that are not ACTIVE stay as they are. -/
def Dev.writeRights (d : Dev) (f : Fuses) (n : Nat) (wr : Bool) (v : Word) : Dev :=
  let t := if wr then d.ime.rightsWr else d.ime.rightsRd
  let old := tget t n (if n = 2 then 1 else 0)
  let new := if n = 1 then v &&& f.debugKeys else if n = 2 then v else v &&& (old ||| d.setMask (n - 2))
  let active := BitVec.ofNat 64 d.activeMask
  let t' := tset t n ((new &&& active) ||| (old &&& ~~~active))
  if n = 0 ∨ 66 < n then d
  else if wr then { d with ime := { d.ime with rightsWr := t' } }
  else { d with ime := { d.ime with rightsRd := t' } }

/-- IME block without IME_SEAL (R435). -/
def Dev.writeIme (d : Dev) (f : Fuses) (o : Nat) (v : Word) : Dev :=
  match o with
  | 0x10 => { d with ime := { d.ime with rekeyS := (v >>> 32).setWidth 16, retireUs := v.setWidth 16 } }
  | 0x18 => { d with ime := { d.ime with bindSel := (v >>> 32).setWidth 15 } }
  | _ => match regIdx o 0x420 0 3, regIdx o 0x1000 0 133 with
    | some n, _ => d.updNk n fun k => { k with peer := v }
    | _, some k => d.writeRights f (k / 2) (decide (k % 2 = 1)) v
    | _, _ => d

/-- NOC_ARB_PRI_i_r (R461, R462, R466). -/
def Dev.writePri (d : Dev) (i r : Nat) (v : Word) : Dev :=
  let e := if v.getLsbD 17 then d.reenableArb i r else d
  e.writePriority i r (v.getLsbD 8) (v.setWidth 3)

/-- NOC block (R466). -/
def Dev.writeNoc (d : Dev) (o : Nat) (v : Word) : Dev :=
  let c := d.noc
  match o with
  | 0x08 => { d with noc := { c with
      quantum := (v >>> 32).setWidth 10, baseMgmt := (v >>> 12).setWidth 3, baseRsp := (v >>> 8).setWidth 3,
      basePost := (v >>> 4).setWidth 3, baseReq := v.setWidth 3 } }
  | 0x10 => { d with noc := { c with drainUs := v.setWidth 16 } }
  | 0x18 => { d with noc := { c with frozen := v.getLsbD 1, stats := if v.getLsbD 0 then [] else c.stats } }
  | _ => match regIdx o 0x100 0 39, regIdx o 0x400 0 50, regIdx o 0x10000 0 13055 with
    | some s, _, _ => match bits v.toNat 0 3 with
      | 1 => d.disableStop s
      | 2 => d.offStop s
      | 3 => d.onStop s
      | _ => d
    | _, some i, _ =>
      if arbReqs i = 0 then d
      else { d with noc := { c with cfg := tupd c.cfg i {} fun x =>
        { x with wd := (v >>> 32).setWidth 24, window := (v >>> 16).setWidth 16, quota := v.setWidth 16 } } }
    | _, _, some k => d.writePri (k / 256) (k % 256) v
    | _, _, _ => d

/-- RING block (R501). -/
def Dev.writeRing (d : Dev) (o : Nat) (v : Word) : Dev :=
  match regIdx o 0x48 0 1, regIdx o 0x2000 1 64, regIdx o 0x10000 0 4095 with
  | some r, _, _ => match bits v.toNat 0 3 with
    | 1 => d.disableRing r
    | 2 => d.offRing r
    | 3 => d.onRingCtl r
    | _ => d
  | _, some p, _ => d.writeGroup p v
  | _, _, some b => d.writeCut b v
  | _, _, _ =>
    if o = 0x60 then { d with ring := { d.ring with auto := v.getLsbD 16, periodMs := v.setWidth 16 } } else d

/-- OBS block (R524): OBS_TRACE_CFG until the feature set is locked. -/
def Dev.writeObs (d : Dev) (o : Nat) (v : Word) : Dev :=
  match o with
  | 0x00 => if d.boot.locked then d else { d with obs := { d.obs with gib := v.setWidth 7 } }
  | 0x08 => { d with obs := { d.obs with en := v.getLsbD 0 } }
  | _ => match regIdx o 0x100 1 64, regIdx o 0x300 1 64 with
    | some p, _ => d.writeTalloc p v
    | _, some p => d.writeTown p v
    | _, _ => d

/-- THM block (R544). -/
def Dev.writeThm (d : Dev) (o : Nat) (v : Word) : Dev :=
  match o with
  | 0x08 => d.writeReq v
  | 0x10 => d.writeMax v
  | 0x18 => { d with thm := { d.thm with tripWait := v.setWidth 16 } }
  | _ => match regIdx o 0x2000 1 64 with
    | some p => d.updPart p fun q => { q with tsnap := v &&& 0x87000FFFFFF00000 }
    | none => d

/-- REL block (R550, R552, R560, R562, R565). -/
def Dev.writeRel (d : Dev) (o : Nat) (v : Word) : Dev :=
  let pass : BitVec 8 := (v >>> 8).setWidth 8
  let dig := v.getLsbD 0
  let c := bits v.toNat 4 3
  match o with
  | 0x00 => { d with rel := { d.rel with passMs := [pass, pass, pass], digest := [dig, dig, dig] } }
  | 0x48 => if v.getLsbD 9 then d.startRetry (bits v.toNat 0 9) else d
  | 0x50 => d.writeDiag (bits v.toNat 0 9) (v.getLsbD 16)
  | 0x58 => { d with rel := { d.rel with hours := v.setWidth 8 } }
  | 0x68 => match bits v.toNat 0 3 with
    | 1 => d.vacate c (v.getLsbD 3)
    | 2 => d.restoreChan c
    | _ => d
  | _ => match regIdx o 0x100 1 64 with
    | some p => d.updPart p fun q => { q with patrol := v.getLsbD 63 }
    | none => d

/-! ## A write of one register -/

/-- A write to a block that host software, T0 and the debug port may write; those that a SERVICE reset resets discard it until the
reset ends (R79). -/
def Dev.writeBlock3 (d : Dev) (f : Fuses) (m : Master) (off : Nat) (v : Word) : Dev :=
  let o := off % 0x100000
  if off < 0x10000 then d.writeId f off v
  else if off < 0x20000 then d.writeBoot f m (off - 0x10000) v
  else if 0x400000 ≤ off ∧ off < 0xA00000 ∧ d.rst.svc.isSome then d
  else match off / 0x100000 with
    | 1 => d.writeSeq o v
    | 2 => d.writeFab o v
    | 3 => d.writePlc o v
    | 4 => d.writeMem o v
    | 6 => d.writeIme f o v
    | 7 => d.writeNoc o v
    | 8 => d.writeRing o v
    | 9 => d.writeObs o v
    | 10 => d.writeThm o v
    | 11 => d.writeRel o v
    | _ => d

/-- A write of the register at an aligned offset of PF0 BAR0 by a master that its block lets write (R92, R140, R420, R522, R586). -/
def Dev.writeReg (d : Dev) (f : Fuses) (m : Master) (off : Nat) (v : Word) : Dev :=
  if off = 0x20000 then d.byRst m ((v >>> 56).setWidth 8) fun d => d.writeRstCtrl v
  else if off = 0x20010 then d.byHostOrT0Only m off fun d => { d with rst := { d.rst with svcWait := v.setWidth 16 } }
  else if off = 0x600008 then
    d.byHostOrT0Only m off fun d =>
      if bits v.toNat 56 8 = 0x5A ∧ v.getLsbD 0 ∧ d.rst.svc.isNone then d.forceSeal m else d
  else if 0x30000 ≤ off ∧ off < 0x40000 then d.byHostOrT0Only m off fun d => d.writeKeep (off - 0x30000) v
  else if 0x40000 ≤ off ∧ off < 0x100000 then d.byLive m off fun d => d.writeEvt (off - 0x40000) v
  else d.byHostOrT0 m off fun d => d.writeBlock3 f m off v

/-- A write of 8 aligned bytes in VF p's window: the consumer index and the MSI-X table; the rest is read-only (R50, R88, R256). -/
def Dev.writeVf (d : Dev) (p off : Nat) (v : Word) : Dev :=
  if d.noc.draining.contains (DrainFn.vf p) then d
  else if off = 8 then d.writeVfCons p v
  else match regIdx off 0x800 0 15 with
    | some i => if d.ime.sealed then d else d.writeMsix p i v
    | none => d

/-- REGISTER_WRITE: accesses other than 8 aligned bytes are discarded (R13); a VF's window is its own (R51, R256). -/
def execRegisterWrite (m : Master) (off size : Nat) (v : BitVec 64) (s : State) : Outcome State Fault Refusal :=
  s.run fun x =>
    if size ≠ 8 ∨ off % 8 ≠ 0 then x
    else match m with
      | .vf p => if x.vfUp p then x.writeVf p off v else x
      | _ => x.writeReg s.fuse m off v

/-! ## Reads of PF0 BAR0 -/

/-- An outcome of a register's read says that stored bits have changed: of a keep register, that its value is uncorrectable (R75; its check
bits are not described). -/
def changesBits (rd : ReadOutcome) : Bool :=
  match rd with
  | .upset _ c => decide (c ≠ 0)
  | _ => false

/-- An outcome of a register's read says that the data did not arrive as they were sent: an error completion or a carry code that disagrees
(R267, R425, R453). -/
def lostOnWay (rd : ReadOutcome) : Option Bad :=
  match rd with
  | .moved c => if carryWrong c then some .moved else none
  | .abort => some .abort
  | _ => none

/-- The bytes at an offset of PF0 BAR0: the sequencer memory window or registers (R13, R49, R261), given to `ok`; `bad` takes where and why they
cannot be delivered. A keep register whose stored value is uncorrectable reads zero in VALUE, with its event (R75). -/
def Dev.readBar0 (d : Dev) (f : Fuses) (off n : Nat) (rd : ReadOutcome) (bad : Dev → Nat → Bad → Dev) (ok : Dev → List Byte → Dev) : Dev :=
  if 0x1000000 ≤ off ∧ off + n ≤ 0x1400000 then
    let a := seqAddr (off - 0x1000000)
    match d.lookPlain a n rd with
    | (e, some (y, b)) => bad e y b
    | (e, none) => ok (e.draw n) (e.memRead 0 a n)
  else match lostOnWay rd with
    | some b => bad d (regWindow + off) b
    | none =>
      if 0x30000 ≤ off ∧ off < 0x31000 ∧ changesBits rd then
        let i := (off - 0x30000) / 8
        let blank := { d with keep := { d.keep with regs := tupd d.keep.regs i {} fun k => { k with value := 0 } } }
        ok (d.keepRead i true).1 (regBytes (blank.readReg f) off n)
      else ok d (regBytes (d.readReg f) off n)

/-! ## LDS and STS -/

/-- A thread's access is over: it runs on at the next instruction, or is suspended when a live swap waits for it (R267, R291 step 2). -/
def Dev.accessDone (d : Dev) (n : Nat) : Dev :=
  let swap := decide (2 ≤ d.seq.swap.toNat)
  d.updThr n fun t =>
    { t with state := if swap then .suspended else .run, suspFrom := if swap then .run else t.suspFrom, wait := none, pc := t.pc + 4 }

/-- T0 takes a queued trap after its access (R286). -/
def Dev.afterAccess (d : Dev) (n : Nat) : Dev := if n = 0 then d.deliver else d

/-- A carry code disagrees at the sequencer's exit: the count and event 0x0423 (R425). -/
def Dev.seqExitBad (d : Dev) (n : Nat) : Dev := { d with ime := { d.ime with ccSeq := sat1 d.ime.ccSeq } }.postSrc 0x0423 n 0 1

/-- LDS cannot take its word: trap 0x0908 (R267, R380, R425). -/
def Dev.ldsBad (d : Dev) (n : Nat) (x : Word) (at_ : Nat) (b : Bad) : Dev :=
  ((match b with
    | .moved => d.seqExitBad n
    | .carry => if regWindow ≤ addrOf x then d.seqExitBad n else d.noteBad .carry at_
    | _ => d.noteBad b at_).answerAccess n x false []).trap n 0x0908 x

/-- LDS takes its word. -/
def Dev.ldsTake (d : Dev) (n r : Nat) (x : Word) (l : List Byte) : Dev :=
  (((d.answerAccess n x false l).updThr n fun t => t.setReg (BitVec.ofNat 5 r) (leWord l)).accessDone n).afterAccess n

/-- LDS completes (R267): its register takes the word, or trap 0x0908. -/
def Dev.ldsDone (d : Dev) (f : Fuses) (n : Nat) (x : Word) (r : Nat) (rd : ReadOutcome) : Dev :=
  let k := kidOf x
  let a := addrOf x
  if regWindow ≤ a then d.readBar0 f (a - regWindow) 8 rd (fun e y b => e.ldsBad n x y b) (fun e l => e.ldsTake n r x l)
  else match d.refuse 0 k a 8 false with
    | some w => ((d.postRefuse w 0 k a false 1).answerAccess n x false []).trap n 0x0908 x
    | none => match d.look k a 8 rd false with
      | .halt e => e
      | .bad e y b => e.ldsBad n x y b
      | .good e => (e.draw 8).ldsTake n r x (e.memRead k a 8)

/-- STS to marl or DDR5 completes: a line that it covers only in part is read first (R267, R376, R407, R424, R425). -/
def Dev.stsMem (d : Dev) (n : Nat) (x v : Word) (rd : ReadOutcome) : Dev :=
  let k := kidOf x
  let a := addrOf x
  match d.refuse 0 k a 8 true with
  | some w => (d.postRefuse w 0 k a true 1).trap n 0x0908 x
  | none =>
    let e := d.memStoreChecked k a (leBytes 8 v.toNat) rd
    if e.1.ime.sealed then e.1
    else match e.2 with
      | none => (e.1.accessDone n).afterAccess n
      | some (y, .moved) => (e.1.postSrc 0x0424 (addrDetail y) 0 (e.1.stopOf y)).trap n 0x0908 x
      | some _ => e.1.trap n 0x0908 x

/-- STS completes (R267). A register's write takes effect when T0 has moved on, so that it may act on T0 itself. -/
def Dev.stsDone (d : Dev) (f : Fuses) (n : Nat) (x v : Word) (rd : ReadOutcome) : Dev :=
  let off := addrOf x - regWindow
  if addrOf x < regWindow then d.stsMem n x v rd
  else if 0x1000000 ≤ off ∧ off < 0x1400000 then
    match d.seqWindowStore (off - 0x1000000) (leBytes 8 v.toNat) rd with
    | (e, none) => (e.accessDone n).afterAccess n
    | (e, some _) => e.trap n 0x0908 x
  else match lostOnWay rd with
    | some _ => d.trap n 0x0908 x
    | none => ((d.accessDone n).writeReg f (.thread n) off v).afterAccess n

/-- SYSTEM_ACCESS_COMPLETE (R267): a quarantined thread's access has an error completion (R453, R462). -/
def execSystemAccessComplete (n : Nat) (rd : ReadOutcome) (s : State) : Outcome State Fault Refusal :=
  s.work fun x =>
    match (x.thr n).state, (x.thr n).wait with
    | .wait, some (.lds a r) =>
      if (x.arb 1 n).quar then (x.refuseQuar 1 n).trap n 0x0908 a else x.ldsDone s.fuse n a r rd
    | .wait, some (.sts a v) =>
      if (x.arb 1 n).quar then (x.refuseQuar 1 n).trap n 0x0908 a else (x.answerAccess n a true []).stsDone s.fuse n a v rd
    | _, _ => x

/-! ## The debug port -/

/-- The access of the debug port ends: DBGACC's STATUS and, for a read that is done, DATA (R521). -/
def Dev.dbgEnd (d : Dev) (st : Nat) (data : Word) : Dev :=
  let v := dbgStatus d.tap.dbg st
  { d with tap := { d.tap with
    busy := false, dbg := if st = 0 ∧ dbgOp v = 1 then BitVec.ofNat 128 (v.toNat % 2 ^ 64 + data.toNat * 2 ^ 64) else v } }

/-- An access of the debug port has failed: its log, event 0x0315 for what memory could not give, and STATUS 3 (R380, R521). -/
def Dev.dbgBad (d : Dev) (at_ : Nat) (b : Bad) : Dev :=
  (match b with
    | .abort | .moved => d
    | _ => (d.noteBad b at_).postSrc 0x0315 (addrDetail at_) 0 (classSource (d.classOf at_))).dbgEnd 3 0

/-- A read of the debug port (R380, R521). -/
def Dev.dbgRead (d : Dev) (f : Fuses) (x : Word) (rd : ReadOutcome) : Dev :=
  let k := kidOf x
  let a := addrOf x
  if regWindow ≤ a then d.readBar0 f (a - regWindow) 8 rd Dev.dbgBad fun e l => e.dbgEnd 0 (leWord l)
  else match d.refuse 1 k a 8 false with
    | some r => (d.postRefuse r 1 k a false 2).dbgEnd 3 0
    | none => match d.look k a 8 rd false with
      | .halt e => e.dbgEnd 3 0
      | .bad e y b => e.dbgBad y b
      | .good e => (e.draw 8).dbgEnd 0 (leWord (e.memRead k a 8))

/-- A write of the debug port (R376, R424, R521). -/
def Dev.dbgWrite (d : Dev) (f : Fuses) (x v : Word) (rd : ReadOutcome) : Dev :=
  let k := kidOf x
  let a := addrOf x
  let off := a - regWindow
  let l := leBytes 8 v.toNat
  let fin (r : Dev × Option (Nat × Bad)) : Dev := match r.2 with
    | none => r.1.dbgEnd (if r.1.ime.sealed && !d.ime.sealed then 3 else 0) 0
    | some (y, .moved) => (r.1.postSrc 0x0424 (addrDetail y) 0 (r.1.stopOf y)).dbgEnd 3 0
    | some (_, .abort) => r.1.dbgEnd 3 0
    | some (y, _) => (r.1.postSrc 0x0315 (addrDetail y) 0 (classSource (r.1.classOf y))).dbgEnd 3 0
  if regWindow ≤ a then
    if 0x1000000 ≤ off ∧ off < 0x1400000 then fin (d.seqWindowStore (off - 0x1000000) l rd)
    else match lostOnWay rd with
      | some _ => d.dbgEnd 3 0
      | none => (d.writeReg f .debug off v).dbgEnd 0 0
  else if 0x031000000000 ≤ a then fin (d.seqWindowStore (a - seqAddr 0) l rd)
  else match d.refuse 1 k a 8 true with
    | some r => (d.postRefuse r 1 k a true 2).dbgEnd 3 0
    | none => fin (d.memStoreChecked k a l rd)

/-- DEBUG_ACCESS_DONE (R521): the access is aligned to its 8 bytes. A seal halt that the access causes leaves it without its data (R418). -/
def execDebugAccessDone (rd : ReadOutcome) (s : State) : Outcome State Fault Refusal :=
  s.work fun d =>
    if !d.tap.busy then d
    else
      let w := d.tap.dbg
      let x := dbgAddr w &&& ~~~7
      if dbgOp w = 1 then d.dbgRead s.fuse x rd else d.dbgWrite s.fuse x (BitVec.ofNat 64 (bits w.toNat 64 64)) rd

/-! ## TLPs from the host -/

/-- A completion to the host. -/
def Dev.reply (d : Dev) (c : Cpl) : Dev := { d with pcie := { d.pcie with cpl := some c } }

/-- Function a TLP addresses. -/
def tlpFn (t : HostTlp) : Nat :=
  match t with
  | .read fn .. => fn
  | .write fn .. => fn
  | .cfgRead fn => fn
  | .aerRead fn => fn
  | .aerClear fn _ => fn
  | .barRead .. => 0
  | .barWrite .. => 0
  | .busMaster fn _ => fn
  | .vfMse _ => 0

/-- The function answers configuration requests: PF0 always, a VF while VF Enable is set (R52). -/
def Dev.fnUp (d : Dev) (fn : Nat) : Bool := decide (fn = 0) || (decide (fn ≤ 64) && d.pcie.vfEnable)

/-- The boot window and attestation area, with the identity certificates in RUNNING (R58, R65). -/
def Dev.bar2Bytes (d : Dev) (off n : Nat) : List Byte :=
  (span off n).map fun i =>
    if d.boot.phase = .running ∧ 0x10000 ≤ i ∧ i - 0x10000 < Config.deviceCert.length then Config.deviceCert.getD (i - 0x10000) 0
    else zget d.boot.bar2 i

/-- A carry code disagrees at the PCIe exit: the completion is not sent. The detail of 0x0420 names a DMA channel, which a host read has not:
a free value (R425; log 25). -/
def Dev.exitMismatch (d : Dev) : Dev :=
  ({ d with ime := { d.ime with ccPcie := sat1 d.ime.ccPcie } }.draw 1).postSrc 0x0420 (d.freeField 0) 0 0

/-- A read of PF0 BAR0 cannot be answered with its data (R264, R380, R425). -/
def Dev.hostReadBad (d : Dev) (at_ : Nat) (b : Bad) : Dev :=
  match b with
  | .moved | .carry => d.exitMismatch
  | .abort => d.reply .ur
  | _ => ((d.noteBad b at_).postSrc 0x0315 (addrDetail at_) 0 1).reply .ur

/-- A read of a BAR (R13, R47 to R52, R256, R261). -/
def Dev.hostRead (d : Dev) (f : Fuses) (fn bar off len : Nat) (rd : ReadOutcome) : Dev :=
  if fn = 0 ∧ bar = 0 ∧ off + len ≤ 0x4000000 then
    d.readBar0 f off len rd Dev.hostReadBad fun e l => e.reply (.data l)
  else if fn = 0 ∧ bar = 2 ∧ off + len ≤ 0x800000 then d.reply (.data (d.bar2Bytes off len))
  else if d.vfUp fn ∧ bar = 0 ∧ off + len ≤ 0x100000 then
    d.reply (.data (regBytes (if d.noc.draining.contains (DrainFn.vf fn) then fun _ => 0 else d.readVf fn) off len))
  else d.reply .ur

/-- A posted write to a BAR: registers take aligned 8-byte writes only (R13); the sequencer memory window and BAR2 any (R58, R261). A seal
halt discards writes of memory too (R420). -/
def Dev.hostWriteBar (d : Dev) (f : Fuses) (fn bar off : Nat) (l : List Byte) (rd : ReadOutcome) : Dev :=
  if fn = 0 ∧ bar = 0 then
    if 0x1000000 ≤ off ∧ off < 0x1400000 then d.hostSeqWrite (off - 0x1000000) l rd
    else if l.length = 8 ∧ off % 8 = 0 ∧ off < 0x4000000 then d.writeReg f .pf0 off (leWord l)
    else d
  else if fn = 0 ∧ bar = 2 then d.writeBar2 off l
  else if d.vfUp fn ∧ bar = 0 ∧ l.length = 8 ∧ off % 8 = 0 then d.writeVf fn off (leWord l)
  else d

/-- A request through PF0 or a VF is quarantined at the PCIe stop (R453, R462). -/
def Dev.hostTurned (d : Dev) (t : HostTlp) : Option Dev :=
  if (d.arb 0 0).quar then
    match t with
    | .read .. => some ((d.refuseQuar 0 0).reply .ur)
    | .write .. => some (d.refuseQuar 0 0)
    | _ => none
  else none

/-- Size of a base address register: PF0's BAR0 and BAR2, and BAR0 of each VF (R48). -/
def barSize (vf : Bool) (bar : Nat) : Option Nat :=
  if vf then (if bar = 0 then some 0x100000 else none)
  else if bar = 0 then some 0x4000000 else if bar = 2 then some 0x800000 else none

/-- Key of a base address register in the state. -/
def barKey (vf : Bool) (bar : Nat) : Nat := if vf then 16 + bar else bar

/-- A base address register as it reads: the address bits above its size, a 64-bit memory BAR that is not prefetchable (R48; the
encoding is the PCIe base specification's, log 4). -/
def Dev.barValue (d : Dev) (vf : Bool) (bar : Nat) : Word :=
  match barSize vf bar with
  | some n => BitVec.ofNat 64 ((tget d.pcie.bars (barKey vf bar) 0).toNat / n * n + 4)
  | none => 0

/-- A configuration request that its function answers (R52, R55 step 2). -/
def Dev.config (d : Dev) (fn : Nat) (body : Dev → Dev) : Dev :=
  if !d.fnUp fn then d.reply .ur else if d.pcie.crs then d.reply .crs else body d

/-- A configuration request to a function that takes it (R47, R48, R52, R53). -/
def Dev.takeConfig (d : Dev) (t : HostTlp) : Dev :=
  match t with
  | .aerRead fn => d.reply (.data (leBytes 4 (d.pcie.aerOf fn).toNat))
  | .aerClear fn v => { d with pcie := { d.pcie with aer := tset d.pcie.aer fn (d.pcie.aerOf fn &&& ~~~v) } }.reply .done
  | .barRead vf bar => d.reply (.data (leBytes 8 (d.barValue vf bar).toNat))
  | .barWrite vf bar v => { d with pcie := { d.pcie with bars := tset d.pcie.bars (barKey vf bar) v } }.reply .done
  | .busMaster fn v =>
    let rest := d.pcie.busMaster.filter fun n => decide (n ≠ fn)
    { d with pcie := { d.pcie with busMaster := if v then fn :: rest else rest } }.reply .done
  | .vfMse v => { d with pcie := { d.pcie with vfMse := v } }.reply .done
  | _ => d.reply .done

/-- A memory request beyond the endpoint's limits: a payload above 512 bytes or a read of more than 4,096 (R47). The PCIe base
specification makes it malformed, bit 18 of the AER status (log 4). -/
def overLimit (t : HostTlp) : Bool :=
  match t with
  | .read _ _ _ len => decide (4096 < len)
  | .write _ _ _ l => decide (512 < l.length)
  | _ => false

/-- A TLP that passed its IDE check: memory requests to the BARs, configuration requests to the functions (R47 to R52, R55). -/
def Dev.takeTlp (d : Dev) (f : Fuses) (t : HostTlp) (rd : ReadOutcome) : Dev :=
  if overLimit t then d.logAer (tlpFn t) (2 ^ 18)
  else match d.hostTurned t with
  | some e => e
  | none => match t with
    | .read fn bar off len => d.hostRead f fn bar off len rd
    | .write fn bar off l => d.hostWriteBar f fn bar off l rd
    | _ => d.config (tlpFn t) fun e => e.takeConfig t

/-- HOST_TLP_RECEIVED: a TLP of an IDE stream is checked first; one that fails, or whose stream is not secure, is discarded (R428). A seal
halt has zeroised the IDE keys, and requests outside IDE streams go on (R418, R420). -/
def execHostTlpReceived (t : HostTlp) (stream : Option Nat) (ideOk : Bool) (rd : ReadOutcome) (s : State) :
    Outcome State Fault Refusal :=
  s.run fun x =>
    if !x.pcie.linkUp then x
    else match stream with
      | some n =>
        if 4 < n then x
        else if !ideOk ∨ !x.pcie.ideSecure.contains n then x.ideFail n (tlpFn t)
        else x.takeTlp s.fuse t rd
      | none => x.takeTlp s.fuse t rd

end Sys2Proof.Machine
end

