-- ==== Sys2Proof/Machine/Dispatch.lean ====
section
/-! DEFINITION. The dispatcher: one arm per command. -/
namespace Sys2Proof.Machine
open Host

/-- The effect of a command on everything but the queue. -/
def exec (i : Instr) (s : State) : Host.Outcome State Fault Refusal :=
  match i with
  | .powerRailUndervoltage g keepNew => Sys2Proof.Machine.execPowerRailUndervoltage g keepNew s
  | .vddqUndervoltage c => Sys2Proof.Machine.execVddqUndervoltage c s
  | .vccioUndervoltage b => Sys2Proof.Machine.execVccioUndervoltage b s
  | .perstAssert => Sys2Proof.Machine.execPerstAssert s
  | .perstRelease straps => Sys2Proof.Machine.execPerstRelease straps s
  | .pcieLinkUp => Sys2Proof.Machine.execPcieLinkUp s
  | .selftestDone failed us => Sys2Proof.Machine.execSelftestDone failed us s
  | .bar2Write off bytes => Sys2Proof.Machine.execBar2Write off bytes s
  | .bootGo m length => Sys2Proof.Machine.execBootGo m length s
  | .firmwareVerifyDone => Sys2Proof.Machine.execFirmwareVerifyDone s
  | .firmwareLoaded => Sys2Proof.Machine.execFirmwareLoaded s
  | .downloadDeadlineExpiry => Sys2Proof.Machine.execDownloadDeadlineExpiry s
  | .svnCommit m v => Sys2Proof.Machine.execSvnCommit m v s
  | .svnFuseDone => Sys2Proof.Machine.execSvnFuseDone s
  | .attestReq m => Sys2Proof.Machine.execAttestReq m s
  | .attestDone => Sys2Proof.Machine.execAttestDone s
  | .featuresOk m => Sys2Proof.Machine.execFeaturesOk m s
  | .ddr5TrainingDone c modules trained => Sys2Proof.Machine.execDdr5TrainingDone c modules trained s
  | .verifiedMetaInitDone c => Sys2Proof.Machine.execVerifiedMetaInitDone c s
  | .vfEnableWrite v => Sys2Proof.Machine.execVfEnableWrite v s
  | .pcieLinkDown cause => Sys2Proof.Machine.execPcieLinkDown cause s
  | .vfFlr n => Sys2Proof.Machine.execVfFlr n s
  | .hostTlpReceived t stream ideOk rd => Sys2Proof.Machine.execHostTlpReceived t stream ideOk rd s
  | .ideKmQuery => Sys2Proof.Machine.execIdeKmQuery s
  | .ideKmKeyProg stream sub rx set key => Sys2Proof.Machine.execIdeKmKeyProg stream sub rx set key s
  | .ideKmKSetGo stream sub rx set => Sys2Proof.Machine.execIdeKmKSetGo stream sub rx set s
  | .ideKmKSetStop stream sub rx set => Sys2Proof.Machine.execIdeKmKSetStop stream sub rx set s
  | .registerWrite m off size v => Sys2Proof.Machine.execRegisterWrite m off size v s
  | .keepWrite m idx v => Sys2Proof.Machine.execKeepWrite m idx v s
  | .keepPersisted idx => Sys2Proof.Machine.execKeepPersisted idx s
  | .keepRead m idx bad => Sys2Proof.Machine.execKeepRead m idx bad s
  | .rstCold m key => Sys2Proof.Machine.execRstCold m key s
  | .rstWarm m key => Sys2Proof.Machine.execRstWarm m key s
  | .rstService m key => Sys2Proof.Machine.execRstService m key s
  | .rstPartition m key p => Sys2Proof.Machine.execRstPartition m key p s
  | .serviceBoundaryWaitExpiry => Sys2Proof.Machine.execServiceBoundaryWaitExpiry s
  | .serviceInflightTimeout aborted => Sys2Proof.Machine.execServiceInflightTimeout aborted s
  | .serviceSelfRefreshEntered => Sys2Proof.Machine.execServiceSelfRefreshEntered s
  | .serviceResetDone => Sys2Proof.Machine.execServiceResetDone s
  | .partitionResetWaitExpiry p => Sys2Proof.Machine.execPartitionResetWaitExpiry p s
  | .partitionResetDone p => Sys2Proof.Machine.execPartitionResetDone p s
  | .gclkTargetChange target => Sys2Proof.Machine.execGclkTargetChange target s
  | .sparePllLocked => Sys2Proof.Machine.execSparePllLocked s
  | .sparePllRelocked => Sys2Proof.Machine.execSparePllRelocked s
  | .gpllLossOfLock pll => Sys2Proof.Machine.execGpllLossOfLock pll s
  | .gpllRestartLock pll => Sys2Proof.Machine.execGpllRestartLock pll s
  | .gpllRetryTimer pll => Sys2Proof.Machine.execGpllRetryTimer pll s
  | .refclkLost => Sys2Proof.Machine.execRefclkLost s
  | .refclkFreezeTimeout => Sys2Proof.Machine.execRefclkFreezeTimeout s
  | .holdoverEnd => Sys2Proof.Machine.execHoldoverEnd s
  | .refclkRestored => Sys2Proof.Machine.execRefclkRestored s
  | .userclkEdge pin falling => Sys2Proof.Machine.execUserclkEdge pin falling s
  | .designCycleStart p => Sys2Proof.Machine.execDesignCycleStart p s
  | .dwellStart p upset => Sys2Proof.Machine.execDwellStart p upset s
  | .refillEnd p stored bonds => Sys2Proof.Machine.execRefillEnd p stored bonds s
  | .dwellEnd p latch slots rows norakExit => Sys2Proof.Machine.execDwellEnd p latch slots rows norakExit s
  | .vlaneContention p n lane latch => Sys2Proof.Machine.execVlaneContention p n lane latch s
  | .modelReadResponse p port rd => Sys2Proof.Machine.execModelReadResponse p port rd s
  | .modelWriteAck p rd => Sys2Proof.Machine.execModelWriteAck p rd s
  | .designCycleBoundary p pins slots ns room => Sys2Proof.Machine.execDesignCycleBoundary p pins slots ns room s
  | .configFaultScrubDone x => Sys2Proof.Machine.execConfigFaultScrubDone x s
  | .autoRewindDone p rd => Sys2Proof.Machine.execAutoRewindDone p rd s
  | .plotClearingDone n => Sys2Proof.Machine.execPlotClearingDone n s
  | .verificationPassDone stored => Sys2Proof.Machine.execVerificationPassDone stored s
  | .configRefreshTick n => Sys2Proof.Machine.execConfigRefreshTick n s
  | .illegalOpcode iss w => Sys2Proof.Machine.execIllegalOpcode iss w s
  | .add iss d a b => Sys2Proof.Machine.execAdd iss d a b s
  | .sub iss d a b => Sys2Proof.Machine.execSub iss d a b s
  | .and iss d a b => Sys2Proof.Machine.execAnd iss d a b s
  | .or iss d a b => Sys2Proof.Machine.execOr iss d a b s
  | .xor iss d a b => Sys2Proof.Machine.execXor iss d a b s
  | .sll iss d a b => Sys2Proof.Machine.execSll iss d a b s
  | .srl iss d a b => Sys2Proof.Machine.execSrl iss d a b s
  | .sra iss d a b => Sys2Proof.Machine.execSra iss d a b s
  | .mul iss d a b => Sys2Proof.Machine.execMul iss d a b s
  | .mulhu iss d a b => Sys2Proof.Machine.execMulhu iss d a b s
  | .divu iss d a b => Sys2Proof.Machine.execDivu iss d a b s
  | .remu iss d a b => Sys2Proof.Machine.execRemu iss d a b s
  | .slt iss d a b => Sys2Proof.Machine.execSlt iss d a b s
  | .sltu iss d a b => Sys2Proof.Machine.execSltu iss d a b s
  | .popc iss d a => Sys2Proof.Machine.execPopc iss d a s
  | .clz iss d a => Sys2Proof.Machine.execClz iss d a s
  | .ctz iss d a => Sys2Proof.Machine.execCtz iss d a s
  | .addi iss d a imm => Sys2Proof.Machine.execAddi iss d a imm s
  | .andi iss d a imm => Sys2Proof.Machine.execAndi iss d a imm s
  | .ori iss d a imm => Sys2Proof.Machine.execOri iss d a imm s
  | .xori iss d a imm => Sys2Proof.Machine.execXori iss d a imm s
  | .slli iss d a sh => Sys2Proof.Machine.execSlli iss d a sh s
  | .srli iss d a sh => Sys2Proof.Machine.execSrli iss d a sh s
  | .srai iss d a sh => Sys2Proof.Machine.execSrai iss d a sh s
  | .slti iss d a imm => Sys2Proof.Machine.execSlti iss d a imm s
  | .sltiu iss d a imm => Sys2Proof.Machine.execSltiu iss d a imm s
  | .lui iss d imm => Sys2Proof.Machine.execLui iss d imm s
  | .shin iss d imm => Sys2Proof.Machine.execShin iss d imm s
  | .ld iss d a off rd => Sys2Proof.Machine.execLd iss d a off rd s
  | .lw iss d a off rd => Sys2Proof.Machine.execLw iss d a off rd s
  | .lb iss d a off rd => Sys2Proof.Machine.execLb iss d a off rd s
  | .st iss d a off => Sys2Proof.Machine.execSt iss d a off s
  | .sw iss d a off rd => Sys2Proof.Machine.execSw iss d a off rd s
  | .sb iss d a off rd => Sys2Proof.Machine.execSb iss d a off rd s
  | .swap iss d a b rd => Sys2Proof.Machine.execSwap iss d a b rd s
  | .aadd iss d a b rd => Sys2Proof.Machine.execAadd iss d a b rd s
  | .aand iss d a b rd => Sys2Proof.Machine.execAand iss d a b rd s
  | .aor iss d a b rd => Sys2Proof.Machine.execAor iss d a b rd s
  | .cas iss d a b rd => Sys2Proof.Machine.execCas iss d a b rd s
  | .lds iss d a off => Sys2Proof.Machine.execLds iss d a off s
  | .sts iss d a off => Sys2Proof.Machine.execSts iss d a off s
  | .systemAccessComplete n rd => Sys2Proof.Machine.execSystemAccessComplete n rd s
  | .beq iss a b off => Sys2Proof.Machine.execBeq iss a b off s
  | .bne iss a b off => Sys2Proof.Machine.execBne iss a b off s
  | .blt iss a b off => Sys2Proof.Machine.execBlt iss a b off s
  | .bge iss a b off => Sys2Proof.Machine.execBge iss a b off s
  | .bltu iss a b off => Sys2Proof.Machine.execBltu iss a b off s
  | .bgeu iss a b off => Sys2Proof.Machine.execBgeu iss a b off s
  | .j iss off => Sys2Proof.Machine.execJ iss off s
  | .call iss off => Sys2Proof.Machine.execCall iss off s
  | .jalr iss d a imm => Sys2Proof.Machine.execJalr iss d a imm s
  | .yield iss => Sys2Proof.Machine.execYield iss s
  | .halt iss => Sys2Proof.Machine.execHalt iss s
  | .trapret iss => Sys2Proof.Machine.execTrapret iss s
  | .mfs iss d spr => Sys2Proof.Machine.execMfs iss d spr s
  | .mts iss a spr => Sys2Proof.Machine.execMts iss a spr s
  | .waitt iss d a imm => Sys2Proof.Machine.execWaitt iss d a imm s
  | .waittTimeout n => Sys2Proof.Machine.execWaittTimeout n s
  | .fence iss d imm => Sys2Proof.Machine.execFence iss d imm s
  | .fenceTimeout n => Sys2Proof.Machine.execFenceTimeout n s
  | .threadStart m n pc => Sys2Proof.Machine.execThreadStart m n pc s
  | .threadResume m n => Sys2Proof.Machine.execThreadResume m n s
  | .threadStop m n => Sys2Proof.Machine.execThreadStop m n s
  | .seqWinWrite m n v => Sys2Proof.Machine.execSeqWinWrite m n v s
  | .seqMemoryHostWrite off bytes rd => Sys2Proof.Machine.execSeqMemoryHostWrite off bytes rd s
  | .imgchk iss d a b rd => Sys2Proof.Machine.execImgchk iss d a b rd s
  | .place iss d a b => Sys2Proof.Machine.execPlace iss d a b s
  | .placeSearchDone res us => Sys2Proof.Machine.execPlaceSearchDone res us s
  | .imgld iss d a b rd => Sys2Proof.Machine.execImgld iss d a b rd s
  | .imgldFrameGroup p rd => Sys2Proof.Machine.execImgldFrameGroup p rd s
  | .imgldDone p rd => Sys2Proof.Machine.execImgldDone p rd s
  | .migr iss d a b => Sys2Proof.Machine.execMigr iss d a b s
  | .migrCopyDone p => Sys2Proof.Machine.execMigrCopyDone p s
  | .migrPeriod p order => Sys2Proof.Machine.execMigrPeriod p order s
  | .act iss d a b => Sys2Proof.Machine.execAct iss d a b s
  | .frz iss d a b => Sys2Proof.Machine.execFrz iss d a b s
  | .step iss d a b => Sys2Proof.Machine.execStep iss d a b s
  | .run iss d a b => Sys2Proof.Machine.execRun iss d a b s
  | .stop iss d a b => Sys2Proof.Machine.execStop iss d a b s
  | .snap iss d a b => Sys2Proof.Machine.execSnap iss d a b s
  | .snapshotCaptureDone p slots rd us => Sys2Proof.Machine.execSnapshotCaptureDone p slots rd us s
  | .rwnd iss d a b => Sys2Proof.Machine.execRwnd iss d a b s
  | .rewindDone p rd => Sys2Proof.Machine.execRewindDone p rd s
  | .fill iss d a b => Sys2Proof.Machine.execFill iss d a b s
  | .fillDone n slot rd => Sys2Proof.Machine.execFillDone n slot rd s
  | .rmov iss d a b => Sys2Proof.Machine.execRmov iss d a b s
  | .rmovDone n slot rd => Sys2Proof.Machine.execRmovDone n slot rd s
  | .dma iss d a b => Sys2Proof.Machine.execDma iss d a b s
  | .dmaDone n slot host rd => Sys2Proof.Machine.execDmaDone n slot host rd s
  | .prb iss d a b => Sys2Proof.Machine.execPrb iss d a b s
  | .trig iss d a b => Sys2Proof.Machine.execTrig iss d a b s
  | .censRegister iss d a b => Sys2Proof.Machine.execCensRegister iss d a b s
  | .censRound iss d a b => Sys2Proof.Machine.execCensRound iss d a b s
  | .donewHold iss d a b => Sys2Proof.Machine.execDonewHold iss d a b s
  | .donewRelease iss d a b => Sys2Proof.Machine.execDonewRelease iss d a b s
  | .doneHoldRelease => Sys2Proof.Machine.execDoneHoldRelease s
  | .doneNRise th => Sys2Proof.Machine.execDoneNRise th s
  | .startFrameReceived n f w => Sys2Proof.Machine.execStartFrameReceived n f w s
  | .startTimeReached => Sys2Proof.Machine.execStartTimeReached s
  | .donewTimeout => Sys2Proof.Machine.execDonewTimeout s
  | .startFrameTimeout => Sys2Proof.Machine.execStartFrameTimeout s
  | .keysetMemoryKey iss d a b => Sys2Proof.Machine.execKeysetMemoryKey iss d a b s
  | .keysetImageKey iss d a b => Sys2Proof.Machine.execKeysetImageKey iss d a b s
  | .keysetTenantHashes iss d a b => Sys2Proof.Machine.execKeysetTenantHashes iss d a b s
  | .keyretRetire iss d a b => Sys2Proof.Machine.execKeyretRetire iss d a b s
  | .keyidDrained k => Sys2Proof.Machine.execKeyidDrained k s
  | .retireTimeout k aborted => Sys2Proof.Machine.execRetireTimeout k aborted s
  | .keyidRetired k => Sys2Proof.Machine.execKeyidRetired k s
  | .keyretFree iss d a b => Sys2Proof.Machine.execKeyretFree iss d a b s
  | .evt iss d a b => Sys2Proof.Machine.execEvt iss d a b s
  | .thrm iss d a b => Sys2Proof.Machine.execThrm iss d a b s
  | .mtrdRegisters iss d a b => Sys2Proof.Machine.execMtrdRegisters iss d a b s
  | .mtrdSigned iss d a b => Sys2Proof.Machine.execMtrdSigned iss d a b s
  | .mtrdTimeout n slot => Sys2Proof.Machine.execMtrdTimeout n slot s
  | .icpgGrant iss d a b => Sys2Proof.Machine.execIcpgGrant iss d a b s
  | .icpgRevoke iss d a b => Sys2Proof.Machine.execIcpgRevoke iss d a b s
  | .partCreate iss d a b => Sys2Proof.Machine.execPartCreate iss d a b s
  | .partChange iss d a b => Sys2Proof.Machine.execPartChange iss d a b s
  | .partRelease iss d a b => Sys2Proof.Machine.execPartRelease iss d a b s
  | .partDelete iss d a b => Sys2Proof.Machine.execPartDelete iss d a b s
  | .hotsw iss d a b => Sys2Proof.Machine.execHotsw iss d a b s
  | .hotswChecksDone rd => Sys2Proof.Machine.execHotswChecksDone rd s
  | .hotswThreadsSuspended => Sys2Proof.Machine.execHotswThreadsSuspended s
  | .hotswHoldTimeout => Sys2Proof.Machine.execHotswHoldTimeout s
  | .hotswAllHeld => Sys2Proof.Machine.execHotswAllHeld s
  | .hotswSectionsWritten => Sys2Proof.Machine.execHotswSectionsWritten s
  | .icpWriteRequest p port msg => Sys2Proof.Machine.execIcpWriteRequest p port msg s
  | .icpWriteDone p tag rd => Sys2Proof.Machine.execIcpWriteDone p tag rd s
  | .icpRejoinRequest p port msg => Sys2Proof.Machine.execIcpRejoinRequest p port msg s
  | .sysfaultNFall => Sys2Proof.Machine.execSysfaultNFall s
  | .sysfaultNRise => Sys2Proof.Machine.execSysfaultNRise s
  | .sysfaultClear m => Sys2Proof.Machine.execSysfaultClear m s
  | .sysfaultFwAssert m v => Sys2Proof.Machine.execSysfaultFwAssert m v s
  | .iobankWrite m b v => Sys2Proof.Machine.execIobankWrite m b v s
  | .retrainPause u => Sys2Proof.Machine.execRetrainPause u s
  | .retrainPauseCut u => Sys2Proof.Machine.execRetrainPauseCut u s
  | .dramRefreshTick u => Sys2Proof.Machine.execDramRefreshTick u s
  | .bucketLeak => Sys2Proof.Machine.execBucketLeak s
  | .sidebandUe ring hit => Sys2Proof.Machine.execSidebandUe ring hit s
  | .sealForce m key => Sys2Proof.Machine.execSealForce m key s
  | .nocStopDisable m v_s => Sys2Proof.Machine.execNocStopDisable m v_s s
  | .nocStopOff m v_s => Sys2Proof.Machine.execNocStopOff m v_s s
  | .nocStopOn m v_s => Sys2Proof.Machine.execNocStopOn m v_s s
  | .drainComplete f => Sys2Proof.Machine.execDrainComplete f s
  | .drainTimeout f aborted => Sys2Proof.Machine.execDrainTimeout f aborted s
  | .fenceHandshakeDone v_s => Sys2Proof.Machine.execFenceHandshakeDone v_s s
  | .arbWatchdogBite idx r => Sys2Proof.Machine.execArbWatchdogBite idx r s
  | .arbReenable m idx r => Sys2Proof.Machine.execArbReenable m idx r s
  | .arbPriorityWrite m idx r high level => Sys2Proof.Machine.execArbPriorityWrite m idx r high level s
  | .nocStatClear m => Sys2Proof.Machine.execNocStatClear m s
  | .nocStatFreeze m v => Sys2Proof.Machine.execNocStatFreeze m v s
  | .norakPortTrained n tx rx repairs => Sys2Proof.Machine.execNorakPortTrained n tx rx repairs s
  | .norakTrainingRetry n => Sys2Proof.Machine.execNorakTrainingRetry n s
  | .norakLinkDrop n pathLost => Sys2Proof.Machine.execNorakLinkDrop n pathLost s
  | .helloI n h => Sys2Proof.Machine.execHelloI n h s
  | .helloR n h => Sys2Proof.Machine.execHelloR n h s
  | .auth n m => Sys2Proof.Machine.execAuth n m s
  | .finished n mac => Sys2Proof.Machine.execFinished n mac s
  | .norakHandshakeTimeout n => Sys2Proof.Machine.execNorakHandshakeTimeout n s
  | .norakHandshakeRetry n => Sys2Proof.Machine.execNorakHandshakeRetry n s
  | .norakKeyUpdate n => Sys2Proof.Machine.execNorakKeyUpdate n s
  | .norakNak n lfn => Sys2Proof.Machine.execNorakNak n lfn s
  | .norakAck n lfn => Sys2Proof.Machine.execNorakAck n lfn s
  | .cutnet n f w moved => Sys2Proof.Machine.execCutnet n f w moved s
  | .gfreeze n f w => Sys2Proof.Machine.execGfreeze n f w s
  | .census n f w => Sys2Proof.Machine.execCensus n f w s
  | .censusTimeout => Sys2Proof.Machine.execCensusTimeout s
  | .censusAutoPeriod => Sys2Proof.Machine.execCensusAutoPeriod s
  | .time n offset => Sys2Proof.Machine.execTime n offset s
  | .ringTimeLock hops => Sys2Proof.Machine.execRingTimeLock hops s
  | .ringDisable m r => Sys2Proof.Machine.execRingDisable m r s
  | .ringOff m r => Sys2Proof.Machine.execRingOff m r s
  | .ringOn m r => Sys2Proof.Machine.execRingOn m r s
  | .ringCutWrite m b v => Sys2Proof.Machine.execRingCutWrite m b v s
  | .ringGroupWrite m p v => Sys2Proof.Machine.execRingGroupWrite m p v s
  | .traceAllocWrite m p v => Sys2Proof.Machine.execTraceAllocWrite m p v s
  | .obsTownWrite m p v => Sys2Proof.Machine.execObsTownWrite m p v s
  | .dbgaccUpdate v => Sys2Proof.Machine.execDbgaccUpdate v s
  | .idcode => Sys2Proof.Machine.execIdcode s
  | .samplePreload cells => Sys2Proof.Machine.execSamplePreload cells s
  | .extest => Sys2Proof.Machine.execExtest s
  | .extestPulse => Sys2Proof.Machine.execExtestPulse s
  | .extestTrain => Sys2Proof.Machine.execExtestTrain s
  | .dbgacc => Sys2Proof.Machine.execDbgacc s
  | .bypass code => Sys2Proof.Machine.execBypass code s
  | .powerSample mw => Sys2Proof.Machine.execPowerSample mw s
  | .thermalModelStep samples => Sys2Proof.Machine.execThermalModelStep samples s
  | .bandDownTimer dom => Sys2Proof.Machine.execBandDownTimer dom s
  | .coldPlateFit => Sys2Proof.Machine.execColdPlateFit s
  | .rateOfRiseCheck => Sys2Proof.Machine.execRateOfRiseCheck s
  | .sensorRecovery n => Sys2Proof.Machine.execSensorRecovery n s
  | .powerFaultRecovery g => Sys2Proof.Machine.execPowerFaultRecovery g s
  | .tripWaitTimeout => Sys2Proof.Machine.execTripWaitTimeout s
  | .tripFreezeComplete => Sys2Proof.Machine.execTripFreezeComplete s
  | .tripEnd => Sys2Proof.Machine.execTripEnd s
  | .gclkReqWrite m bandMax v => Sys2Proof.Machine.execGclkReqWrite m bandMax v s
  | .scrubPassStart overrun upset => Sys2Proof.Machine.execScrubPassStart overrun upset s
  | .scrubPassEnd hits stored late ms => Sys2Proof.Machine.execScrubPassEnd hits stored late ms s
  | .fallbackSoftwarePass stored late => Sys2Proof.Machine.execFallbackSoftwarePass stored late s
  | .scrubRetry m n => Sys2Proof.Machine.execScrubRetry m n s
  | .bondTest m n => Sys2Proof.Machine.execBondTest m n s
  | .bondTestDone bonds => Sys2Proof.Machine.execBondTestDone bonds s
  | .patrolRead w rd => Sys2Proof.Machine.execPatrolRead w rd s
  | .spareBankCopyDone idx upset => Sys2Proof.Machine.execSpareBankCopyDone idx upset s
  | .ddrVacate m c persist => Sys2Proof.Machine.execDdrVacate m c persist s
  | .ddrVacateDone c => Sys2Proof.Machine.execDdrVacateDone c s
  | .ddrRestore m c => Sys2Proof.Machine.execDdrRestore m c s
  | .lifeCheck => Sys2Proof.Machine.execLifeCheck s
  | .evtConsWrite m v => Sys2Proof.Machine.execEvtConsWrite m v s
  | .vfEvtConsWrite p v => Sys2Proof.Machine.execVfEvtConsWrite p v s
  | .meterPowerUp railsUp calOk => Sys2Proof.Machine.execMeterPowerUp railsUp calOk s
  | .mvddPowerFail => Sys2Proof.Machine.execMvddPowerFail s
  | .meterSample mw => Sys2Proof.Machine.execMeterSample mw s
  | .meterSecond => Sys2Proof.Machine.execMeterSecond s
  | .meterStore => Sys2Proof.Machine.execMeterStore s
  | .meterMinute => Sys2Proof.Machine.execMeterMinute s
  | .meterTamper => Sys2Proof.Machine.execMeterTamper s
  | .crystalFault => Sys2Proof.Machine.execCrystalFault s
  | .crystalRecovered => Sys2Proof.Machine.execCrystalRecovered s
  | .mpulseImpulse => Sys2Proof.Machine.execMpulseImpulse s
  | .i3cPrivateWrite ptr data => Sys2Proof.Machine.execI3cPrivateWrite ptr data s
  | .req nonce => Sys2Proof.Machine.execReq nonce s
  | .logsel data => Sys2Proof.Machine.execLogsel data s
  | .i3cPrivateRead len => Sys2Proof.Machine.execI3cPrivateRead len s
  | .setdasa addr => Sys2Proof.Machine.execSetdasa addr s
  | .entdaa addr => Sys2Proof.Machine.execEntdaa addr s
  | .setnewda addr => Sys2Proof.Machine.execSetnewda addr s
  | .setmwl v => Sys2Proof.Machine.execSetmwl v s
  | .setmrl v => Sys2Proof.Machine.execSetmrl v s
  | .enec => Sys2Proof.Machine.execEnec s
  | .valueFrame upset => Sys2Proof.Machine.execValueFrame upset s
  | .signedReadoutFrame bytes crc => Sys2Proof.Machine.execSignedReadoutFrame bytes crc s
  | .countFrameSend => Sys2Proof.Machine.execCountFrameSend s
  | .countFrame upset => Sys2Proof.Machine.execCountFrame upset s
  | .meterLinkLost v_s => Sys2Proof.Machine.execMeterLinkLost v_s s
  | .powerRailRestored g straps => Sys2Proof.Machine.execPowerRailRestored g straps s
  | .vccioRestored b volts => Sys2Proof.Machine.execVccioRestored b volts s
  | .doneNFall => Sys2Proof.Machine.execDoneNFall s
  | .marlTrainingDone m repairs ok => Sys2Proof.Machine.execMarlTrainingDone m repairs ok s
  | .debugAccessDone rd => Sys2Proof.Machine.execDebugAccessDone rd s
  | .spdmRequest r => Sys2Proof.Machine.execSpdmRequest r s
  | .malformedFrame n f => Sys2Proof.Machine.execMalformedFrame n f s

end Sys2Proof.Machine
end

