-- ==== Sys2Proof/Safety.lean ====
section
/-! DEFINITION. What claims are stated in: that a command answers a next state, the groups of state of the device, and a
change confined to some of them. -/
namespace Sys2Proof.Machine
open Host

/-- The groups of state of the device, one for each field of Dev that the spec names; the count of free values is the model's
own and belongs to none. -/
inductive Sect where
  /-- keep registers (R71) -/
  | keep
  /-- boot and the ID block (R55) -/
  | boot
  /-- host link (R47) -/
  | pcie
  /-- resets (R76) -/
  | rst
  /-- events (R84) -/
  | evt
  /-- clocks (R32) -/
  | clk
  /-- sequencer (R257) -/
  | seq
  /-- outstanding operations (R277) -/
  | ops
  /-- ICP writes (R241) -/
  | icp
  /-- fabric (R93) -/
  | fab
  /-- system lines (R247) -/
  | start
  /-- placer (R199) -/
  | plc
  /-- partitions (R221) -/
  | parts
  /-- user pins (R222) -/
  | pins
  /-- memory (R335) -/
  | mem
  /-- inline encryption (R386) -/
  | ime
  /-- rings and arbiters (R436) -/
  | noc
  /-- Norak (R467) -/
  | ring
  /-- observation (R502) -/
  | obs
  /-- debug port (R520) -/
  | tap
  /-- thermal (R525) -/
  | thm
  /-- reliability (R545) -/
  | rel
  /-- meter bridge (R581) -/
  | mtr
  deriving DecidableEq, Repr

/-- A group of state is the same in two devices. -/
def Sect.same : Sect → Dev → Dev → Prop
  | .keep, d, e => e.keep = d.keep
  | .boot, d, e => e.boot = d.boot
  | .pcie, d, e => e.pcie = d.pcie
  | .rst, d, e => e.rst = d.rst
  | .evt, d, e => e.evt = d.evt
  | .clk, d, e => e.clk = d.clk
  | .seq, d, e => e.seq = d.seq
  | .ops, d, e => e.ops = d.ops
  | .icp, d, e => e.icp = d.icp
  | .fab, d, e => e.fab = d.fab
  | .start, d, e => e.start = d.start
  | .plc, d, e => e.plc = d.plc
  | .parts, d, e => e.parts = d.parts
  | .pins, d, e => e.pins = d.pins
  | .mem, d, e => e.mem = d.mem
  | .ime, d, e => e.ime = d.ime
  | .noc, d, e => e.noc = d.noc
  | .ring, d, e => e.ring = d.ring
  | .obs, d, e => e.obs = d.obs
  | .tap, d, e => e.tap = d.tap
  | .thm, d, e => e.thm = d.thm
  | .rel, d, e => e.rel = d.rel
  | .mtr, d, e => e.mtr = d.mtr

/-- Two devices differ in no group of state outside a list. -/
def SameBut (l : List Sect) (d e : Dev) : Prop := ∀ x : Sect, x ∉ l → x.same d e

/-- Two states differ at most in groups of a list: the fuses, the meter die and the waiting commands are the same. -/
def Only (l : List Sect) (s t : State) : Prop :=
  t.fuse = s.fuse ∧ t.die = s.die ∧ t.pending = s.pending ∧ SameBut l s.dev t.dev

/-- A command answers a next state, of which `P` holds. -/
def Answers (c : Instr) (s : State) (P : State → Prop) : Prop := ∃ t, exec c s = .next t ∧ P t

/-- The device is out of reset: PERST# is released and every monitored rail group is within range (R591). -/
def Out (s : State) : Prop := s.dev.rst.perst = false ∧ s.dev.rst.railLow = []

/-- The device is out of reset, and the clocks that SYSREFCLK feeds run (R38, R45, R57). -/
def Up (s : State) : Prop := Out s ∧ s.dev.sysClocked = true

/-- A command answers the state in which the device alone differs and is `e`: the fuses, the meter die and the waiting commands
are as before. -/
def Does (c : Instr) (s : State) (e : Dev) : Prop := exec c s = .next { s with dev := e }

/-- A command answers a next state that differs at most in groups `l` of the device, and `P` holds of the device. -/
def Makes (c : Instr) (s : State) (l : List Sect) (P : Dev → Prop) : Prop :=
  Answers c s fun t => Only l s t ∧ P t.dev

/-- Host software through PF0, or T0, commands a device that is out of reset and not sealed (R92, R140). -/
def Allowed (m : Master) (s : State) : Prop := Out s ∧ s.dev.ime.sealed = false ∧ (m = .pf0 ∨ m = .thread 0)

/-- The fetch of an instruction: a pending window is in force, and the codeword of the PC is read (R263, R338, R379). -/
def fetchOf (d : Dev) (i : Issue) : Dev × Option (Nat × Bad) :=
  (d.updThr i.thread Thread.applyWin).lookPlain (seqAddr (d.thr i.thread).pc.toNat) 4 i.fetch

/-- The device as a fetch leaves it. -/
def fetched (d : Dev) (i : Issue) : Dev := (fetchOf d i).1

/-- The instruction of word `w` issues: its thread is RUN, it may fetch there, the fetch is good, and the word is what memory delivers
(R258, R262, R264). -/
def Ready (d : Dev) (i : Issue) (w : Nat) : Prop :=
  i.thread ≤ 64 ∧ (d.thr i.thread).state = .run ∧ (d.thr i.thread).pc.toNat < 0x400000 ∧ (fetchOf d i).2 = none ∧
  (fetched d i).mayFetch i.thread (d.thr i.thread).pc.toNat = true ∧
  ((fetched d i).wordAt (d.thr i.thread).pc.toNat = none ∨ (fetched d i).wordAt (d.thr i.thread).pc.toNat = some w)

/-- The operation that a DEV posts into slot `sl` of its thread, on partition `part` (R277, R278). -/
def posting (d : Dev) (i : Issue) (dop : Nat) (a b : BitVec 5) (part sl : Nat) : Op :=
  { thread := i.thread, slot := sl, dop := dop, a := (d.thr i.thread).reg a, b := (d.thr i.thread).reg b, part := part,
    order := d.seq.nextOrder }

/-- The device once a DEV has posted an operation: the fetch, the next issue order, the ticket in gD, the slot occupied with its
next generation, and the operation outstanding (R277, R278). -/
def posted (d : Dev) (i : Issue) (r : BitVec 5) (o : Op) : Dev :=
  let e := fetched d i
  let gen := ((e.thr i.thread).slot o.slot).gen + 1
  let e1 := { e with seq := { e.seq with nextOrder := e.seq.nextOrder + 1 } }.updThr i.thread fun t =>
    { t.setReg r (ticket i.thread o.slot gen) with
      pc := t.pc + 4, slots := tset t.slots o.slot { gen := gen, busy := true, done := none, order := o.order } }
  e1.addOp o

/-- A DEV is ready to post on partition `part`: it issues, slot `sl` is the thread's lowest free one, and nothing holds the
operation (R278, R284). -/
def CanPost (d : Dev) (i : Issue) (dop : Nat) (r a b : BitVec 5) (part sl : Nat) : Prop :=
  Ready d i (wordV dop r a b) ∧ (d.thr i.thread).freeSlot = some sl ∧ d.rst.svc = none ∧
  (part = 0 ∨ ∀ x ∈ d.ops, x.part = part → x.phase ≠ .held)

/-- From device `q` to device `e` the operation's ticket completes with a code and detail, and nothing else of the sequencer
changes (R281, R282). -/
def EndsWith (q e : Dev) (o : Op) (code detail : Nat) : Prop :=
  e.seq = (q.complete o.thread o.slot code detail).seq ∧ e.ops = (q.complete o.thread o.slot code detail).ops

/-- The operation's ticket completes with CODE 0; the spec gives its detail no value (log 25). -/
def Finishes (q e : Dev) (o : Op) : Prop := ∃ detail, EndsWith q e o 0 detail

/-- The tickets of the outstanding operations of a kind are of no other kind (R277). -/
def OwnTickets (d : Dev) (dop : Nat) : Prop :=
  ∀ y ∈ d.ops, ∀ z ∈ d.ops, y.dop = dop → z.thread = y.thread → z.slot = y.slot → z.dop = dop

/-- The operation stays outstanding: neither the sequencer nor the list of operations changes. -/
def Goes (q e : Dev) : Prop := e.seq = q.seq ∧ e.ops = q.ops

/-- A command answers a next state: the fuses, the meter die and the waiting commands are as before, the device differs from `q`
at most in groups `l`, and `P` holds of it. -/
def From (q : Dev) (c : Instr) (s : State) (l : List Sect) (P : Dev → Prop) : Prop :=
  Answers c s fun t => t.fuse = s.fuse ∧ t.die = s.die ∧ t.pending = s.pending ∧ SameBut l q t.dev ∧ P t.dev

/-- The operation of a ticket of a thread runs, is `o`, and no earlier one must complete first (R303). -/
def HasTurn (d : Dev) (n sl dop : Nat) (o : Op) : Prop :=
  d.op n sl = some o ∧ o.dop = dop ∧ o.phase = .run ∧ d.mustWait o = false

/-- The next frame in order arrives on port n: the port is up and sealed, and the frame has the next link frame number and the
epoch of the receive secret (R432, R476, R477). -/
def InOrder (d : Dev) (n : Nat) (f : Frame) : Prop :=
  n < 4 ∧ (d.rport n).state = .up ∧ (d.nk n).state = .sealed ∧ f.lfn = (d.rport n).rxLfn ∧ f.epoch = (d.nk n).rxEpoch

/-- The next frame in order arrives on port n whole: its FEC codewords could be corrected, and its tag is right; `l` is its payload
(R433, R477). -/
def Opens (d : Dev) (n : Nat) (f : Frame) (w : Arrival) (l : List Byte) : Prop :=
  InOrder d n f ∧ w.broken = 0 ∧ openUnder (d.nk n).rx f w.tag = some l

/-- The device once port n has taken a frame in (R432, R477). -/
def tookIn (d : Dev) (n : Nat) (f : Frame) (w : Arrival) : Dev :=
  (d.countFec n w).takeIn n f { d.nk n with rxSeq := (d.nk n).rxSeq + 1 }

/-- The meter's registers are in order: at most 1,024 log entries, whose sequence numbers run on without a break from the number of
overwritten ones to LOGSEQ, and less than 1 mWh of energy not yet counted (R566, R576). -/
def MeterRegs.InOrder (r : MeterRegs) : Prop :=
  r.log.length ≤ 1024 ∧ r.logwraps + BitVec.ofNat 32 r.log.length = r.logseq ∧ r.energyFrac < samplesPerMwh ∧
  ∀ (i : Nat) (e : LogEntry), r.log[i]? = some e → e.seq = r.logwraps + BitVec.ofNat 32 (i + 1)

/-- Every stored codeword and carry code of memory is as written, and no line is poisoned (R338, R377). -/
def Intact (d : Dev) : Prop := d.mem.upsets = [] ∧ d.mem.ccUpsets = [] ∧ d.mem.poison = []

/-- A read of sequencer memory is good, and delivers its bytes as written: no correction of a codeword was wrong (R338, R339). -/
def ReadsTrue (r : Dev × Option (Nat × Bad)) (a n : Nat) : Prop := r.2 = none ∧ r.1.wrongData a n = false

/-- The step goes on: it answers a next state. -/
def goesOn (s : State) : Prop := ∃ t, step s = .next t

end Sys2Proof.Machine
end

