-- ==== Sys2Proof/Certificates/Slice0/Obligations.lean ====
section
/-! DEFINITION. The statements for the provers, in the order of OBLIGATIONS.json. -/

section Statements
open Sys2Proof Sys2Proof.Machine Host

/-- A step of a state with a command at the front of its queue is that command's effect on the state with the rest waiting. -/
def Obligations.StepRunsFront : Prop :=
  ∀ (c : Instr) (r : List Instr) (s : State), step { s with pending := c :: r } = exec c { s with pending := r }

/-- Every command has a next state, whatever its operands and the state, and its effect is on everything but the queue. -/
def Obligations.EveryCommandAnswers : Prop := ∀ (c : Instr) (s : State), Answers c s fun t => t.pending = s.pending

/-- The ALU function table of R272: the value each function gives to gD. -/
def Obligations.AluRegisterResults : Prop :=
  ∀ (i : Issue) (d a b : BitVec 5) (s : State), Up s →
    let x := (s.dev.thr i.thread).reg a
    let y := (s.dev.thr i.thread).reg b
    let k := y.toNat % 64
    let gives := fun (c : Instr) (fn : Nat) (b : BitVec 5) (v : Word) =>
      Ready s.dev i (wordA 0 fn d a b) → exec c s = .next { s with dev := (fetched s.dev i).result i.thread d v }
    gives (.add i d a b) 0x00 b (x + y) ∧ gives (.sub i d a b) 0x01 b (x - y) ∧
    gives (.and i d a b) 0x02 b (x &&& y) ∧ gives (.or i d a b) 0x03 b (x ||| y) ∧
    gives (.xor i d a b) 0x04 b (x ^^^ y) ∧ gives (.sll i d a b) 0x05 b (BitVec.ofNat 64 (x.toNat * 2 ^ k)) ∧
    gives (.srl i d a b) 0x06 b (BitVec.ofNat 64 (x.toNat / 2 ^ k)) ∧
    gives (.sra i d a b) 0x07 b (BitVec.ofInt 64 (x.toInt / 2 ^ k)) ∧
    gives (.mul i d a b) 0x08 b (BitVec.ofNat 64 (x.toNat * y.toNat)) ∧
    gives (.mulhu i d a b) 0x09 b (BitVec.ofNat 64 (x.toNat * y.toNat / 2 ^ 64)) ∧
    gives (.divu i d a b) 0x0A b (if y = 0 then 0xFFFFFFFFFFFFFFFF else BitVec.ofNat 64 (x.toNat / y.toNat)) ∧
    gives (.remu i d a b) 0x0B b (if y = 0 then x else BitVec.ofNat 64 (x.toNat % y.toNat)) ∧
    gives (.slt i d a b) 0x0C b (if x.toInt < y.toInt then 1 else 0) ∧
    gives (.sltu i d a b) 0x0D b (if x.toNat < y.toNat then 1 else 0) ∧
    gives (.popc i d a) 0x0E 0 (BitVec.ofNat 64 ((List.range 64).countP fun j => x.getLsbD j)) ∧
    (∃ n ≤ 64, (∀ j < n, x.getLsbD (63 - j) = false) ∧ (n < 64 → x.getLsbD (63 - n) = true) ∧
      gives (.clz i d a) 0x0F 0 (BitVec.ofNat 64 n)) ∧
    (∃ n ≤ 64, (∀ j < n, x.getLsbD j = false) ∧ (n < 64 → x.getLsbD n = true) ∧
      gives (.ctz i d a) 0x10 0 (BitVec.ofNat 64 n))

/-- The opcode table of R271, opcodes 0x01 to 0x0B: the value each gives to gD. -/
def Obligations.AluImmediateResults : Prop :=
  ∀ (i : Issue) (d a : BitVec 5) (imm : BitVec 16) (sh : BitVec 6) (s : State), Up s →
    let x := (s.dev.thr i.thread).reg a
    let k := sh.toNat
    let gives := fun (c : Instr) (op : Nat) (a : BitVec 5) (m : Nat) (v : Word) =>
      Ready s.dev i (wordI op d a m) → exec c s = .next { s with dev := (fetched s.dev i).result i.thread d v }
    gives (.addi i d a imm) 0x01 a imm.toNat (x + BitVec.ofInt 64 imm.toInt) ∧
    gives (.andi i d a imm) 0x02 a imm.toNat (x &&& BitVec.ofNat 64 imm.toNat) ∧
    gives (.ori i d a imm) 0x03 a imm.toNat (x ||| BitVec.ofNat 64 imm.toNat) ∧
    gives (.xori i d a imm) 0x04 a imm.toNat (x ^^^ BitVec.ofNat 64 imm.toNat) ∧
    gives (.slli i d a sh) 0x05 a sh.toNat (BitVec.ofNat 64 (x.toNat * 2 ^ k)) ∧
    gives (.srli i d a sh) 0x06 a sh.toNat (BitVec.ofNat 64 (x.toNat / 2 ^ k)) ∧
    gives (.srai i d a sh) 0x07 a sh.toNat (BitVec.ofInt 64 (x.toInt / 2 ^ k)) ∧
    gives (.slti i d a imm) 0x08 a imm.toNat (if x.toInt < imm.toInt then 1 else 0) ∧
    gives (.sltiu i d a imm) 0x09 a imm.toNat
      (if x.toNat < (BitVec.ofInt 64 imm.toInt).toNat then 1 else 0) ∧
    gives (.lui i d imm) 0x0A 0 imm.toNat (BitVec.ofInt 64 (imm.toInt * 2 ^ 16)) ∧
    gives (.shin i d imm) 0x0B 0 imm.toNat
      (BitVec.ofNat 64 ((s.dev.thr i.thread).reg d).toNat <<< 16 ||| BitVec.ofNat 64 imm.toNat)

/-- The frame of an instruction whose effect is a value in gD (R257), and of its fetch (R263, R264). -/
def Obligations.RegisterResultFrame : Prop :=
  ∀ (d : Dev) (n m : Nat) (r q : BitVec 5) (v : Word) (i : Issue),
    let e := d.result n r v
    ((d.thr n).reg 0 = 0) ∧ SameBut [.seq] d e ∧
    e.seq = { d.seq with threads := e.seq.threads } ∧
    (e.thr n).pc = (d.thr n).pc + 4 ∧ (e.thr n).reg r = (if r = 0 then 0 else v) ∧
    (q ≠ r → (e.thr n).reg q = (d.thr n).reg q) ∧ (e.thr n).slots = (d.thr n).slots ∧
    (e.thr n).state = (d.thr n).state ∧ (e.thr n).wait = (d.thr n).wait ∧ (e.thr n).win = (d.thr n).win ∧
    (m ≠ n → e.thr m = d.thr m) ∧
    SameBut [.seq, .mem, .evt] d (fetched d i) ∧
    (fetched d i).seq = { d.seq with threads := (fetched d i).seq.threads } ∧
    (fetched d i).thr i.thread = (d.thr i.thread).applyWin ∧
    (m ≠ i.thread → (fetched d i).thr m = d.thr m) ∧
    (fetched d i).mem = { d.mem with
      upsets := (fetched d i).mem.upsets, ccUpsets := (fetched d i).mem.ccUpsets, buckets := (fetched d i).mem.buckets } ∧
    (i.fetch = .clean → d.mem.upsets = [] → (fetched d i) = d.updThr i.thread Thread.applyWin)

/-- Opcodes 0x10 to 0x12 of R271 with the window of R262, where the device code gives the word (R264, R338). -/
def Obligations.LoadResults : Prop :=
  ∀ (i : Issue) (d a : BitVec 5) (off : BitVec 16) (rd : ReadOutcome) (s : State), Up s →
    let n := i.thread
    let x := (s.dev.thr n).reg a + BitVec.ofInt 64 off.toInt
    let at_ := seqAddr x.toNat
    let e := fetched s.dev i
    let loads := fun (c : Instr) (op k : Nat) =>
      let r := e.lookPlain at_ k rd
      Ready s.dev i (wordI op d a off.toNat) → e.mayLoad n x.toNat k = true → x.toNat % k = 0 → r.2 = none →
      Answers c s fun t =>
        Only [.seq, .mem, .evt] s t ∧
        (∀ l, cgetBytes s.dev.mem.cells at_ k = some l → r.1.wrongData at_ k = false →
          t.dev.seq = (e.result n d (BitVec.ofNat 64 (leNat l))).seq) ∧
        (∃ v, t.dev.seq = (e.result n d v).seq) ∧
        t.dev.mem = { s.dev.mem with
          upsets := t.dev.mem.upsets, ccUpsets := t.dev.mem.ccUpsets, buckets := t.dev.mem.buckets } ∧
        (i.fetch = .clean → rd = .clean → s.dev.mem.upsets = [] → t.dev.mem = s.dev.mem ∧ t.dev.evt = s.dev.evt)
    loads (.ld i d a off rd) 0x10 8 ∧ loads (.lw i d a off rd) 0x11 4 ∧ loads (.lb i d a off rd) 0x12 1

/-- Opcodes 0x14 to 0x16 of R271, the window of R262, the read before a partial write of R274, and the carry code of the unit that a
store of a whole codeword changes (R424). -/
def Obligations.StoreResults : Prop :=
  ∀ (i : Issue) (d a : BitVec 5) (off : BitVec 16) (rd : ReadOutcome) (s : State), Up s →
    let n := i.thread
    let x := (s.dev.thr n).reg a + BitVec.ofInt 64 off.toInt
    let at_ := seqAddr x.toNat
    let v := ((s.dev.thr n).reg d).toNat
    let e := fetched s.dev i
    let stores := fun (c : Instr) (op k : Nat) (good : Prop) =>
      Ready s.dev i (wordI op d a off.toNat) → e.mayStore n x.toNat k = true → x.toNat % k = 0 → good →
      Answers c s fun t =>
        Only [.seq, .mem, .evt] s t ∧ t.dev.seq = (e.nextPc n).seq ∧
        (∀ j < k, cget t.dev.mem.cells (at_ + j) = some (BitVec.ofNat 8 (v / 256 ^ j))) ∧
        (∀ z, z < at_ ∨ at_ + k ≤ z → cget t.dev.mem.cells z = cget s.dev.mem.cells z) ∧
        t.dev.mem.tags = s.dev.mem.tags ∧ t.dev.mem.poison = s.dev.mem.poison
    stores (.st i d a off) 0x14 8 (tget e.mem.ccUpsets (at_ / 64) 0 = 0) ∧
    stores (.sw i d a off rd) 0x15 4 (ReadsTrue (e.lookPlain at_ 4 rd) at_ 4) ∧
    stores (.sb i d a off rd) 0x16 1 (ReadsTrue (e.lookPlain at_ 1 rd) at_ 1)

/-- The AMO table of R273, with the window of R262 and the read of R274. -/
def Obligations.AtomicResults : Prop :=
  ∀ (i : Issue) (d a b : BitVec 5) (rd : ReadOutcome) (l : List Byte) (s : State), Up s →
    let n := i.thread
    let x := (s.dev.thr n).reg a
    let y := (s.dev.thr n).reg b
    let z := (s.dev.thr n).reg d
    let at_ := seqAddr x.toNat
    let e := fetched s.dev i
    let m := BitVec.ofNat 64 (leNat l)
    cgetBytes s.dev.mem.cells at_ 8 = some l → ReadsTrue (e.lookPlain at_ 8 rd) at_ 8 →
    e.mayLoad n x.toNat 8 = true → e.mayStore n x.toNat 8 = true → x.toNat % 8 = 0 →
    let leaves := fun (c : Instr) (fn : Nat) (w : Word) =>
      Ready s.dev i (wordA 0x18 fn d a b) →
      Answers c s fun t =>
        Only [.seq, .mem, .evt] s t ∧ t.dev.seq = (e.result n d m).seq ∧
        (∀ j < 8, cget t.dev.mem.cells (at_ + j) = some (BitVec.ofNat 8 (w.toNat / 256 ^ j))) ∧
        (∀ u, u < at_ ∨ at_ + 8 ≤ u → cget t.dev.mem.cells u = cget s.dev.mem.cells u) ∧
        t.dev.mem.tags = s.dev.mem.tags ∧ t.dev.mem.poison = s.dev.mem.poison
    leaves (.swap i d a b rd) 0 y ∧ leaves (.aadd i d a b rd) 1 (m + y) ∧ leaves (.aand i d a b rd) 2 (m &&& y) ∧
    leaves (.aor i d a b rd) 3 (m ||| y) ∧ leaves (.cas i d a b rd) 4 (if m = z then y else m)

/-- LDS and STS issue (R266), and complete (R267): the word of a register, of the sequencer memory window and of memory, and trap 0x0908
where the access ends in an error. -/
def Obligations.SystemAccessWaits : Prop :=
  (∀ (i : Issue) (d a : BitVec 5) (off : BitVec 16) (s : State), Up s →
    let n := i.thread
    let x := (s.dev.thr n).reg a + BitVec.ofInt 64 off.toInt
    let v := (s.dev.thr n).reg d
    let e := fetched s.dev i
    let waits := fun (w : Wait) (data : Option Word) =>
      (e.updThr n fun t => { t with state := .wait, wait := some w }).sendAccess n x data
    x.toNat % 8 = 0 →
    (Ready s.dev i (wordI 0x1A d a off.toNat) → e.mayReach n x false = true →
      Does (.lds i d a off) s (waits (.lds x d.toNat) none)) ∧
    (Ready s.dev i (wordI 0x1B d a off.toNat) → e.mayReach n x true = true →
      Does (.sts i d a off) s (waits (.sts x v) (some v)))) ∧
  (∀ (n r : Nat) (x : Word) (rd : ReadOutcome) (l : List Byte) (s : State), Up s →
    (s.dev.thr n).state = .wait → (s.dev.thr n).wait = some (.lds x r) →
    (s.dev.arb 1 n).quar = false → s.dev.seq.swap.toNat < 2 → (n ≠ 0 ∨ s.dev.seq.queue = []) →
    let a := addrOf x
    let off := a - regWindow
    let inSeq := 0x1000000 ≤ off ∧ off + 8 ≤ 0x1400000
    let gets := fun (v : Word) => Answers (.systemAccessComplete n rd) s fun t =>
      Only [.seq, .noc, .mem, .ime, .evt] s t ∧ (regWindow ≤ a → t.dev.ime = s.dev.ime) ∧ t.dev.seq = (s.dev.updThr n fun t =>
        { t.setReg (BitVec.ofNat 5 r) v with state := .run, wait := none, pc := t.pc + 4 }).seq
    (regWindow ≤ a → ¬ inSeq → lostOnWay rd = none → (0x30000 ≤ off ∧ off < 0x31000 → changesBits rd = false) →
      gets (BitVec.ofNat 64 (leNat (regBytes (s.dev.readReg s.fuse) off 8)))) ∧
    (regWindow ≤ a → inSeq →
      let y := seqAddr (off - 0x1000000)
      ReadsTrue (s.dev.lookPlain y 8 rd) y 8 → cgetBytes s.dev.mem.cells y 8 = some l → gets (BitVec.ofNat 64 (leNat l))) ∧
    (a < regWindow → s.dev.refuse 0 (kidOf x) a 8 false = none → ∀ e, s.dev.look (kidOf x) a 8 rd false = .good e →
      cgetBytes e.mem.cells a 8 = some l → e.wrongData a 8 = false →
      (∀ j < 8, tget e.mem.tags ((a + j) / 64) 0 = e.keyTag (kidOf x)) → gets (BitVec.ofNat 64 (leNat l))) ∧
    (regWindow ≤ a → rd = .abort → ¬ inSeq →
      Does (.systemAccessComplete n rd) s ((s.dev.noteBad .abort a).answerAccess n x false [] |>.trap n 0x0908 x))) ∧
  (∀ (n : Nat) (x v : Word) (rd : ReadOutcome) (s : State), Up s →
    (s.dev.thr n).state = .wait → (s.dev.thr n).wait = some (.sts x v) → (s.dev.arb 1 n).quar = false →
    let a := addrOf x
    let d := s.dev.answerAccess n x true []
    (regWindow ≤ a → ¬ (regWindow + 0x1000000 ≤ a ∧ a < regWindow + 0x1400000) → lostOnWay rd = none →
      Does (.systemAccessComplete n rd) s (((d.accessDone n).writeReg s.fuse (.thread n) (a - regWindow) v).afterAccess n)) ∧
    (regWindow ≤ a → ¬ (regWindow + 0x1000000 ≤ a ∧ a < regWindow + 0x1400000) → rd = .abort →
      Does (.systemAccessComplete n rd) s (d.trap n 0x0908 x)))

/-- Opcodes 0x20 to 0x2A of R271, and the targets of R270. -/
def Obligations.BranchesAndJumps : Prop :=
  ∀ (i : Issue) (d a b : BitVec 5) (off imm : BitVec 16) (far : BitVec 26) (s : State), Up s →
    let n := i.thread
    let x := (s.dev.thr n).reg a
    let y := (s.dev.thr n).reg b
    let pc := (s.dev.thr n).pc
    let branch := fun (c : Instr) (op : Nat) (taken : Bool) =>
      Ready s.dev i (wordI op a b off.toNat) → exec c s = .next { s with dev := (fetched s.dev i).updThr n fun t =>
        { t with pc := if taken then pc + BitVec.ofInt 64 (4 * off.toInt) else pc + 4 } }
    branch (.beq i a b off) 0x20 (decide (x = y)) ∧ branch (.bne i a b off) 0x21 (decide (x ≠ y)) ∧
    branch (.blt i a b off) 0x22 (decide (x.toInt < y.toInt)) ∧
    branch (.bge i a b off) 0x23 (decide (y.toInt ≤ x.toInt)) ∧
    branch (.bltu i a b off) 0x24 (decide (x.toNat < y.toNat)) ∧
    branch (.bgeu i a b off) 0x25 (decide (y.toNat ≤ x.toNat)) ∧
    (Ready s.dev i (wordJ 0x28 far) → exec (.j i far) s = .next { s with dev := (fetched s.dev i).updThr n fun t =>
      { t with pc := pc + BitVec.ofInt 64 (4 * far.toInt) } }) ∧
    (Ready s.dev i (wordJ 0x29 far) → exec (.call i far) s = .next { s with dev := (fetched s.dev i).updThr n fun t =>
      { t.setReg 31 (pc + 4) with pc := pc + BitVec.ofInt 64 (4 * far.toInt) } }) ∧
    (Ready s.dev i (wordI 0x2A d a imm.toNat) →
      let target := x + BitVec.ofInt 64 imm.toInt
      (target.toNat % 4 = 0 → exec (.jalr i d a imm) s = .next { s with dev := (fetched s.dev i).updThr n fun t =>
        { t.setReg d (pc + 4) with pc := target } }) ∧
      (target.toNat % 4 ≠ 0 →
        exec (.jalr i d a imm) s = .next { s with dev := (fetched s.dev i).trap n 0x0905 target }))

/-- The SYS functions of R275 and the special registers of R276. -/
def Obligations.SystemGroup : Prop :=
  ∀ (i : Issue) (d a : BitVec 5) (k : BitVec 16) (s : State), Up s →
    let n := i.thread
    let e := fetched s.dev i
    let q := s.dev.seq
    (Ready s.dev i (wordA 0x30 0 0 0 0) →
      exec (.yield i) s = .next { s with dev := e.updThr n fun t => { t with pc := t.pc + 4 } }) ∧
    (Ready s.dev i (wordA 0x30 1 0 0 0) → exec (.halt i) s = .next { s with dev :=
      (e.updThr n fun t => { t with state := .idle, pc := t.pc + 4 }).postSrc 0x090C (s.dev.thr n).pc.toNat n (0x80 + n) }) ∧
    (Ready s.dev i (wordA 0x30 2 0 0 0) →
      (n ≠ 0 → exec (.trapret i) s = .next { s with dev := e.trap n 0x0903 0 }) ∧
      (n = 0 → q.trapMode = false → exec (.trapret i) s = .next { s with dev := e.trap 0 0x0902 0xC0000002 }) ∧
      (n = 0 → q.trapMode = true → ∃ f, exec (.trapret i) s = .next { s with dev := f.deliver } ∧ f.seq.trapMode = false ∧
        f.thr 0 = { (s.dev.thr 0).applyWin with pc := pcOf q.tret } ∧ f.seq.queue = q.queue ∧ SameBut [.seq, .mem, .evt] s.dev f)) ∧
    (Ready s.dev i (wordI 0x31 d 0 k.toNat) → (k.toNat < 5 ∨ (n = 0 ∧ k.toNat < 15)) →
      ∃ v, exec (.mfs i d k) s = .next { s with dev := e.result n d v } ∧
        (k = 0 → v = BitVec.ofNat 64 n) ∧ (k = 1 → v = BitVec.ofNat 64 n) ∧ (k = 2 → v.toNat = e.evt.time.toNat) ∧
        (k = 3 → v = s.dev.clk.scyc) ∧
        (k = 4 → ∀ j < 64, v.getLsbD j = (decide (j < 16) && ((s.dev.thr n).slot j).busy)) ∧
        (k = 5 → v = q.tvec) ∧ (k = 6 → v = q.tcause) ∧ (k = 7 → v = q.tthr) ∧ (k = 8 → v = q.tpc) ∧
        (k = 9 → v = q.tval) ∧ (k = 10 → v = q.tret) ∧ (11 ≤ k.toNat → v = tget q.tsave (k.toNat - 11) 0)) ∧
    (Ready s.dev i (wordI 0x32 0 a k.toNat) → n = 0 →
      let v := (s.dev.thr 0).reg a
      let sets := fun (g : Seq → Seq) => exec (.mts i a k) s = .next { s with dev :=
        ({ e with seq := g e.seq }.updThr 0 fun t => { t with pc := t.pc + 4 }).deliver }
      (k = 5 → sets fun q => { q with tvec := v }) ∧ (k = 10 → sets fun q => { q with tret := v }) ∧
      (∀ j < 4, k.toNat = 11 + j → sets fun q => { q with tsave := tset q.tsave j v }))

/-- WAITT (R279) and FENCE (R280). -/
def Obligations.WaitsAndFences : Prop :=
  (∀ (i : Issue) (d a : BitVec 5) (imm : BitVec 16) (s : State), Up s →
    let n := i.thread
    let e := fetched s.dev i
    let t := s.dev.thr n
    let k := (t.reg a).toNat
    let sl := k % 16
    let valid := k / 2 ^ 16 = n ∧ (t.slot sl).busy = true ∧ k / 16 % 4096 = (t.slot sl).gen.toNat
    (Ready s.dev i (wordI 0x3C d a imm.toNat) →
      (¬ valid → exec (.waitt i d a imm) s = .next { s with dev := e.trap n 0x0906 (t.reg a) }) ∧
      (valid → ∀ v, (t.slot sl).done = some v → exec (.waitt i d a imm) s = .next { s with dev := e.updThr n fun t =>
        { (t.freeOne sl).setReg d v with pc := t.pc + 4 } }) ∧
      (valid → (t.slot sl).done = none → imm = 0 → exec (.waitt i d a imm) s = .next { s with dev := e.result n d 0xFFFE }) ∧
      (valid → (t.slot sl).done = none → imm ≠ 0 → exec (.waitt i d a imm) s = .next { s with dev := e.updThr n fun t =>
        { t with state := .wait, wait := some (.waitt sl d.toNat (t.slot sl).gen imm.toNat) } })) ∧
    (Ready s.dev i (wordI 0x3D d 0 imm.toNat) →
      let all := ∀ j < 16, (t.slot j).busy = true → (t.slot j).done.isSome = true
      (all → ∃ v, exec (.fence i d imm) s = .next { s with dev := e.updThr n fun t =>
          { t.freeAll.setReg d v with pc := t.pc + 4 } } ∧
        v.toNat / 2 ^ 16 = ((List.range 16).countP fun j =>
          (t.slot j).busy && decide (((t.slot j).done.getD 0).toNat % 2 ^ 16 ≠ 0)) ∧
        (v.toNat % 2 ^ 16 = 0 ↔ v.toNat / 2 ^ 16 = 0)) ∧
      (¬ all → imm = 0 → exec (.fence i d imm) s = .next { s with dev := e.result n d 0xFFFE }) ∧
      (¬ all → imm ≠ 0 → exec (.fence i d imm) s = .next { s with dev := e.updThr n fun t =>
        { t with state := .wait, wait := some (.fence d.toNat imm.toNat) } }))) ∧
  (∀ (n r sl us : Nat) (g : BitVec 12) (s : State), Up s → (s.dev.thr n).state = .wait → us < 0xFFFF →
    let e := s.dev.updThr n fun t =>
      { t.setReg (BitVec.ofNat 5 r) 0xFFFE with state := .run, wait := none, pc := t.pc + 4 }
    ((s.dev.thr n).wait = some (.waitt sl r g us) →
      exec (.waittTimeout n) s = .next { s with dev := if n = 0 then e.deliver else e }) ∧
    ((s.dev.thr n).wait = some (.fence r us) →
      exec (.fenceTimeout n) s = .next { s with dev := if n = 0 then e.deliver else e }))

/-- Traps (R286, R287). -/
def Obligations.TrapEntry : Prop :=
  ∀ (d : Dev) (n code m : Nat) (v : Word),
    let e := d.trap n code v
    let q := d.seq
    let p := (d.thr n).pc
    let rec_ : Trap := { code := BitVec.ofNat 16 code, thread := n, pc := p, tval := v }
    let ready := (d.thr 0).state = .run ∨ ((d.thr 0).state = .wait ∧
      ((∃ a b g u, (d.thr 0).wait = some (.waitt a b g u)) ∨ ∃ a u, (d.thr 0).wait = some (.fence a u)))
    let taken := fun (x : Trap) =>
      e.seq.trapMode = true ∧ e.seq.tcause = x.code.setWidth 64 ∧ e.seq.tthr = BitVec.ofNat 64 x.thread ∧
      e.seq.tpc = x.pc ∧ e.seq.tval = x.tval ∧ e.seq.tret = (d.thr 0).pc ∧ (e.thr 0).pc = pcOf q.tvec ∧ (e.thr 0).state = .run ∧
      (e.thr 0).wait = none
    SameBut [.seq, .evt] d e ∧ e.seq.last = rec_ ∧ e.seq.tvec = q.tvec ∧ (e.thr m).regs = (d.thr m).regs ∧
    (e.thr m).slots = (d.thr m).slots ∧
    (n ≠ 0 → (e.thr n).state = .trapped ∧ (e.thr n).pc = p ∧
      e.evt = (d.postSrc code p.toNat n (0x80 + n)).evt ∧
      (q.tvec = 0 → e.seq.queue = q.queue ∧ e.seq.trapMode = q.trapMode) ∧
      (q.tvec ≠ 0 → (¬ ready ∨ q.trapMode = true) → e.seq.queue = q.queue ++ [rec_] ∧ e.seq.trapMode = q.trapMode) ∧
      (q.tvec ≠ 0 → ready → q.trapMode = false → ∃ x r, q.queue ++ [rec_] = x :: r ∧ e.seq.queue = r ∧ taken x)) ∧
    (n = 0 → q.trapMode = false → q.tvec ≠ 0 → taken rec_ ∧ e.seq.queue = q.queue) ∧
    (n = 0 → q.trapMode = false → q.tvec = 0 → (e.thr 0).state = .trapped ∧ (e.thr 0).pc = p ∧ e.seq.queue = q.queue) ∧
    (n = 0 → q.trapMode = true → (e.thr 0).state = .trapped ∧ (e.thr 0).pc = p ∧ e.seq.double = true ∧
      e.evt = ((d.postSrc code p.toNat 0 0x80).postSrc 0x0909 p.toNat 0 0x80).evt)

/-- The traps of R269, R262, R264 and R271, by the priority of R285. -/
def Obligations.IssueTraps : Prop :=
  ∀ (i : Issue) (w : BitVec 32) (d a b : BitVec 5) (off : BitVec 16) (rd : ReadOutcome) (s : State), Up s →
    let n := i.thread
    let e := s.dev.updThr n Thread.applyWin
    let g := fetched s.dev i
    let p := (s.dev.thr n).pc
    let runs := n ≤ 64 ∧ (s.dev.thr n).state = .run
    (legalWord w.toNat = false → runs → p.toNat < 0x400000 → (fetchOf s.dev i).2 = none →
      (g.wordAt p.toNat = none ∨ g.wordAt p.toNat = some w.toNat) →
      exec (.illegalOpcode i w) s = .next { s with dev := g.trap n 0x0902 (BitVec.ofNat 64 w.toNat) }) ∧
    (legalWord (wordI 0x0A d 1 off.toNat) = false ∧ legalWord (wordA 0 0x40 d a b) = false ∧
      legalWord (wordI 0x13 d a off.toNat) = false ∧ legalWord (wordV 0 d a b) = false ∧ legalWord (wordA 0 0 d a b) = true) ∧
    (runs → e.mayFetch n p.toNat = false → (p.toNat < 0x400000 → (fetchOf s.dev i).2 = none) →
      let f := if p.toNat < 0x400000 then g else e
      exec (.add i d a b) s = .next { s with dev := f.trap n 0x0903 p } ∧
      exec (.ld i d a off rd) s = .next { s with dev := f.trap n 0x0903 p } ∧
      exec (.dma i d a b) s = .next { s with dev := f.trap n 0x0903 p }) ∧
    (runs → p.toNat < 0x400000 → ∀ y x, (fetchOf s.dev i).2 = some (y, x) →
      let traps := fun (f : Dev) => exec (.add i d a b) s = .next { s with dev := f.trap n 0x0901 p } ∧
        exec (.illegalOpcode i (BitVec.ofNat 32 (wordI 0x13 d a off.toNat))) s = .next { s with dev := f.trap n 0x0901 p }
      (x = .ue ∨ x = .fold → traps (g.logUe 15 x.kind y)) ∧
      (x = .carry ∨ x = .moved → traps ({ g with ime := { g.ime with ccSeq := sat1 g.ime.ccSeq } }.postSrc 0x0423 n 0 1)) ∧
      (x = .abort → traps g)) ∧
    (Ready s.dev i (wordI 0x10 d a off.toNat) →
      let x := (s.dev.thr n).reg a + BitVec.ofInt 64 off.toInt
      (e.mayLoad n x.toNat 8 = false →
        exec (.ld i d a off rd) s = .next { s with dev := (fetched s.dev i).trap n 0x0903 x }) ∧
      (e.mayLoad n x.toNat 8 = true → x.toNat % 8 ≠ 0 →
        exec (.ld i d a off rd) s = .next { s with dev := (fetched s.dev i).trap n 0x0905 x }))

/-- SEQ_THR_n and SEQ_WIN_n (R258, R263, R286, R288, R293), and the sequencer memory window (R261). -/
def Obligations.ThreadCommands : Prop :=
  ∀ (m : Master) (n off : Nat) (pc : BitVec 22) (v : Word) (l : List Byte) (rd : ReadOutcome) (s : State),
    Up s → s.dev.ime.sealed = false → (m = .pf0 ∨ m = .thread 0) → n ≤ 64 →
    let t := s.dev.thr n
    let q := s.dev.seq
    (t.state ≠ .run → t.state ≠ .wait → pc.toNat % 4 = 0 → Answers (.threadStart m n pc) s fun u =>
      Only [.seq] s u ∧ u.dev.thr n = { t with state := .run, wait := none, pc := pc.setWidth 64 } ∧
      (∀ k, k ≠ n → u.dev.thr k = s.dev.thr k) ∧
      (n ≠ 0 → u.dev.seq.queue = q.queue.filter (fun x => x.thread ≠ n) ∧ u.dev.seq.trapMode = q.trapMode) ∧
      (n = 0 → u.dev.seq.queue = [] ∧ u.dev.seq.trapMode = false)) ∧
    ((t.state = .trapped ∨ t.state = .suspended) → Answers (.threadResume m n) s fun u =>
      ∃ e, u = { s with dev := if n = 0 then e.deliver else e } ∧ SameBut [.seq] s.dev e ∧
      e.thr n = { t with state := .run, wait := none } ∧ (∀ k, k ≠ n → e.thr k = s.dev.thr k) ∧
      e.seq.queue = q.queue.filter (fun x => x.thread ≠ n) ∧ e.seq.trapMode = q.trapMode) ∧
    (t.state ≠ .idle → t.state ≠ .held → exec (.threadStop m n) s = .next { s with dev := s.dev.updThr n fun t =>
      { t with state := .idle, wait := none } }) ∧
    (let base := v.toNat % 2 ^ 10
     let size := v.toNat / 2 ^ 16 % 2 ^ 11
     let code := v.toNat / 2 ^ 32 % 2 ^ 11
     (n ≠ 0 → base + size ≤ 1024 → code ≤ size → exec (.seqWinWrite m n v) s = .next { s with dev := s.dev.updThr n fun t =>
       { t with winNext := some (BitVec.ofNat 64 (base + size * 2 ^ 16 + code * 2 ^ 32)) } }) ∧
     ((n = 0 ∨ 1024 < base + size ∨ size < code) → exec (.seqWinWrite m n v) s = .next s)) ∧
    (off + l.length ≤ 0x400000 → (∃ e, s.dev.seqWindowStore off l rd = (e, none)) →
      (∀ w ∈ partialWords off l.length, (s.dev.absorb rd (seqAddr off) l.length).wrongData (seqAddr (8 * w)) 8 = false) →
      Answers (.seqMemoryHostWrite off l rd) s fun u => Only [.mem, .evt] s u ∧
        (∀ j < l.length, cget u.dev.mem.cells (seqAddr off + j) = l[j]?) ∧
        (∀ z, z < seqAddr off ∨ seqAddr off + l.length ≤ z → cget u.dev.mem.cells z = cget s.dev.mem.cells z)) ∧
    (off + l.length ≤ 0x400000 → Intact s.dev → rd = .clean →
      ∃ e, s.dev.seqWindowStore off l rd = (e, none)) ∧
    (off + l.length ≤ 0x400000 → ∀ e y, s.dev.seqWindowStore off l rd = (e, some (y, .ue)) →
      Does (.seqMemoryHostWrite off l rd) s (e.postSrc 0x0315 (addrDetail y) 0 1) ∧ e.mem.cells = s.dev.mem.cells)

/-- R76, R591, R603, R55 step 1. -/
def Obligations.PowerAndPins : Prop :=
  ∀ (g : RailGroup) (kn : Bool) (straps : BitVec 4) (b c volts : Nat) (s : State),
    let d := s.dev
    let cold := fun (i : Instr) (rst : Rst) => Answers i s fun t => t.fuse = s.fuse ∧ t.die = s.die ∧ t.pending = s.pending ∧
      t.dev.rst = rst ∧ t.dev.parts = [] ∧ t.dev.ops = [] ∧ t.dev.seq = {} ∧ t.dev.evt.mask = 0 ∧
      ((∀ w ∈ t.dev.repairs, repairKind w.2 = 6 → bits w.2 22 4 ≠ 0) → t.dev.evt.pf = {}) ∧
      t.dev.ime.sealed = false ∧ t.dev.pcie.linkUp = false ∧ t.dev.boot.phase = .selftest ∧ t.dev.boot.started = false ∧
      t.dev.boot.locked = false ∧ t.dev.boot.straps = d.boot.straps ∧
      (d.keep.persisting = [] → t.dev.keep = { regs := d.keep.regs })
    let starts := fun (i : Instr) (rst : Rst) => Makes i s [.rst, .boot, .ring, .evt] fun e => e.rst = rst ∧
      (rst.perst = true ∨ rst.railLow ≠ [] ∨ d.boot.started = true → SameBut [.rst] d e) ∧
      (rst.perst = false ∧ rst.railLow = [] ∧ d.boot.started = false →
        e.boot = { d.boot with straps := straps, phase := .selftest, started := true } ∧
        e.ring = { d.ring with bypassed := false } ∧ e.evt = (d.post 0x0A21 1).evt)
    (monitored g = true → ¬ g ∈ d.rst.railLow →
      cold (.powerRailUndervoltage g kn) { perst := d.rst.perst, railLow := g :: d.rst.railLow }) ∧
    (monitored g = false ∨ g ∈ d.rst.railLow → exec (.powerRailUndervoltage g kn) s = .next s) ∧
    (d.rst.perst = false → cold .perstAssert { perst := true, railLow := d.rst.railLow }) ∧
    (d.rst.perst = true → exec .perstAssert s = .next s) ∧
    starts (.perstRelease straps) { d.rst with perst := false } ∧
    starts (.powerRailRestored g straps) { d.rst with railLow := d.rst.railLow.filter fun y => decide (y ≠ g) } ∧
    (b < 18 → Makes (.vccioUndervoltage b) s [.fab] fun e => b ∈ e.fab.vccioLow ∧
      (∀ x, x ≠ b → (x ∈ e.fab.vccioLow ↔ x ∈ d.fab.vccioLow)) ∧ ∀ pin, pin / 48 = b → e.padOut pin = .hiz) ∧
    (b < 18 → Makes (.vccioRestored b volts) s [.fab] fun e => ¬ b ∈ e.fab.vccioLow ∧
      (∀ x, x ≠ b → (x ∈ e.fab.vccioLow ↔ x ∈ d.fab.vccioLow)) ∧ tget e.fab.vccio b 3 = volts % 4) ∧
    (Out s → c < 8 → d.feat 14 = true → (d.chan c).state ≠ .off → (d.chan c).state ≠ .failed →
      Makes (.vddqUndervoltage c) s [.mem, .evt] fun e =>
        e.chan c = { d.chan c with state := .failed, mapped := false, restoring := false, pause := false } ∧
        (∀ k, k ≠ c → e.chan k = d.chan k) ∧ e.evt = (d.postSrc 0x0341 (c + 256) 0 (5 + c)).evt)

/-- R71, R72, R75. -/
def Obligations.KeepRegisterWrites : Prop :=
  ∀ (m : Master) (i : Nat) (v : BitVec 32) (bad : Bool) (s : State), Allowed m s → i < 512 →
    let d := s.dev
    let k := d.keepReg i
    (k.value = v → exec (.keepWrite m i v) s = .next s) ∧
    (k.value ≠ v → k.wcount < 100000 → Makes (.keepWrite m i v) s [.keep, .evt, .fab, .mem, .noc, .rel] fun e =>
      e.keepReg i = { k with value := v, wcount := k.wcount + 1 } ∧ (∀ j, j ≠ i → e.keepReg j = d.keepReg j) ∧
      (∃ f : Dev, SameBut [.keep, .evt] d f ∧ f.evt = (if k.wcount + 1 = 90000 then (d.post 0x0A31 i).evt else d.evt) ∧
        e = f.repairChanged i k.value.toNat ∧ (256 ≤ i → e = f))) ∧
    (k.value ≠ v → 100000 ≤ k.wcount → Makes (.keepWrite m i v) s [.keep, .evt] fun e =>
      e.keepReg i = { k with worn := true } ∧ (∀ j, j ≠ i → e.keepReg j = d.keepReg j) ∧ e.evt = (d.post 0x0A30 i).evt) ∧
    (Makes (.keepPersisted i) s [.keep] fun e => e.keep.regs = d.keep.regs ∧ e.keep.readErr = d.keep.readErr ∧
      e.keep.persisting = d.keep.persisting.filter fun x => decide (x.1 ≠ i)) ∧
    (Makes (.keepRead .pf0 i bad) s [.keep, .pcie, .evt] fun e => e.keep.regs = d.keep.regs ∧
      e.keep.readErr = (d.keep.readErr || bad) ∧ e.evt = (if bad then (d.post 0x0A32 i).evt else d.evt) ∧
      e.pcie = { d.pcie with cpl := some (.data (leBytes 8
        ((if bad then 0 else k.value.toNat) + k.wcount % 2 ^ 17 * 2 ^ 32 + if k.worn then 2 ^ 49 else 0))) }) ∧
    (∀ q : Master, q ≠ .pf0 → (∀ n, q ≠ .vf n) → Does (.keepRead q i bad) s (d.keepRead i bad).1)

/-- R76 to R78, R82, R90, R91. -/
def Obligations.ResetRequests : Prop :=
  ∀ (m : Master) (key : BitVec 8) (p : Nat) (s : State), Out s → (m = .pf0 ∨ m = .thread 0) →
    let d := s.dev
    let fresh := fun (e : Dev) => e.parts = [] ∧ e.ops = [] ∧ e.seq = {} ∧ e.icp = [] ∧ e.boot.locked = false ∧
      e.ime.sealed = false ∧ e.keep.regs = d.keep.regs ∧ e.rst.svc = none ∧ e.rst.parts = [] ∧ e.rst.held = []
    (key ≠ 0xA5 → exec (.rstCold m key) s = .next s ∧ exec (.rstWarm m key) s = .next s ∧
      exec (.rstService m key) s = .next s ∧ exec (.rstPartition m key p) s = .next s) ∧
    (Answers (.rstCold m 0xA5) s fun t => t.fuse = s.fuse ∧ t.die = s.die ∧ t.pending = s.pending ∧ fresh t.dev ∧
      t.dev.boot.phase = .selftest ∧ t.dev.boot.started = true ∧
      ((∀ w ∈ d.repairs, repairKind w.2 = 6 → bits w.2 22 4 ≠ 0) → t.dev.evt.pf = (({} : Dev).post 0x0A21 1).evt.pf) ∧
      t.dev.pcie.linkUp = false ∧ t.dev.rst.last = 1 ∧ t.dev.ring.bypassed = false) ∧
    (d.ime.sealed = true →
      Does (.rstWarm m 0xA5) s (d.post 0x0A23 2) ∧ Does (.rstService m 0xA5) s (d.post 0x0A23 3) ∧
      Does (.rstPartition m 0xA5 p) s (d.post 0x0A23 4 p)) ∧
    (d.ime.sealed = false → d.boot.phase ≠ .selftest →
      Answers (.rstWarm m 0xA5) s fun t => t.fuse = s.fuse ∧ t.die = s.die ∧ t.pending = s.pending ∧ fresh t.dev ∧
        t.dev.rst.last = 2 ∧ t.dev.boot.phase = .waitImage ∧ t.dev.boot.deadlineOn = true ∧ t.dev.thm = d.thm ∧
        t.dev.mtr = d.mtr ∧ t.dev.pcie.linkUp = d.pcie.linkUp ∧ t.dev.pcie.vfMse = d.pcie.vfMse ∧
        t.dev.pcie.bars = d.pcie.bars ∧ t.dev.pcie.aerOf 0 = d.pcie.aerOf 0 ∧ t.dev.pcie.vfEnable = false ∧
        t.dev.clk.scyc = d.clk.scyc ∧ t.dev.clk.target = d.clk.target ∧ t.dev.fab.vlCount = d.fab.vlCount ∧
        t.dev.mem.maxNs = d.mem.maxNs ∧ t.dev.start.starts = d.start.starts ∧ t.dev.plc.promoted = d.plc.promoted ∧
        t.dev.rel.pCorrected = d.rel.pCorrected ∧ t.dev.ime.reenc = d.ime.reenc ∧
        t.dev.evt.time = d.evt.time ∧ t.dev.evt.mask = d.evt.mask ∧ t.dev.evt.vf = []) ∧
    (d.ime.sealed = false → 1 ≤ p → p ≤ 64 → d.rst.svc = none → (∀ r ∈ d.rst.parts, r.part ≠ p) →
      (d.part p).state ≠ .none →
      Makes (.rstPartition m 0xA5 p) s [.pcie, .rst, .evt, .seq, .ops, .fab, .plc, .parts, .pins, .mem, .noc] fun e =>
        e.rst = { d.rst with parts := d.rst.parts ++ [{ part := p, flr := false,
                                                        waiting := decide ((d.part p).state = .running) }] } ∧
        (∀ g ∈ e.plc.migs, g.part = p → g.moves = []) ∧
        ((∀ g ∈ d.plc.migs, g.part ≠ p) → d.migrSearch p = none →
          SameBut [.rst, .evt, .fab, .parts, .pins, .noc] d e ∧ e.evt = (d.post 0x0A20 4 p).evt) ∧
        ((d.part p).state = .running → e.part p = { d.part p with freeze := (d.part p).freeze ++ [.partition] }) ∧
        ((d.part p).state ≠ .running → (e.part p).state = .draining ∧ (e.part p).drainTo = 1 ∧ (e.part p).safe = true ∧
          DrainFn.dma p ∈ e.noc.draining)) ∧
    (d.ime.sealed = false → 1 ≤ p → p ≤ 64 → d.pcie.vfEnable = true → d.pcie.linkUp = true → (d.part p).state = .none →
      Makes (.vfFlr p) s [.pcie, .evt] fun e => e.evt.pf = (d.post 0x0A42 p p).evt.pf ∧ ¬ p ∈ e.pcie.busMaster) ∧
    (d.ime.sealed = false → 1 ≤ p → p ≤ 64 → d.pcie.vfEnable = true → d.pcie.linkUp = true → d.rst.svc = none →
      (∀ r ∈ d.rst.parts, r.part ≠ p) → (d.part p).state ≠ .none →
      Makes (.vfFlr p) s [.pcie, .rst, .evt, .seq, .ops, .fab, .plc, .parts, .pins, .mem, .noc] fun e =>
        DrainFn.vf p ∈ e.noc.draining ∧ ¬ p ∈ e.pcie.busMaster ∧
        e.rst.parts = d.rst.parts ++ [{ part := p, flr := true, waiting := decide ((d.part p).state = .running) }] ∧
        ((∀ g ∈ d.plc.migs, g.part ≠ p) → d.migrSearch p = none →
          e.evt.pf = ((d.post 0x0A42 p p).post 0x0A20 5 p).evt.pf)) ∧
    (d.ime.sealed = true → 1 ≤ p → p ≤ 64 → d.pcie.vfEnable = true → d.pcie.linkUp = true →
      Makes (.vfFlr p) s [.pcie, .evt] fun e => e.evt.pf = ((d.post 0x0A42 p p).post 0x0A23 5 p).evt.pf)

/-- R78, R79, R359, R456, R463, R471. -/
def Obligations.ServiceReset : Prop :=
  (∀ (m : Master) (s : State), Out s → (m = .pf0 ∨ m = .thread 0) → s.dev.ime.sealed = false →
    let d := s.dev
    (d.rst.svc = none → d.boot.phase ≠ .selftest →
      Makes (.rstService m 0xA5) s [.pcie, .rst, .evt, .seq, .ops, .fab, .plc, .parts, .mem, .noc] fun e =>
        e.rst = { d.rst with svc := some .waiting, parts := d.rst.parts.map fun r => { r with suspended := true } } ∧
        (∀ p, 1 ≤ p → p ≤ 64 → (d.part p).state = .running → Freeze.service ∈ (e.part p).freeze) ∧
        (d.seq.swap = 0 → d.plc.migs = [] → d.plc.search = none → SameBut [.rst, .evt, .parts] d e ∧ e.evt = (d.post 0x0A20 3).evt ∧
          ∀ p, (d.part p).state ≠ .running → e.part p = d.part p)) ∧
    (d.rst.svc ≠ none → exec (.rstService m 0xA5) s = .next s)) ∧
  (∀ (n : Nat) (s : State), Out s →
    let d := s.dev
    (d.rst.svc = some .waiting →
      Makes .serviceBoundaryWaitExpiry s [.pcie, .rst, .evt, .seq, .ops, .fab, .parts, .pins, .mem, .noc] fun e =>
        e.rst.svc = some .fenced ∧ ∀ p, 1 ≤ p → p ≤ 64 → (e.part p).state ≠ .running ∧ (e.part p).cycle = (d.part p).cycle ∧
          ((d.part p).state = .running → (e.part p).eng.running = false ∧ (e.part p).freeze = []) ∧
          ((d.part p).state ≠ .running → (e.part p).state = (d.part p).state)) ∧
    (d.rst.svc ≠ some .waiting → exec .serviceBoundaryWaitExpiry s = .next s) ∧
    (d.rst.svc = some .fenced → (∀ o ∈ d.ops, o.phase ≠ .queued) →
      Makes (.serviceInflightTimeout n) s [.pcie, .rst, .evt, .seq, .ops, .icp, .fab, .plc, .parts, .mem, .ime, .noc, .ring] fun e =>
        e.rst = { d.rst with svc := some .quiet } ∧ e.ime.lagging = [] ∧ e.ime.mcDirty = [] ∧ e.mem.selfRefresh = true ∧ e.ring.bypassed = true ∧
        ((∀ o ∈ d.ops, o.dop ≠ 0x13) → e.mem.cells = d.mem.cells) ∧ e.pcie.dmaHalt =
          0 :: ((List.range 65).filter fun p => decide (1 ≤ p ∧ (d.part p).state ≠ .none)) ∧
        (∀ k < 4, (e.tower k).state = (if (d.tower k).state = .active then .selfRefresh else (d.tower k).state) ∧
          (e.rport k).state = .bypass ∧ (e.rport k).retry = [] ∧ (e.nk k).tx = none) ∧
        (∀ k < 8, (e.chan k).state = if (d.chan k).state = .active then .selfRefresh else (d.chan k).state)) ∧
    (d.rst.svc = some .quiet → Makes .serviceSelfRefreshEntered s [.rst, .parts, .mem, .ime, .noc] fun e =>
      e.ime = { d.ime with ccLines := [], mcLines := [] } ∧
      e.rst = { d.rst with svc := some .retraining } ∧ e.noc.pri = [] ∧ e.noc.cfg = [] ∧ e.noc.stats = [] ∧
      e.noc.quantum = 0x20 ∧ e.noc.drainUs = 0x3E8 ∧ e.mem.cells = d.mem.cells ∧
      (∀ k < 37, (e.stop k).forced = false ∧ (e.stop k).aborted = 0 ∧
        ((d.stop k).state = .off → (e.stop k).state = .off) ∧ ((d.stop k).state = .on → (e.stop k).state = .on) ∧
        ((d.stop k).state = .draining ∨ (d.stop k).state = .drained ∨ (d.stop k).state = .fenced →
          (e.stop k).state = .fenced)) ∧
      (∀ p, 1 ≤ p → p ≤ 64 → (e.part p).trace.state = 0) ∧
      (∀ k < 4, (e.tower k).state = if (d.tower k).state = .selfRefresh then .training else (d.tower k).state)) ∧
    (d.rst.svc ≠ some .quiet → exec .serviceSelfRefreshEntered s = .next s) ∧
    (d.rst.svc = some .retraining → d.clk.ref = .good → d.rst.parts = [] → d.rst.held = [] → d.noc.late = [] →
      (∀ o ∈ d.ops, o.phase ≠ .held) → (∀ p, (d.part p).load = none) →
      Makes .serviceResetDone s [.rst, .mem, .ime, .ring, .evt] fun e =>
        e.rst = { d.rst with svc := none, last := 3 } ∧ e.mem.selfRefresh = false ∧ e.ring.bypassed = false ∧
        (∀ k < 4, (e.tower k).state = if (d.tower k).state = .training then .active else (d.tower k).state) ∧
        (∀ k < 8, (e.chan k).state = if (d.chan k).state = .training then .active else (d.chan k).state) ∧
        e.evt = (d.post 0x0A21 3).evt) ∧
    (d.rst.svc ≠ some .retraining → exec .serviceResetDone s = .next s))

/-- R82. -/
def Obligations.PartitionReset : Prop :=
  ∀ (p : Nat) (r : PartReset) (s : State), Out s → 1 ≤ p → p ≤ 64 →
    let d := s.dev
    d.rst.parts.find? (fun r => decide (r.part = p)) = some r → r.suspended = false →
    (r.waiting = true → (d.part p).state = .running →
      Makes (.partitionResetWaitExpiry p) s [.pcie, .rst, .evt, .seq, .ops, .fab, .parts, .pins, .mem, .noc] fun e =>
        (e.part p).state = .draining ∧ (e.part p).drainTo = 1 ∧ (e.part p).cycle = (d.part p).cycle ∧
        (e.part p).eng.running = false ∧ (e.part p).safe = true ∧ (e.part p).freeze = [] ∧ DrainFn.dma p ∈ e.noc.draining ∧
        (∀ x ∈ e.rst.parts, x.part = p → x.waiting = false) ∧ ∀ k, k ≠ p → e.part k = d.part k) ∧
    (r.waiting = false → d.partDrains p = false →
      Makes (.partitionResetDone p) s [.pcie, .rst, .evt, .seq, .ops, .fab, .plc, .parts, .pins, .mem, .noc, .ring] fun e =>
        (e.part p).state = .blank ∧ (e.part p).placement = (d.part p).placement ∧ (e.part p).keys = (d.part p).keys ∧
        (e.part p).marl = (d.part p).marl ∧ (e.part p).plots = (d.part p).plots ∧ (e.part p).load = none ∧
        (e.part p).grant = none ∧ (e.part p).snaps = [] ∧ (e.part p).sel = (d.part p).sel ∧ (e.part p).jUsed = 0 ∧
        (e.part p).safe = true ∧ (e.part p).eng = {} ∧ (e.thr p).state = .held ∧ (e.thr p).regs = [] ∧ (e.thr p).pc = 0 ∧
        (∀ o ∈ e.ops, o.part ≠ p ∧ o.thread ≠ p) ∧ (∀ x ∈ e.seq.queue, x.thread ≠ p) ∧
        e.rst.last = (if r.flr then 5 else 4) ∧ (∀ x ∈ e.rst.parts, x.part ≠ p) ∧ (∀ k, k ≠ p → e.part k = d.part k)) ∧
    ((r.waiting = true ∨ d.partDrains p = true) → exec (.partitionResetDone p) s = .next s)

/-- R54 to R58, R63, R603. -/
def Obligations.BootSequence : Prop :=
  ∀ (m : Master) (u : BitVec 16) (us : BitVec 32) (off : Nat) (l : List Byte) (len : BitVec 24) (s : State), Out s →
    let d := s.dev
    let b := d.boot
    (b.started = true → Does .pcieLinkUp s { d with pcie := { d.pcie with linkUp := true } }) ∧
    (Up s → b.phase = .selftest → b.started = true →
      (b.straps.getLsbD 3 = false → Makes (.selftestDone none us) s [.boot, .pcie, .evt] fun e =>
        e.boot = { b with phase := .waitImage, deadlineOn := true, deadlinePast := false } ∧
        e.pcie = { d.pcie with crs := false } ∧ e.evt = (d.post 0x0A01 us.toNat).evt) ∧
      (b.straps.getLsbD 3 = false → 0x100 ≤ u.toNat → u.toNat ≤ 0x106 →
        Makes (.selftestDone (some u) us) s [.boot, .pcie, .evt] fun e => e.boot = { b with phase := .failed, err := u } ∧
          e.pcie = { d.pcie with crs := false } ∧ e.evt = (d.post 0x0A02 u.toNat).evt) ∧
      (b.straps.getLsbD 3 = true → Makes (.selftestDone none us) s [.boot, .pcie, .evt] fun e =>
        e.boot = { b with phase := .failed, err := 0x103 } ∧ e.evt = (d.post 0x0A02 0x103).evt)) ∧
    ((b.phase = .waitImage ∨ b.phase = .lowpwr) → off + l.length ≤ 0x800000 → Makes (.bar2Write off l) s [.boot] fun e =>
      e.boot = { b with bar2 := e.boot.bar2 } ∧ (∀ j < l.length, some (zget e.boot.bar2 (off + j)) = l[j]?) ∧
      ∀ a, a < off ∨ off + l.length ≤ a → zget e.boot.bar2 a = zget b.bar2 a) ∧
    (b.phase ≠ .waitImage → b.phase ≠ .lowpwr → exec (.bar2Write off l) s = .next s) ∧
    (Allowed m s → (b.phase = .waitImage ∨ b.phase = .lowpwr) →
      Does (.bootGo m len) s { d with boot := { b with
        length := len, phase := .verify, fromLowPwr := decide (b.phase = .lowpwr),
        pllsStopped := b.pllsStopped && decide (b.phase = .waitImage) } }) ∧
    (Up s → b.phase = .verify → s.fuse.checkFirmware d.image b.length.toNat = none →
      Does .firmwareVerifyDone s { d with boot := { b with phase := .loading } }) ∧
    (Up s → b.phase = .verify → ∀ f, s.fuse.checkFirmware d.image b.length.toNat = some f →
      Makes .firmwareVerifyDone s [.boot, .evt] fun e => e.boot.err = BitVec.ofNat 16 f.1 ∧ e.boot.bar2 = [] ∧
        (b.fromLowPwr = false → b.deadlinePast = false → e.boot.phase = .waitImage ∧ e.evt = (d.post f.1 f.2).evt) ∧
        (b.fromLowPwr = true → e.boot.phase = .lowpwr ∧ e.boot.pllsStopped = true ∧ e.evt = (d.post f.1 f.2).evt) ∧
        (b.fromLowPwr = false → b.deadlinePast = true → e.boot.phase = .lowpwr ∧
          e.evt = ((d.post f.1 f.2).post 0x0A09 0).evt)) ∧
    (Up s → b.phase = .loading → Makes .firmwareLoaded s [.boot, .evt, .seq, .mem, .thm] fun e => e.boot.phase = .running ∧
      e.boot.bar2 = [] ∧ e.boot.deadlineOn = false ∧ e.boot.fwVersion = fwVersion d.image ∧
      (e.thr 0).state = .run ∧ (e.thr 0).pc = BitVec.ofNat 64 (fwEntry d.image) ∧ ∀ n, n ≠ 0 → e.thr n = d.thr n) ∧
    (b.deadlineOn = true → b.timeout ≠ 0 → Makes .downloadDeadlineExpiry s [.boot, .evt] fun e =>
      e.boot.deadlineOn = false ∧
      (b.phase = .waitImage → e.boot.phase = .lowpwr ∧ e.boot.pllsStopped = true ∧ e.evt = (d.post 0x0A09 0).evt) ∧
      (b.phase = .verify ∨ b.phase = .loading → e.boot.phase = b.phase ∧ e.boot.deadlinePast = true ∧ e.evt = d.evt)) ∧
    (b.deadlineOn = false → exec .downloadDeadlineExpiry s = .next s)

/-- R64 to R69. -/
def Obligations.CountersAndReports : Prop :=
  ∀ (m : Master) (v : BitVec 7) (s : State), Out s →
    let d := s.dev
    let b := d.boot
    let soon := b.attestLast.any fun t => decide ((d.evt.time - t).toNat < 25000000)
    let rej := rejectOf s.fuse.offer0 s.fuse.offer1 b.drv0 b.drv1
    (Allowed m s → s.fuse.svnFused < v.toNat → v.toNat ≤ b.svnImage → b.svnTarget = none →
      Does (.svnCommit m v) s { d with boot := { b with svnTarget := some v.toNat } }) ∧
    (Allowed m s → (v.toNat ≤ s.fuse.svnFused ∨ b.svnImage < v.toNat ∨ b.svnTarget ≠ none) →
      Does (.svnCommit m v) s (d.post 0x0A0C v.toNat)) ∧
    (∀ w, b.svnTarget = some w → exec .svnFuseDone s = .next { s with
      dev := { d with boot := { b with svnTarget := none } }, fuse := { s.fuse with svnFused := max s.fuse.svnFused w } }) ∧
    (Allowed m s → b.phase = .running → soon = false → Does (.attestReq m) s { d with boot := { b with
      attestDone := false, attestPending := true, attestLast := some d.evt.time } }) ∧
    (Allowed m s → (b.phase ≠ .running ∨ soon = true) → exec (.attestReq m) s = .next s) ∧
    (Up s → b.attestPending = true → Makes .attestDone s [.boot, .evt] fun e => e.boot.attestDone = true ∧
      e.boot.attestPending = false ∧ e.boot.phase = b.phase ∧ zgetBytes e.boot.bar2 0 4 = leBytes 4 0x54415A56) ∧
    (b.attestPending = false → exec .attestDone s = .next s) ∧
    (Allowed m s → b.phase = .running → b.locked = false →
      (∀ k dep, rej = some (k, dep) → Does (.featuresOk m) s
        ({ d with boot := { b with rejected := true, rejectBit := BitVec.ofNat 8 k, rejectCause := dep } }.post 0x0A0A
          (k + if dep then 256 else 0))) ∧
      (rej = none → Makes (.featuresOk m) s [.boot, .evt, .ime, .ring] fun e =>
        e.boot = { b with locked := true, rejected := false } ∧ e.evt.pf = (d.post 0x0A0B 0).evt.pf ∧
        (b.drv0.getLsbD 5 = false → e.ring = d.ring ∧ e.ime = d.ime))) ∧
    (Allowed m s → (b.phase ≠ .running ∨ b.locked = true) → exec (.featuresOk m) s = .next s) ∧
    (rej = none ↔ ∀ k < 128, (if k < 64 then b.drv0.getLsbD k else b.drv1.getLsbD (k - 64)) = true →
      (if k < 64 then s.fuse.offer0.getLsbD k else s.fuse.offer1.getLsbD (k - 64)) = true ∧
      (k = 4 → b.drv0.getLsbD 14 = true) ∧ (k = 6 → b.drv0.getLsbD 5 = true) ∧ (k = 15 → b.drv0.getLsbD 0 = true) ∧
      (k = 17 → b.drv0.getLsbD 14 = true))

/-- R47 to R55, R58, R426 to R428. -/
def Obligations.HostLinkCommands : Prop :=
  (∀ (cause : LinkDownCause) (r : SpdmReq) (stream sub : Nat) (rx set : Bool) (key : BitVec 256) (s : State), Out s →
    let d := s.dev
    let p := d.pcie
    (p.linkUp = true → d.feat 0 = true → Makes (.vfEnableWrite true) s [.pcie, .noc] fun e =>
      e.pcie = { p with vfEnable := true }) ∧
    ((p.linkUp = false ∨ d.feat 0 = false) → exec (.vfEnableWrite true) s = .next s) ∧
    (p.linkUp = true → p.vfEnable = true → Makes (.vfEnableWrite false) s [.pcie, .noc] fun e =>
      e.pcie = { p with vfEnable := false, busMaster := p.busMaster.filter (fun n => decide (n = 0)),
                           aer := p.aer.filter fun x => decide (x.1 = 0) } ∧
      ∀ n, 1 ≤ n → n ≤ 64 → (d.part n).state ≠ .none → DrainFn.dma n ∈ e.noc.draining ∧ DrainFn.vf n ∈ e.noc.draining) ∧
    (p.linkUp = true → Makes (.pcieLinkDown cause) s [.pcie, .evt, .seq, .ops, .mem, .noc] fun e =>
      e.pcie.linkUp = false ∧ e.pcie.vfEnable = false ∧ e.pcie.vfMse = false ∧ e.pcie.busMaster = [] ∧ e.pcie.session = 0 ∧
      e.pcie.aer = [] ∧ e.pcie.bars = [] ∧
      0 ∈ e.pcie.dmaHalt ∧ (∀ n, 1 ≤ n → n ≤ 64 → (d.part n).state ≠ .none → n ∈ e.pcie.dmaHalt) ∧
      ((∀ o ∈ d.ops, o.dop ≠ 0x0E) → SameBut [.pcie, .evt, .noc] d e ∧ e.evt = (match cause with
        | .refclk => d.post 0x0A12 0
        | .other l => d.post 0x0A40 l.toNat).evt)) ∧
    (d.doeOpen = true → Makes (.spdmRequest r) s [.pcie] fun e => e.pcie.ide = p.ide ∧ e.pcie.doe = some (match r with
      | .version => .version
      | .certificate => .certificate Config.deviceCert
      | .measurement => .measurement d.boot.imageDigest
      | .session => .session) ∧ e.pcie.session = p.session + if r = .session then 1 else 0) ∧
    (d.doeOpen = true → p.session ≠ 0 →
      Does .ideKmQuery s { d with pcie := { p with doe := some (.query (d.feat 1) (d.feat 2)) } } ∧
      (d.ideMay stream sub = true → Makes (.ideKmKeyProg stream sub rx set key) s [.pcie] fun e =>
        e.pcie.doe = some .keyOk ∧ e.pcie.ideSecure = p.ideSecure ∧
        { stream := stream, sub := sub, rx := rx, set := set, key := key, active := false } ∈ e.pcie.ide ∧
        ∀ x, x.named stream sub rx set = false → (x ∈ e.pcie.ide ↔ x ∈ p.ide)) ∧
      (d.ideMay stream sub = false → Does (.ideKmKeyProg stream sub rx set key) s
        { d with pcie := { p with doe := some .keyError } }) ∧
      ((∃ x ∈ p.ide, x.named stream sub rx set = true) → Makes (.ideKmKSetGo stream sub rx set) s [.pcie, .evt] fun e =>
        e.pcie.doe = some .setDone ∧ stream ∈ e.pcie.ideSecure ∧
        (∀ x ∈ e.pcie.ide, x.named stream sub rx set = true → x.active = true) ∧
        e.evt = if p.ideSecure.contains stream then d.evt else (d.post 0x0441 stream).evt) ∧
      (Makes (.ideKmKSetStop stream sub rx set) s [.pcie] fun e => e.pcie.doe = some .setDone ∧
        (∀ x ∈ e.pcie.ide, x.named stream sub rx set = true → x.active = false) ∧
        ((∀ x ∈ p.ide, x.stream = stream → x.named stream sub rx set = true) → ¬ stream ∈ e.pcie.ideSecure)))) ∧
  (∀ (fn n off : Nat) (v : Bool) (l : List Byte) (ok : Bool) (t : HostTlp) (vf : Bool) (x : BitVec 32) (y : Word) (s : State),
    Out s → s.dev.pcie.linkUp = true →
    let d := s.dev
    let p := d.pcie
    ((d.arb 0 0).quar = false →
      Does (.hostTlpReceived (.cfgRead fn) none ok .clean) s { d with pcie := { p with
        cpl := some (if d.fnUp fn then (if p.crs then .crs else .done) else .ur) } } ∧
      (d.fnUp fn = true → p.crs = false → Makes (.hostTlpReceived (.busMaster fn v) none ok .clean) s [.pcie] fun e =>
        e.pcie.cpl = some .done ∧ (fn ∈ e.pcie.busMaster ↔ v = true) ∧
        ∀ k, k ≠ fn → (k ∈ e.pcie.busMaster ↔ k ∈ p.busMaster)) ∧
      (p.crs = false → Does (.hostTlpReceived (.vfMse v) none ok .clean) s
        { d with pcie := { p with vfMse := v, cpl := some .done } }) ∧
      (d.fnUp fn = true → p.crs = false →
        Does (.hostTlpReceived (.aerRead fn) none ok .clean) s { d with pcie := { p with
          cpl := some (.data (leBytes 4 (p.aerOf fn).toNat)) } } ∧
        Makes (.hostTlpReceived (.aerClear fn x) none ok .clean) s [.pcie] fun e => e.pcie.cpl = some .done ∧
          e.pcie.aerOf fn = p.aerOf fn &&& ~~~x ∧ ∀ k, k ≠ fn → e.pcie.aerOf k = p.aerOf k) ∧
      (p.crs = false →
        (∀ k, barSize vf n = some k → Makes (.hostTlpReceived (.barWrite vf n y) none ok .clean) s [.pcie] fun e =>
          e.pcie.cpl = some .done ∧ (e.barValue vf n).toNat = (y.toNat / k * k + 4) % 2 ^ 64) ∧
        Does (.hostTlpReceived (.barRead vf n) none ok .clean) s { d with pcie := { p with
          cpl := some (.data (leBytes 8 (d.barValue vf n).toNat)) } }) ∧
      (l.length ≤ 512 → exec (.hostTlpReceived (.write 0 2 off l) none ok .clean) s = exec (.bar2Write off l) s) ∧
      Does (.hostTlpReceived (.read 0 0 8 8) none ok .clean) s
        { d with pcie := { p with cpl := some (.data (leBytes 8 (s.fuse.serial.toNat % 2 ^ 64))) } }) ∧
    (n ≤ 4 → (ok = false ∨ ¬ n ∈ p.ideSecure) →
      Makes (.hostTlpReceived t (some n) ok .clean) s [.pcie, .evt, .seq, .ops, .mem] fun e =>
        n ∈ e.pcie.ideInsecure ∧ ¬ n ∈ e.pcie.ideSecure ∧ (∀ x ∈ e.pcie.ide, x.stream ≠ n) ∧ e.pcie.cpl = p.cpl ∧
        ((∀ o ∈ d.ops, o.dop ≠ 0x0E) → e.seq = d.seq ∧ e.evt = ((d.post 0x0A41 (p.aerOf (tlpFn t) ||| BitVec.ofNat 32 (2 ^ 28)).toNat).post 0x0440 n).evt)) ∧
    (overLimit t = true → Does (.hostTlpReceived t none ok .clean) s (d.logAer (tlpFn t) (2 ^ 18))))

/-- R13, R91, R92, R140, R220, R293, R385, R420, R435, R466, R501, R524, R544, R565. -/
def Obligations.RegisterWrites : Prop :=
  ∀ (m : Master) (off size n p : Nat) (v : Word) (s : State), Out s →
    let d := s.dev
    let w := fun (off : Nat) (e : Dev) => Does (.registerWrite m off 8 v) s e
    ((size ≠ 8 ∨ off % 8 ≠ 0) → exec (.registerWrite m off size v) s = .next s) ∧
    (Allowed m s → d.rst.svc = none →
      (d.boot.locked = false → w 0x20 { d with boot := { d.boot with drv0 := v } }) ∧
      w 0x10010 { d with boot := { d.boot with timeout := v.setWidth 12 } } ∧
      w 0x20010 { d with rst := { d.rst with svcWait := v.setWidth 16 } } ∧
      w 0x100018 { d with seq := { d.seq with hotWait := v.setWidth 16 } } ∧
      w 0x200008 { d with fab := { d.fab with gateFree := v.getLsbD 0, gateFrozen := v.getLsbD 1 } } ∧
      w 0x300000 { d with plc := { d.plc with wTherm := (v >>> 8).setWidth 8, improve := v.setWidth 8 } } ∧
      w 0x400008 { d with mem := { d.mem with leakMs := (v >>> 32).setWidth 16, capacity := v.setWidth 16 } } ∧
      w 0x600010 { d with ime := { d.ime with rekeyS := (v >>> 32).setWidth 16, retireUs := v.setWidth 16 } } ∧
      w 0x700010 { d with noc := { d.noc with drainUs := v.setWidth 16 } } ∧
      w 0x800060 { d with ring := { d.ring with auto := v.getLsbD 16, periodMs := v.setWidth 16 } } ∧
      w 0x900008 { d with obs := { d.obs with en := v.getLsbD 0 } } ∧
      w 0xA00018 { d with thm := { d.thm with tripWait := v.setWidth 16 } } ∧
      w 0xB00058 { d with rel := { d.rel with hours := v.setWidth 8 } } ∧
      w 0x08 d ∧ w 0x40000 d ∧ w 0xC00000 d ∧ w 0x3FFFFF8 d) ∧
    (d.ime.sealed = true → (m = .pf0 ∨ m = .thread 0) → off ≠ 0x20000 → (off < 0x40000 ∨ 0x100000 ≤ off) →
      w off d) ∧
    (1 ≤ n → n ≤ 64 → d.ime.sealed = false → (d.thr n).state = .run → 0x100000 ≤ off → off % 8 = 0 → off ≠ 0x600008 →
      Does (.registerWrite (.thread n) off 8 v) s (d.trap n 0x0903 (BitVec.ofNat 64 (0x032000000000 + off)))) ∧
    ((m = .pf0 ∨ m = .thread 0) → Makes (.evtConsWrite m v) s [.evt] fun e =>
      e.evt = { d.evt with pf := { d.evt.pf with cons := v.toNat % 4096 } }) ∧
    (d.vfUp p = true → d.feat 15 = true → (d.part p).state ≠ .none → Makes (.vfEvtConsWrite p v) s [.evt] fun e =>
      e.evt.pf = d.evt.pf ∧ tget e.evt.vf p {} = { tget d.evt.vf p {} with cons := v.toNat % 256 } ∧
      ∀ k, k ≠ p → tget e.evt.vf k {} = tget d.evt.vf k {})

/-- R34 to R37, R45, R46. -/
def Obligations.Clocks : Prop :=
  ∀ (t : Nat) (n : Bool) (s : State), Out s →
    let d := s.dev
    let c := d.clk
    let act := c.pll c.active
    let idle : Pll := { freq := c.target, locked := false }
    (t = d.thm.wanted → t ≠ c.target → t ≠ act.freq → c.bothLost = false → c.stopped = false →
      Makes (.gclkTargetChange t) s [.clk] fun e => e.clk.target = t ∧ e.clk.switching = true ∧ e.clk.active = c.active ∧
        e.clk.pll c.active = act ∧ e.clk.pll (!c.active) = { freq := t, locked := false } ∧
        e.clk.divided = (c.divided || decide (t < c.output))) ∧
    (t ≠ d.thm.wanted → exec (.gclkTargetChange t) s = .next s) ∧
    (d.pllsRun = true → c.switching = true → Makes .sparePllLocked s [.clk] fun e => e.clk.active = !c.active ∧
      e.clk.switching = false ∧ e.clk.divided = false ∧ e.clk.target = c.target ∧
      e.clk.pll (!c.active) = { freq := c.target } ∧ e.clk.pll c.active = idle) ∧
    (d.pllsRun = true → c.switching = false → Makes .sparePllRelocked s [.clk] fun e => e.clk.active = c.active ∧
      e.clk.pll c.active = act ∧ e.clk.pll (!c.active) = { c.pll (!c.active) with locked := true }) ∧
    (d.pllsRun = true → (c.pll n).locked = true →
      (n ≠ c.active → Makes (.gpllLossOfLock n) s [.clk, .evt] fun e => e.clk.active = c.active ∧
        (e.clk.pll n).locked = false ∧ e.clk.stopped = c.stopped ∧
        e.evt = (d.post 0x0A14 ((if n then 1 else 0) + 2 ^ 9)).evt) ∧
      (n = c.active → (c.pll (!n)).locked = true → Makes (.gpllLossOfLock n) s [.clk, .evt] fun e =>
        e.clk.active = (!n) ∧ (e.clk.pll n).locked = false ∧ e.clk.stopped = c.stopped ∧
        e.evt = (d.post 0x0A14 (if n then 1 else 0)).evt) ∧
      (n = c.active → (c.pll (!n)).locked = false →
        Makes (.gpllLossOfLock n) s [.clk, .pcie, .evt, .rst, .seq, .ops, .fab, .parts, .pins, .mem, .noc] fun e =>
          e.clk.stopped = true ∧ e.clk.bothLost = true ∧ e.clk.switching = false ∧ e.clk.divided = false ∧
          ∀ p, 1 ≤ p → p ≤ 64 → (e.part p).state ≠ .running ∧ (e.part p).cycle = (d.part p).cycle)) ∧
    (c.bothLost = true → c.ref = .good → d.boot.pllsStopped = false → Makes (.gpllRestartLock n) s [.clk, .evt] fun e => e.clk.active = n ∧
      e.clk.stopped = false ∧ e.clk.bothLost = false ∧ e.clk.verify = true ∧ (e.clk.pll n) = { freq := c.target } ∧
      e.evt = (d.post 0x0A15 (if n then 1 else 0)).evt) ∧
    (c.bothLost = true → c.ref = .good → d.boot.pllsStopped = false → (∀ x, c.lastLoss = some x → 250000000 ≤ (d.evt.time - x).toNat) →
      Makes (.gpllRetryTimer n) s [.clk, .evt] fun e => e.clk = { c with lastLoss := some d.evt.time } ∧
        e.evt = (d.post 0x0A14 ((if n then 1 else 0) + 2 ^ 8)).evt) ∧
    (c.ref = .good → Makes .refclkLost s [.clk, .evt, .parts] fun e => e.clk = { c with ref := .holdover, monitor := true } ∧
      e.evt = (d.post 0x0A10 0).evt ∧ ∀ p, 1 ≤ p → p ≤ 64 →
        e.part p = { d.part p with
          resume := false, freeze := (d.part p).freeze ++ if (d.part p).state = .running then [.refclk] else [] }) ∧
    (c.ref = .holdover →
      (Makes .refclkFreezeTimeout s [.pcie, .rst, .evt, .seq, .ops, .fab, .parts, .pins, .mem, .ime, .noc, .ring] fun e =>
        e.mem.selfRefresh = true ∧ e.ring.bypassed = true ∧
        ∀ p, 1 ≤ p → p ≤ 64 → (e.part p).state ≠ .running ∧ (e.part p).cycle = (d.part p).cycle) ∧
      (Makes .holdoverEnd s [.clk] fun e => e.clk.ref = .stopped ∧ e.clk.stopped = true ∧ e.clk.g0 = idle ∧ e.clk.g1 = idle ∧
        e.clk.target = c.target ∧ e.clk.scyc = c.scyc)) ∧
    (c.ref ≠ .good → Makes .refclkRestored s [.clk, .evt, .mem, .ime, .ring] fun e => e.clk.ref = .good ∧
      e.clk.monitor = false ∧ e.evt = (d.post 0x0A11 0).evt ∧
      (c.stopped = true ∨ c.bothLost = true → e.clk.verify = true ∧ e.clk.stopped = false ∧ e.clk.g0 = { freq := c.target }) ∧
      (c.stopped = false → c.bothLost = false → e.clk.verify = c.verify ∧ e.clk.g0 = c.g0) ∧
      (d.mem.selfRefresh = true → d.svcCut = false → e.mem.selfRefresh = false ∧ e.ring.bypassed = false) ∧
      (d.mem.selfRefresh = false → e.mem = d.mem)) ∧
    (c.ref = .good → exec .refclkRestored s = .next s ∧ exec .holdoverEnd s = .next s)

/-- R38, R39, R45, R57, R85, R276, R479, R569; the length of the tick is log 19. -/
def Obligations.TimePasses : Prop :=
  ∀ (s : State), s.pending = [] →
    (s.dev.heldInReset = true → step s = .next s) ∧
    (Out s → ∃ t, step s = .next t ∧ Only [.evt, .clk, .ring, .parts, .noc] s t ∧
      t.dev.evt = { s.dev.evt with time := s.dev.evt.time + 5 } ∧
      (s.dev.sysClocked = true → t.dev.clk = { s.dev.clk with scyc := s.dev.clk.scyc + 16 } ∧
        t.dev.ring = { s.dev.ring with time := s.dev.ring.time + 20 } ∧ t.dev.noc.cycle = s.dev.noc.cycle + 40) ∧
      (s.dev.sysClocked = false → t.dev.clk = s.dev.clk ∧ t.dev.ring = s.dev.ring ∧ t.dev.noc = s.dev.noc) ∧
      ∀ p, ∃ k, t.dev.part p = { s.dev.part p with plotmsInc := (s.dev.part p).plotmsInc + k })

/-- R43, R144, R147, R160, R161, R165, R167, R169, R170, R366. -/
def Obligations.DesignCycleRuns : Prop :=
  ∀ (p pin port ns n c g : Nat) (falling room : Bool) (pins : List (Nat × Bool)) (latch : List (CfgLoc × BitVec 256))
    (slots : List (CfgLoc × BitVec 6)) (rows : List (Nat × BitVec 80)) (moved : Option (Nat × BitVec 512)) (l : List Byte)
    (s : State), Up s → 1 ≤ p → p ≤ 64 → c < 1024 → g < 64 →
    let d := s.dev
    let q := d.part p
    let intact := Intact d
    (pin < 8 → d.clocked = true → Makes (.userclkEdge pin falling) s [.parts] fun e => ∀ k, 1 ≤ k → k ≤ 64 →
      ((d.part k).placement = none → e.part k = d.part k) ∧
      ((d.part k).placement ≠ none → (pin, falling) ∈ (e.part k).eng.edges ∧ ∃ pace, (pace = (d.part k).eng.paceEdge ∨ pace = true) ∧
        e.part k = { d.part k with eng := { (d.part k).eng with edges := (e.part k).eng.edges, paceEdge := pace } })) ∧
    (d.mayStart p = true → Makes (.designCycleStart p) s [.parts, .pins] fun e =>
      e.part p = { q with safe := false, eng := q.eng.start } ∧ (e.part p).eng.running = true ∧ (e.part p).eng.entry = 0 ∧
      (e.part p).eng.faults = q.eng.nextFaults ∧ (∀ k, k ≠ p → e.part k = d.part k) ∧ (q.safe = false → e.pins = d.pins)) ∧
    (q.mayRefill = true → d.clocked = true → d.fab.kupsets = [] → Makes (.refillEnd p [] []) s [.fab, .parts] fun e =>
      e.part p = { q with eng := { q.eng with filled := true } } ∧ (∀ k, k ≠ p → e.part k = d.part k) ∧
      e.fab = { d.fab with shadow := e.fab.shadow } ∧
      (n ∈ d.running p → tget e.fab.shadow (latchKey n c g) 0 = d.streamWord (grainKey n q.refillCtx c g))) ∧
    (∀ en, d.dwellReady p = true → q.curEntry = some en → en.xwait = none →
      Makes (.dwellStart p {}) s [.fab, .parts] fun e =>
        e.part p = { q with eng := { (if en.msync then q.eng.present else q.eng) with inDwell := true, filled := false } } ∧
        (∀ k, k ≠ p → e.part k = d.part k) ∧ e.fab = { d.fab with active := e.fab.active } ∧
        (n ∈ d.running p → tget e.fab.active (latchKey n c g) 0 = tget d.fab.shadow (latchKey n c g) 0)) ∧
    (∀ en, q.state = .running → d.clocked = true → q.eng.running = true → q.eng.inDwell = true → q.eng.filled = true →
      q.curEntry = some en →
      Makes (.dwellEnd p latch slots rows moved) s [.fab, .parts, .mem, .evt, .ime, .ring, .noc] fun e =>
        (e.part p).eng.inDwell = false ∧ (e.part p).eng.entry = q.eng.entry + 1 ∧ (e.part p).eng.running = true ∧
        (e.part p).cycle = q.cycle ∧ (e.part p).state = .running) ∧
    (∀ en, q.curEntry = some en → q.eng.filled = false → exec (.dwellEnd p latch slots rows moved) s = .next s) ∧
    (∀ idx m, (tget q.eng.ports port {}).req = some idx → q.model (port / 4) = some m → q.state = .running → m.tier = 2 →
      let a := m.addrAt (idx * m.width)
      a < 0x031000000000 → d.refuse 0 m.keyid a m.width false = none → (d.keyid m.keyid).mode ≠ .verified → intact →
      cgetBytes d.mem.cells a m.width = some l → (∀ j < m.width, tget d.mem.tags ((a + j) / 64) 0 = d.keyTag m.keyid) →
      Makes (.modelReadResponse p port .clean) s [.parts, .plc, .noc] fun e =>
        tget (e.part p).eng.ports port {} = { tget q.eng.ports port {} with
          req := none, next := some l, nextPoison := false } ∧ (e.part p).cycle = q.cycle) ∧
    (∀ idx m, (tget q.eng.ports port {}).req = some idx → q.model (port / 4) = some m → q.state = .running → m.tier = 2 →
      let a := m.addrAt (idx * m.width)
      0 < m.width → a % 64 + m.width ≤ 64 → d.refuse 0 m.keyid a m.width false = none → (d.keyid m.keyid).mode = .verified → intact →
      cgetBytes d.mem.cells a m.width = some l → tget d.mem.tags (a / 64) 0 = d.keyTag m.keyid →
      Makes (.modelReadResponse p port .clean) s [.parts, .plc, .noc, .ime] fun e =>
        tget (e.part p).eng.ports port {} = { tget q.eng.ports port {} with req := none, next := some l, nextPoison := false } ∧
        (e.part p).cycle = q.cycle ∧ e.ime.counters = d.ime.counters ∧ e.ime.keyids = d.ime.keyids ∧
        holds e.ime.ccLines (d.counterKey a) = true ∧ holds e.ime.mcLines (d.macKey a) = true ∧
        (holds d.ime.ccLines (d.counterKey a) = true → e.ime.ccHits = sat1 d.ime.ccHits ∧ e.ime.ccMisses = d.ime.ccMisses ∧
          e.ime.ccLines = d.ime.ccLines ∧ e.ime.lagging = d.ime.lagging)) ∧
    (∀ w rest m, firstWrite q.eng.writes = some (w, rest) → q.state = .running → q.dwellsDone = true →
      q.model (w.port / 4) = some m → m.tier = 2 → m.journal = false → (d.keyid m.keyid).mode ≠ .verified →
      m.addrAt w.off < 0x031000000000 → d.refuse 0 m.keyid (m.addrAt w.off) w.bytes.length true = none → intact →
      d.ime.sealed = false →
      Makes (.modelWriteAck p .clean) s [.parts, .plc, .mem, .evt, .noc] fun e => (e.part p).eng.writes = rest ∧
        (e.part p).eng.applied = q.eng.applied ++ [w] ∧ (e.part p).cycle = q.cycle ∧
        (∀ j < w.bytes.length, cget e.mem.cells (m.addrAt w.off + j) = w.bytes[j]?)) ∧
    (∀ w rest m, firstWrite q.eng.writes = some (w, rest) → q.state = .running → q.dwellsDone = true →
      q.model (w.port / 4) = some m → m.tier = 2 → m.journal = false → (d.keyid m.keyid).mode = .verified → intact →
      let a := m.addrAt w.off
      let old := d.lineCounters a
      0 < w.bytes.length → a % 64 + w.bytes.length ≤ 64 → d.refuse 0 m.keyid a w.bytes.length true = none →
      d.ime.sealed = false → old.1 + 1 < 2 ^ 64 →
      Makes (.modelWriteAck p .clean) s [.parts, .plc, .mem, .evt, .noc, .ime] fun e => (e.part p).eng.writes = rest ∧
        (e.part p).eng.applied = q.eng.applied ++ [w] ∧ (e.part p).cycle = q.cycle ∧
        (∀ j < w.bytes.length, cget e.mem.cells (a + j) = w.bytes[j]?) ∧
        e.lineCounters a = (if old.2 < 127 then (old.1, old.2 + 1) else (old.1 + 1, 0)) ∧
        e.ime.reenc = (if old.2 < 127 then d.ime.reenc else sat1 d.ime.reenc) ∧
        tget e.ime.lagging (d.counterKey a) [] ≠ [] ∧ e.macKey a ∈ e.ime.mcDirty) ∧
    (q.state = .running → d.clocked = true → q.dwellsDone = true → q.eng.writes = [] → d.allArrived p = true →
      d.thm.trip = false → d.clk.ref = .good → q.snapReq = [] → q.trace.state = 0 → q.promote = [] → d.ime.sealed = false →
      (∀ x ∈ d.fab.slots, slotWrong x.2 = none) →
      (q.eng.faults = [] → Answers (.designCycleBoundary p pins [] ns room) s fun t => t.fuse = s.fuse ∧ t.die = s.die ∧
        (t.dev.part p).cycle = q.cycle + 1 ∧ (t.dev.part p).dcycInc = q.dcycInc + 1 ∧ (t.dev.part p).eng.running = false ∧
        t.dev.keep = d.keep ∧ t.dev.clk = d.clk ∧ t.dev.thm = d.thm ∧ t.dev.mtr = d.mtr ∧ t.dev.tap = d.tap ∧ t.dev.rel = d.rel ∧
        (q.freeze ≠ [] → (t.dev.part p).state ≠ .running ∧ (t.dev.part p).freeze = []) ∧
        (q.freeze = [] → q.count ≠ some (q.cycle.toNat + 1) → q.trigs = 0 → q.sel = none →
          (t.dev.part p).state = .running)) ∧
      (∀ f, q.eng.faults = [f] → Answers (.designCycleBoundary p pins [] ns room) s fun t =>
        t.fuse = s.fuse ∧ t.die = s.die ∧ (t.dev.part p).cycle = q.cycle ∧ (t.dev.part p).dcycInc = q.dcycInc ∧
        (t.dev.part p).state ≠ .running ∧ (t.dev.part p).eng.running = false ∧
        (f.plot = some n → (f.code = 0x0801 ∨ f.code = 0x0802) → q.cut = false → (∀ x ∈ q.eng.ports, x.2.lost = 0) →
          (t.dev.part p).scrubbing = true ∧ n ∈ (t.dev.part p).scrubPlots ∧ (t.dev.part p).faultPlots = [n] ∧
          t.dev.evt = (d.postSrc f.code.toNat f.detail.toNat p f.src).evt)))

/-- R118, R119, R145 to R147, R150, R169 to R171, R226. -/
def Obligations.FaultsInADesignCycle : Prop :=
  ∀ (p n lane j u b i : Nat) (l : CfgLoc) (c : BitVec 80) (s : State), Up s → 1 ≤ p → p ≤ 64 →
    let d := s.dev
    let q := d.part p
    let f : FaultRec := { code := 0x0801, src := 0x45, plot := some l.plot,
                          detail := BitVec.ofNat 32 (l.plot * 2 ^ 23 + l.ctx * 2 ^ 20 + l.clod * 2 ^ 10 + l.grain * 2 ^ 4 + 1) }
    let finds := fun (e : Dev) => (e.part p).eng.filled = true ∧ (e.part p).cycle = q.cycle ∧
      ((q.eng.inDwell = false ∨ q.eng.entry + 1 < q.entries) → f ∈ (e.part p).eng.faults) ∧
      (q.eng.inDwell = true → q.entries ≤ q.eng.entry + 1 → f ∈ (e.part p).eng.nextFaults)
    let change := [(l, j, c)]
    let read := (d.upsetStored change).readQuarter (wordKey l) j
    (q.mayRefill = true → d.clocked = true → d.fab.kupsets = [] → l.plot ∈ d.running p → l.ctx = q.refillCtx → onTier l = true →
      (j < 4 → (read.1 = .uncorrectable ∨ read.1 = .fold) → Makes (.refillEnd p change []) s [.fab, .parts, .mem, .evt] finds) ∧
      (j < 4 → read.1 = .corrected → Makes (.refillEnd p change []) s [.fab, .parts, .mem, .evt] fun e =>
        (e.part p).eng.filled = true ∧ (e.part p).eng.faults = q.eng.faults ∧ (e.part p).eng.nextFaults = q.eng.nextFaults) ∧
      (u < 4 → b < 16 → i < 4 → Makes (.refillEnd p [] [(l, u, b, BitVec.ofNat 4 (2 ^ i))]) s [.fab, .parts] finds)) ∧
    (let a := n % 256
     ∀ en, q.state = .running → q.curEntry = some en → q.eng.inDwell = true → lane < 4096 → (d.plot a).part = p →
      d.fenceOpen a (a + 256) = true →
      (∀ m, m = a ∨ m = a + 256 → bits (d.act m (lane / 4) (lane % 4)) 169 2 = 1) → ¬ lane ∈ (d.plot a).lanesOff →
      Makes (.vlaneContention p n lane []) s [.fab, .parts] fun e => lane ∈ (e.plot a).lanesOff ∧
        lane ∈ (e.plot (a + 256)).lanesOff ∧ (e.plot a).vldis = (d.plot a).vldis + 1 ∧ e.fab.vlValid = true ∧
        e.fab.vlLane = BitVec.ofNat 12 lane ∧ e.fab.vlPlot = BitVec.ofNat 9 a ∧ e.fab.slots = d.fab.slots ∧
        e.fab.bram = d.fab.bram ∧ e.fab.kaolin = d.fab.kaolin ∧ (e.part p).cycle = q.cycle ∧
        { code := 0x0802, src := 0x45, plot := some a,
          detail := BitVec.ofNat 32 (a * 2 ^ 23 + en.ctx * 2 ^ 20 + lane * 2 ^ 8) } ∈ (e.part p).eng.faults) ∧
    (q.scrubbing = true → q.lastSnap = none → q.lastAuto = [] →
      (d.fab.kupsets = [] → Makes (.configFaultScrubDone { part := p }) s [.parts] fun e =>
        e.part p = { q with scrubbing := false, scrubPlots := [] } ∧ ∀ k, k ≠ p → e.part k = d.part k) ∧
      (d.fab.kupsets = [] → onTier l = true → j < 4 → l.plot ∈ q.scrubPlots → read.1 = .corrected →
        Makes (.configFaultScrubDone { part := p, stored := change }) s [.fab, .parts, .mem, .evt] fun e =>
          e.fab.kupsets = [] ∧ (e.part p).scrubbing = false)) ∧
    (q.scrubbing = false → exec (.configFaultScrubDone { part := p, stored := change }) s = .next s) ∧
    (∀ w, q.rewinding = some w → w.auto = true → q.state = .frozen →
      ((d.arb 49 66).quar = true ∨ d.refuse 0 (w.addr / 2 ^ 48) (w.addr % 2 ^ 48) (d.snapNeed p) false ≠ none →
        Answers (.autoRewindDone p .clean) s fun t =>
          t.fuse = s.fuse ∧ t.die = s.die ∧ (t.dev.part p).state = .halted ∧ (t.dev.part p).safe = true ∧
          (t.dev.part p).rewinding = none ∧ (t.dev.part p).cycle = q.cycle ∧ t.dev.fab = d.fab) ∧
      ((d.arb 49 66).quar = false → d.ime.sealed = false →
        (∀ r ∈ d.rewindReads p w.addr, d.refuse 0 r.1 r.2.1 r.2.2 false = none ∧ (d.keyid r.1).mode ≠ .verified) →
        Intact d →
        Answers (.autoRewindDone p .clean) s fun t =>
        t.fuse = s.fuse ∧ t.die = s.die ∧
        (t.dev.ime.sealed = false → (t.dev.part p).rewinding = none ∧
          ((t.dev.part p).state = .running ∨ (t.dev.part p).state = .frozen) ∧
          (q.resume = false → (t.dev.part p).state = .frozen))))

/-- R137, R174 to R178. -/
def Obligations.ConfigurationUpkeep : Prop :=
  ∀ (n : Nat) (l : CfgLoc) (j : Nat) (c : BitVec 80) (s : State), Up s →
    let d := s.dev
    let change := [(l, j, c)]
    let read := (d.upsetStored change).readQuarter (wordKey l) j
    ((d.plot n).state = .clearing → Makes (.plotClearingDone n) s [.fab, .rel] fun e =>
      (e.plot n).state = (if d.badPlot n then .mappedOut else .free) ∧ (e.plot n).part = 0 ∧ (e.plot n).transit = [] ∧
      (e.plot n).rewind = false ∧ (e.plot n).bmemZero = true ∧
      (∀ x ∈ e.fab.kaolin, keyPlot x.1 ≠ n) ∧ (∀ x ∈ e.fab.slots, keyPlot x.1 ≠ n) ∧ (∀ x ∈ e.fab.kupsets, keyPlot (x.1 / 4) ≠ n) ∧
      (∀ x, keyPlot x.1 ≠ n → (x ∈ e.fab.kaolin ↔ x ∈ d.fab.kaolin)) ∧ (∀ x, keyPlot x.1 ≠ n → (x ∈ e.fab.slots ↔ x ∈ d.fab.slots)) ∧
      ∀ m, m ≠ n → e.plot m = d.plot m) ∧
    ((d.plot n).state ≠ .clearing → exec (.plotClearingDone n) s = .next s) ∧
    (d.clk.verify = true → d.clocked = true →
      (Makes (.verificationPassDone change) s [.clk, .evt, .parts, .fab, .mem] fun e =>
        e.clk = { d.clk with verify := false } ∧ ∀ p, (e.part p).state = (d.part p).state) ∧
      (d.fab.kupsets = [] → onTier l = true → j < 4 → (d.plot l.plot).inDesign = true → (d.plot l.plot).part ≠ 0 →
        l.ctx < d.usedPlanes l.plot → (read.1 = .uncorrectable ∨ read.1 = .fold) →
        Makes (.verificationPassDone change) s [.clk, .evt, .parts, .fab, .mem] fun e =>
          (d.plot l.plot).logical ∈ (e.part (d.plot l.plot).part).damaged) ∧
      (d.fab.kupsets = [] → (∀ m < 512, ∀ r, d.recorded (d.plot m).part m = some r → d.derived m = r) →
        Makes (.verificationPassDone []) s [.clk] fun e => e.clk = { d.clk with verify := false })) ∧
    ((d.clk.verify = false ∨ d.clocked = false) → exec (.verificationPassDone change) s = .next s) ∧
    (n < 512 → d.clocked = true →
      let k := tget d.fab.refreshTicks n 0
      tget d.fab.refreshSeen n 0 = gray k → Makes (.configRefreshTick n) s [.fab] fun e =>
      let r := tget d.fab.refreshRow n 0 + 16
      tget e.fab.refreshRow n 0 = r % 16384 ∧ tget e.fab.refreshTicks n 0 = k + 1 ∧ tget e.fab.refreshSeen n 0 = gray (k + 1) ∧
      (r < 16384 → e.fab.catchUp = d.fab.catchUp ∧ e.fab.refreshBand = d.fab.refreshBand) ∧
      (16384 ≤ r → ¬ n ∈ e.fab.catchUp ∧ tget e.fab.refreshBand n 0 = d.regionBand n) ∧
      (∀ m, m ≠ n → tget e.fab.refreshRow m 0 = tget d.fab.refreshRow m 0) ∧
      e.fab.kaolin = d.fab.kaolin ∧ e.fab.plots = d.fab.plots) ∧
    (n < 512 → d.clocked = false → Makes (.configRefreshTick n) s [.fab] fun e =>
      e.fab = { d.fab with refreshTicks := tset d.fab.refreshTicks n (tget d.fab.refreshTicks n 0 + 1) })

/-- R226, R227, R295, R308 to R313. -/
def Obligations.RunControl : Prop :=
  ∀ (i : Issue) (r a b : BitVec 5) (sl : Nat) (s : State), Up s →
    let d := s.dev
    let n := i.thread
    let va := (d.thr n).reg a
    let vb := (d.thr n).reg b
    let p := va.toNat % 2 ^ 7
    let x := d.part p
    let can := fun (dop : Nat) => CanPost d i dop r a b p sl ∧ mayName n p false = true
    let o := fun (dop : Nat) => posting d i dop a b p sl
    let q := fun (dop : Nat) => posted d i r (o dop)
    let low := x.cycle.toNat % 2 ^ 32
    let on := fun (y : Part) => { y with state := .running, eng := { y.eng with edges := [], paceEdge := false } }
    let plots := fun (e : Dev) => e.fab = { d.fab with plots := e.fab.plots } ∧ ∀ k, e.plot k =
      if k ∈ d.plotsOf p ∧ (d.plot k).state ∈ [.ready, .running, .frozen] then { d.plot k with state := .running } else d.plot k
    let becomes := fun (e : Dev) (y : Part) => e.part p = y ∧ ∀ k, k ≠ p → e.part k = d.part k
    let refused := fun (dop : Nat) (c : Instr) (w : Nat) => From (q dop) c s [.evt, .seq, .ops] fun e =>
      EndsWith (q dop) e (o dop) 0x010A w ∧ e.evt = ((q dop).post 0x010A w p).evt
    (can 0x05 → va &&& 0xFFFFFFFFFFFFFC80 = 0 → vb = 0 →
      let x1 := { x with autoRw := if x.state ≠ .none ∧ va.getLsbD 8 = true then va.getLsbD 9 else x.autoRw }
      (d.runRefused p = none → From (q 0x05) (.act i r a b) s [.seq, .ops, .fab, .parts] fun e =>
        EndsWith (q 0x05) e (o 0x05) 0 low ∧ becomes e (on x1) ∧ plots e) ∧
      (∀ w, d.runRefused p = some w → From (q 0x05) (.act i r a b) s [.evt, .seq, .ops, .parts] fun e =>
        EndsWith (q 0x05) e (o 0x05) 0x010A w ∧ becomes e x1 ∧ e.evt = ((q 0x05).post 0x010A w p).evt)) ∧
    (can 0x07 → va.toNat < 2 ^ 7 →
      (vb = 0 → From (q 0x07) (.step i r a b) s [.seq, .ops] fun e => EndsWith (q 0x07) e (o 0x07) 0x0913 0x80000001) ∧
      (0 < vb.toNat → vb.toNat < 2 ^ 48 →
        (x.count ≠ none → refused 0x07 (.step i r a b) 1) ∧
        (∀ w, x.count = none → d.runRefused p = some w → refused 0x07 (.step i r a b) w) ∧
        (x.count = none → d.runRefused p = none → From (q 0x07) (.step i r a b) s [.fab, .parts] fun e =>
          becomes e { on x with count := some (x.cycle.toNat + vb.toNat), stepOp := some (n, sl) } ∧ plots e))) ∧
    (can 0x08 → va.toNat < 2 ^ 7 → vb = 0 →
      let ended := match x.stepOp with
        | some (m, k) => (q 0x08).complete m k 0x0917 low
        | none => q 0x08
      (x.state = .running → From (q 0x08) (.run i r a b) s [.pcie, .seq, .ops, .parts, .mem] fun e =>
        Finishes ended e (o 0x08) ∧ becomes e { x with count := none, stepOp := none }) ∧
      (d.runRefused p = none → From (q 0x08) (.run i r a b) s [.pcie, .seq, .ops, .fab, .parts, .mem] fun e =>
        Finishes ended e (o 0x08) ∧ becomes e { on x with count := none, stepOp := none } ∧ plots e) ∧
      (∀ w, x.state ≠ .running → d.runRefused p = some w → refused 0x08 (.run i r a b) w)) ∧
    (can 0x06 → va.toNat < 2 ^ 7 → vb = 0 →
      (x.state = .running → From (q 0x06) (.frz i r a b) s [.parts] fun e =>
        becomes e { x with freeze := x.freeze ++ [.frz n sl] }) ∧
      (x.state ≠ .running → From (q 0x06) (.frz i r a b) s [.seq, .ops] fun e => Finishes (q 0x06) e (o 0x06))) ∧
    (can 0x09 → va.toNat < 2 ^ 7 → vb = 0 →
      (x.state = .running → From (q 0x09) (.stop i r a b) s [.parts] fun e =>
        becomes e { x with freeze := x.freeze ++ [.stop n sl] }) ∧
      (x.state ≠ .running → From (q 0x09) (.stop i r a b) s [.pcie, .seq, .ops, .parts, .mem] fun e =>
        becomes e { x with count := none, stepOp := none, snapReq := [] } ∧
        (x.stepOp = none → x.snapReq = [] → Finishes (q 0x09) e (o 0x09)))) ∧
    (∀ z : Nat × Instr, z ∈ [(0x05, .act i r a b), (0x06, .frz i r a b), (0x07, .step i r a b), (0x08, .run i r a b),
        (0x09, .stop i r a b)] → can z.1 → 2 ^ 10 ≤ va.toNat →
      From (q z.1) z.2 s [.seq, .ops] fun e => EndsWith (q z.1) e (o z.1) 0x0913 0x80000000)

/-- R119, R226, R314 to R316, R495, R514 to R519. -/
def Obligations.Snapshots : Prop :=
  (∀ (i : Issue) (r a b : BitVec 5) (sl : Nat) (s : State), Up s →
    let d := s.dev
    let n := i.thread
    let va := (d.thr n).reg a
    let vb := (d.thr n).reg b
    let p := va.toNat % 2 ^ 7
    let x := d.part p
    let k := vb.toNat / 2 ^ 48
    let can := fun (dop : Nat) => CanPost d i dop r a b p sl ∧ mayName n p false = true ∧ va.toNat < 2 ^ 7 ∧ vb.toNat < 2 ^ 54
    let o := fun (dop : Nat) => posting d i dop a b p sl
    let q := fun (dop : Nat) => posted d i r (o dop)
    let becomes := fun (e : Dev) (y : Part) => e.part p = y ∧ ∀ k, k ≠ p → e.part k = d.part k
    let refused := fun (dop : Nat) (c : Instr) (w : Nat) => From (q dop) c s [.evt, .seq, .ops] fun e =>
      EndsWith (q dop) e (o dop) 0x010A w ∧ e.evt = ((q dop).post 0x010A w p).evt
    (can 0x0A → d.startAddrOk n vb true = true → (k = 0 ∨ x.keys.contains k = true) → (d.keyid k).mode ≠ .verified →
      d.ime.sealed = false →
      (d.rewindDue p = true → refused 0x0A (.snap i r a b) 1) ∧
      (d.rewindDue p = false → x.state = .running → From (q 0x0A) (.snap i r a b) s [.parts] fun e =>
        becomes e { x with snapReq := x.snapReq ++ [{ addr := vb.toNat, thread := n, slot := sl }] }) ∧
      (d.rewindDue p = false → (x.state = .frozen ∨ x.state = .placed) →
        (d.snapAreaOk p vb.toNat = true → (d.arb 49 n).quar = false → (q 0x0A).snapRefused p vb.toNat = none →
          From (q 0x0A) (.snap i r a b) s [.mem, .evt, .ime, .parts, .noc] fun e =>
          e.noc = ((q 0x0A).snapRows n vb.toNat (d.snapSizes p)).noc ∧
          (∃ bad, (e.part p).capture = x.capture ++ [{
            addr := vb.toNat, thread := n, slot := sl, seq := x.capSeq + 1, cycle := x.cycle.toNat, size := d.snapNeed p, bad := bad }]) ∧
          (e.part p).capSeq = x.capSeq + 1 ∧
          (e.part p).state = x.state ∧ (e.part p).cycle = x.cycle ∧ (∀ k, k ≠ p → e.part k = d.part k) ∧
          cget e.mem.cells (vb.toNat % 2 ^ 48 + 6) = some 0) ∧
        (∀ y, d.snapAreaOk p vb.toNat = true → (d.arb 49 n).quar = false → (q 0x0A).snapRefused p vb.toNat = some y →
          From (q 0x0A) (.snap i r a b) s [.evt, .ime, .seq, .ops] fun e =>
            EndsWith (q 0x0A) e (o 0x0A) 0x0916 (addrDetail y.2.2.1)) ∧
        (d.snapAreaOk p vb.toNat = false → From (q 0x0A) (.snap i r a b) s [.evt, .seq, .ops] fun e =>
          EndsWith (q 0x0A) e (o 0x0A) 0x0C05 0 ∧
          e.evt = ((q 0x0A).post 0x0C05 (addrDetail (vb.toNat % 2 ^ 48)) p).evt)) ∧
      (d.rewindDue p = false → ¬ x.state ∈ [.running, .frozen, .placed] → refused 0x0A (.snap i r a b) 1)) ∧
    (can 0x0B → 0 < vb.toNat → d.startAddrOk n vb true = true →
      ((x.state ≠ .frozen ∨ x.rewinding ≠ none) → refused 0x0B (.rwnd i r a b) 1) ∧
      (x.state = .frozen → x.rewinding = none → (d.arb 49 n).quar = false →
        let h := (q 0x0B).refuse 0 k (vb.toNat % 2 ^ 48) 4096 false
        let reads := h = none ∧ (d.keyid k).mode ≠ .verified ∧
          Intact (q 0x0B)
        (h ≠ none → Answers (.rwnd i r a b) s fun t => t.fuse = s.fuse ∧ t.die = s.die ∧ (t.dev.part p).state = .halted ∧
          (t.dev.part p).safe = true ∧ EndsWith (q 0x0B) t.dev (o 0x0B) 0x0128 (addrDetail (vb.toNat % 2 ^ 48))) ∧
        (reads → (q 0x0B).snapValid s.serial p vb.toNat = true → From (q 0x0B) (.rwnd i r a b) s [.parts] fun e =>
          becomes e { x with rewinding := some { addr := vb.toNat, auto := false, thread := n, slot := sl } }) ∧
        (reads → (q 0x0B).snapValid s.serial p vb.toNat = false → From (q 0x0B) (.rwnd i r a b) s [.seq, .ops] fun e =>
          EndsWith (q 0x0B) e (o 0x0B) 0x0913 0x80000001)))) ∧
  (∀ (p : Nat) (c : Snap) (rest : List Snap) (us : BitVec 16) (l : CfgLoc) (v : BitVec 6) (rd : ReadOutcome) (s : State), Up s →
    1 ≤ p → p ≤ 64 →
    let d := s.dev
    let x := d.part p
    let a := c.addr % 2 ^ 48
    let reads := ∀ y ∈ d.snapReads p, (d.keyid y.1).mode ≠ .verified ∧ d.refuse 0 y.1 y.2.1 y.2.2 false = none
    let intact := Intact d
    let ended := fun (e : Dev) (code det : Nat) => e.seq = (d.complete c.thread c.slot code det).seq ∧
      (e.part p).capture = rest ∧ (e.part p).snaps = x.snaps ∧ (e.part p).lastSnap = x.lastSnap
    x.capture = c :: rest → c.thread ≤ 64 → (∀ o, d.op c.thread c.slot = some o → o.dop = 0x0A) → x.eng.faults = [] →
    (∀ z ∈ d.fab.slots, slotWrong z.2 = none) →
    ((d.keyid (c.addr / 2 ^ 48)).mode ≠ .verified → d.ime.sealed = false → a + 6 < 0x031000000000 → c.bad = none → reads → intact →
      Makes (.snapshotCaptureDone p [] .clean us) s [.mem, .parts, .evt, .seq, .ops] fun e =>
        (e.part p).capture = rest ∧ (e.part p).snaps = c :: x.snaps ∧ (e.part p).lastSnap = some c ∧
        (e.part p).snapUs = us ∧ (e.part p).state = x.state ∧ (e.part p).cycle = x.cycle ∧
        e.seq = (d.complete c.thread c.slot 0 (c.cycle % 2 ^ 32)).seq ∧ cget e.mem.cells (a + 6) = some 1 ∧
        ∀ z, z ≠ a + 6 → d.keyTag (c.addr / 2 ^ 48) = tget d.mem.tags ((a + 6) / 64) 0 → cget e.mem.cells z = cget d.mem.cells z) ∧
    (∀ y, c.bad = some y → Makes (.snapshotCaptureDone p [] rd us) s [.parts, .evt, .seq, .ops] fun e =>
      ended e 0x0916 (addrDetail y)) ∧
    (c.bad = none → (∀ y ∈ d.snapReads p, (d.keyid y.1).mode ≠ .verified) → d.snapReads p ≠ [] →
      (∃ y ∈ d.snapReads p, d.refuse 0 y.1 y.2.1 y.2.2 false ≠ none) →
      Makes (.snapshotCaptureDone p [] rd us) s [.mem, .ime, .parts, .evt, .seq, .ops] fun e =>
        e.mem.cells = d.mem.cells ∧ ∃ y, ended e 0x0916 (addrDetail y)) ∧
    (x.state ≠ .running → l.plot ∈ d.plotsOf p → (d.plot l.plot).part = p → (d.plot l.plot).inDesign = true → onTier l = true →
      slotWrong (tget d.fab.slots (wordKey l) 0 ^^^ v) ≠ none →
      Makes (.snapshotCaptureDone p [(l, v)] rd us) s [.fab, .parts, .evt, .seq, .ops] fun e =>
        e.part p = { x with capture := rest } ∧ ended e 0x0803 (c.cycle % 2 ^ 32) ∧
        ∀ m ∈ d.plotsOf p, (e.plot m).rewind = true)) ∧
  (∀ (p : Nat) (w : Rewind) (rd : ReadOutcome) (s : State), Up s → 1 ≤ p → p ≤ 64 →
    let d := s.dev
    let x := d.part p
    x.rewinding = some w → w.auto = false → x.state = .frozen → w.thread ≤ 64 →
    ((∃ y ∈ d.rewindReads p w.addr, d.refuse 0 y.1 y.2.1 y.2.2 false ≠ none) →
      Answers (.rewindDone p rd) s fun t => t.fuse = s.fuse ∧ t.die = s.die ∧ (t.dev.part p).state = .halted ∧
      (t.dev.part p).safe = true ∧ (t.dev.part p).rewinding = none ∧ (t.dev.part p).cycle = x.cycle ∧ t.dev.fab = d.fab ∧
      t.dev.seq = (d.complete w.thread w.slot 0x0128 (addrDetail (w.addr % 2 ^ 48))).seq) ∧
    ((∀ y ∈ d.rewindReads p w.addr, (d.keyid y.1).mode ≠ .verified ∧ d.refuse 0 y.1 y.2.1 y.2.2 false = none) →
      Intact d → d.ime.sealed = false → Answers (.rewindDone p .clean) s fun t =>
      t.fuse = s.fuse ∧ t.die = s.die ∧ (t.dev.ime.sealed = false →
        (t.dev.part p).state = .frozen ∧ (t.dev.part p).rewinding = none ∧ (t.dev.part p).resume = false ∧
        (t.dev.part p).cycle = BitVec.ofNat 64 (d.snapField w.addr 0x10 8) ∧ (t.dev.part p).eng.running = false ∧
        (t.dev.part p).gen = (x.gen + if x.cut then 1 else 0) ∧ (∀ m ∈ d.plotsOf p, (t.dev.plot m).rewind = false) ∧
        t.dev.seq = (d.complete w.thread w.slot 0 (d.snapField w.addr 0x10 8 % 2 ^ 32)).seq)))

/-- R179 to R198, R224 to R232, R256, R304, R305. -/
def Obligations.ImagesCheckedAndLoaded : Prop :=
  (∀ (i : Issue) (r a b : BitVec 5) (sl : Nat) (s : State), Up s →
    let d := s.dev
    let n := i.thread
    let va := (d.thr n).reg a
    let vb := (d.thr n).reg b
    let p := va.toNat % 2 ^ 7
    let x := d.part p
    let k := kidOf vb
    let can := fun (dop : Nat) => CanPost d i dop r a b p sl ∧ mayName n p false = true ∧ (fetched d i).startAddrOk n vb false = true
    let o := fun (dop : Nat) => posting d i dop a b p sl
    let q := fun (dop : Nat) => posted d i r (o dop)
    let readable := fun (q : Dev) (off m : Nat) => (q.keyid k).mode ≠ .verified ∧ Intact q ∧
      q.refuse 0 k (addrOf vb + off) m false = none
    let ends := fun (dop : Nat) (c : Instr) (code det : Nat) => From (q dop) c s [.evt, .seq, .ops] fun e =>
      EndsWith (q dop) e (o dop) code det ∧ e.evt = ((q dop).post code det p).evt
    (can 0x01 → va.toNat < 2 ^ 7 →
      let c := Instr.imgchk i r a b .clean
      let q := q 0x01
      let o := o 0x01
      let h := q.cont o 0 128
      let cnt := field h 0x14 2
      let raw := q.cont o 128 (32 * cnt)
      let l := secsOf raw cnt
      let kind := field h 0x13 1
      ((x.state = .none ∨ x.load ≠ none) → ends 0x01 c 0x010A 1) ∧
      (x.state ≠ .none → x.load = none → readable q 0 128 → x.chkState kind = true → q.mayAccess n vb (field h 8 8) true = true →
        (∀ off, headerFault h = some off → ends 0x01 c 0x0102 off) ∧
        (headerFault h = none → readable q 128 (32 * cnt) → dirFault raw l kind (field h 8 8) = none → readable q 0 (headEnd l) →
          padFault (q.cont o 0 (headEnd l)) l = none →
          (∀ f, q.headCheck o h l = .inl f → ends 0x01 c f.1 f.2) ∧
          (∀ hd, q.headCheck o h l = .inr hd → From q c s [.evt, .seq, .ops, .parts, .pins] fun e =>
            Finishes q e o ∧ e.evt = (q.post 0x0101 kind p).evt ∧ (∀ k, k ≠ p → e.part k = d.part k) ∧
            e.part p = if kind = 0 then { x with headFull := some hd, pinsKnown := true }
              else { x with headPart := some hd })))) ∧
    (can 0x02 → va &&& 0xFFFFFFFFFFFFFE80 = 0 → d.boot.locked = true →
      let c := Instr.imgld i r a b .clean
      let q := q 0x02
      let o := o 0x02
      let h := q.cont o 0 128
      let part := va.getLsbD 8
      (∀ w, d.loadRefused p part = some w → ends 0x02 c 0x010A w) ∧
      (d.loadRefused p part = none → readable q 0 128 → readable q 0 (q.message o).length → d.plc.migs = [] → d.plc.search = none →
        q.mayAccess n vb (field h 8 8) true = true →
        let same := (if part then x.headPart.map (·.digest) else x.headFull.map (·.digest)) =
          some (Config.sha384 (q.message o))
        (¬ same → ends 0x02 c 0x010A 3) ∧
        (same → From q c s [.fab, .parts, .pins] fun e => (∀ k, k ≠ p → e.part k = d.part k) ∧
          e.part p = { x with
            state := .loading, loadFrames := 0, safe := true,
            load := some {
              partial_ := part, prior := if x.state = .placed then 3 else 4, addr := vb.toNat, thread := n, slot := sl } } ∧
          ∀ y ∈ x.loadPlots part, ∀ m, d.physical p y = some m → (e.plot m).state = .loading)))) ∧
  (∀ (p : Nat) (l : Load) (pl : Placement) (h : Head) (s : State), Up s → 1 ≤ p → p ≤ 64 →
    let d := s.dev
    let x := d.part p
    let key := l.addr / 2 ^ 48 % 64
    let base := l.addr % 2 ^ 48
    let aborts := fun (c : Instr) (code det : Nat) => Makes c s [.evt, .seq, .ops, .fab, .parts] fun e =>
      (e.part p).state = .blank ∧ (e.part p).load = none ∧ (e.part p).loadCode = BitVec.ofNat 16 code ∧
      e.seq = (d.complete l.thread l.slot code det).seq ∧ e.evt = (d.post code det p).evt ∧
      ∀ y ∈ x.loadPlots l.partial_, ∀ m, d.physical p y = some m → ∀ k ∈ x.loadCtxs l.partial_, ∀ c < 1024, ∀ g < 64,
        e.word m k c g = 0
    x.state = .loading → d.svcCut = false → x.load = some l → x.placement = some pl → x.loadHead l = some h →
    x.ctx ≤ 3 → (∀ o, d.op l.thread l.slot = some o → o.dop = 0x02) →
    let intact := (d.keyid key).mode ≠ .verified ∧ Intact d
    (∀ ru sec, h.runs[l.run]? = some ru → secOf h.secs 8 = some sec → (d.arb 48 p).quar = false → intact →
      let off := sec.off + l.hash.length
      d.refuse 0 key (base + off) (16 + 2048 * ru.count) false = none →
      let g := d.memRead key (base + off) (16 + 2048 * ru.count)
      let frame := fun (j : Nat) => (g.drop (16 + 2048 * j)).take 2048
      let agrees := field g 0 2 = ru.plot ∧ field g 2 1 = ru.ctx ∧ field g 4 2 = ru.first ∧ field g 6 2 = ru.count ∧
        l.hash.length + (16 + 2048 * ru.count) ≤ sec.len
      (¬ agrees → aborts (.imgldFrameGroup p .clean) 0x0104 off) ∧
      (agrees → (∀ j < ru.count, pl.frameBad ru.plot ru.ctx (ru.first + j) (frame j) = false) →
        Makes (.imgldFrameGroup p .clean) s [.fab, .parts, .noc] fun e =>
          e.noc = (d.served 48 p).noc ∧ (∀ k, k ≠ p → e.part k = d.part k) ∧
          e.part p = { x with
            loadFrames := BitVec.ofNat 32 (l.frames + ru.count),
            load := some { l with run := l.run + 1, hash := l.hash ++ g, frames := l.frames + ru.count } } ∧
          (∀ m, d.physical p ru.plot = some m →
            (∀ j < ru.count, ∀ gr < 64, e.word m ru.ctx (ru.first + j) gr = leNat (((frame j).drop (32 * gr)).take 32)) ∧
            ∀ y, (∀ j < ru.count, y / 64 ≠ (m * 8 + ru.ctx) * 1024 + ru.first + j) →
              tget e.fab.kaolin y 0 = tget d.fab.kaolin y 0) ∧
          e.fab.slots = d.fab.slots ∧ e.fab.plots = d.fab.plots)) ∧
    (∀ fs, h.runs.length ≤ l.run → secOf h.secs 8 = some fs →
      let from_ := base + fs.off + l.hash.length
      let left := fs.len - l.hash.length
      let rest := d.memRead key from_ left
      (left = 0 ∨ intact ∧ d.refuse 0 key from_ left false = none) →
      (Config.sha384 (l.hash ++ rest) ≠ h.framesDigest → aborts (.imgldDone p .clean) 0x0108 ((h.secIdx 8).getD 0)) ∧
      (Config.sha384 (l.hash ++ rest) = h.framesDigest → secOf h.secs 9 = none →
        Makes (.imgldDone p .clean) s [.evt, .seq, .ops, .fab, .parts] fun e =>
          (e.part p).state = (if l.partial_ then (if l.prior = 3 then .placed else .frozen) else .placed) ∧
          (e.part p).load = none ∧ (e.part p).loadCode = 0 ∧ (e.part p).cycle = (if l.partial_ then x.cycle else 0) ∧
          (e.part p).snaps = [] ∧ (e.part p).lastSnap = none ∧ (e.part p).rooted = false ∧
          e.seq = (d.complete l.thread l.slot 0 l.frames).seq ∧ e.evt = (d.post 0x010C l.frames p).evt ∧
          e.fab.kaolin = d.fab.kaolin ∧
          ∀ y ∈ x.loadPlots l.partial_, ∀ m, d.physical p y = some m →
            (e.plot m).state = if l.partial_ ∧ l.prior ≠ 3 then .frozen else .ready)))

/-- R70, R199, R201, R207 to R212, R215, R217 to R220, R306, R307. -/
def Obligations.PlacementAndMigration : Prop :=
  (∀ (i : Issue) (r a b : BitVec 5) (sl : Nat) (s : State), Up s →
    let d := s.dev
    let n := i.thread
    let va := (d.thr n).reg a
    let vb := (d.thr n).reg b
    let p := va.toNat % 2 ^ 7
    let x := d.part p
    let len := va.toNat / 2 ^ 32
    let can := fun (dop : Nat) => CanPost d i dop r a b p sl ∧ mayName n p false = true ∧ d.seq.swap = 0 ∧
      ∀ y ∈ d.ops, y.phase ≠ .queued ∧ (y.thread ≠ n ∨ y.slot ≠ sl)
    let o := fun (dop : Nat) => posting d i dop a b p sl
    let q := fun (dop : Nat) => posted d i r (o dop)
    let search := fun (g : Option (Nat × Option Nat)) (base : List Nat) => { d.plc with search := some {
      part := p, migr := g, head := ((x.headFull).map (·.digest)).getD 0, keys := x.keys, marl := x.marl, ddr := x.ddr,
      inp := d.placeIn p, base := base, thread := n, slot := sl } }
    let waits := fun (dop : Nat) (c : Instr) => d.plc.search ≠ none → From (q dop) c s [.ops] fun e =>
      e.op n sl = some { o dop with phase := .queued }
    (can 0x03 → va.toNat / 2 ^ 7 % 2 ^ 25 = 0 → (fetched d i).mayStore n vb.toNat len = true → vb.toNat % 8 = 0 →
      waits 0x03 (.place i r a b) ∧
      (d.plc.search = none → d.placeFault p len = none → From (q 0x03) (.place i r a b) s [.plc, .ops] fun e =>
        e.plc = search none [] ∧ e.op n sl = some (o 0x03)) ∧
      (∀ f, d.plc.search = none → d.placeFault p len = some f →
        From (q 0x03) (.place i r a b) s [.evt, .seq, .ops, .plc, .mem] fun e => EndsWith (q 0x03) e (o 0x03) f.1 f.2 ∧
          e.evt = ((q 0x03).post f.1 f.2 p).evt ∧ e.plc.search = none ∧ e.plc.lastPart = p ∧
          e.plc.lastCode = BitVec.ofNat 16 f.1)) ∧
    (can 0x04 → d.feat 8 = true → d.boot.locked = true → va.toNat < 2 ^ 7 → vb.toNat < 2 ^ 19 →
      (x.placement ≠ none → vb.toNat % 2 ^ 9 < x.plots) →
      let l := vb.toNat % 2 ^ 9
      let g := (l, if vb.getLsbD 18 then some (vb.toNat / 2 ^ 9 % 2 ^ 9) else none)
      waits 0x04 (.migr i r a b) ∧
      (d.plc.search = none → d.mayMigrate p l = true → From (q 0x04) (.migr i r a b) s [.plc, .ops] fun e =>
        e.plc = search (some g) (d.searchOf (o 0x04) (some g)).base ∧
        e.op n sl = some (o 0x04)) ∧
      (d.plc.search = none → d.mayMigrate p l = false → From (q 0x04) (.migr i r a b) s [.evt, .seq, .ops] fun e =>
        EndsWith (q 0x04) e (o 0x04) 0x0212 l ∧ e.evt = ((q 0x04).post 0x0212 l p).evt)) ∧
    (CanPost d i 0x04 r a b p sl → mayName n p false = true → d.boot.locked = true → d.feat 8 = false →
      From (q 0x04) (.migr i r a b) s [.seq, .ops] fun e => EndsWith (q 0x04) e (o 0x04) 0x0910 8)) ∧
  (∀ (sr : Search) (o : Op) (res : PlaceResult) (us : Nat) (s : State), Up s →
    let d := s.dev
    let p := o.part
    let x := d.part p
    1 ≤ p → p ≤ 64 → d.plc.search = some sr → d.op sr.thread sr.slot = some o → (∀ y ∈ d.ops, y.phase ≠ .queued) →
    o.dop = (if sr.migr = none then 0x03 else 0x04) →
    let c := Instr.placeSearchDone res us
    (∀ h, sr.migr = none → x.headFull = some h → h.digest = sr.head →
      let sch := schedOf (h.table 3).1
      let nets := netsOf (h.table 5).1 (h.table 5).2
      let pairs := pairsOf (h.table 6).1 (h.table 6).2 sr.inp.cc
      let found := sr.inp.decide_ nets pairs sch res
      let fails := fun (code det : Nat) => Makes c s [.evt, .seq, .ops, .plc, .mem] fun e =>
        e.plc = { d.plc with search := none, lastPart := p, lastCode := BitVec.ofNat 16 code, lastTime := BitVec.ofNat 32 us } ∧
        e.evt = (d.post code det p).evt ∧ e.seq = (d.complete o.thread o.slot code det).seq
      (∀ f, found = some (.inl f) → fails f.1 f.2) ∧
      (∀ (map : List Nat) (routes : List (List (Nat × Nat))), found = some (.inr (map, routes)) → map.Nodup →
        let s2 := extended sch (sch.entries.map (·.steps)) nets (routeLens routes)
        (∀ f, extensionFault nets (routeLens routes) s2 = some f → fails 0x0203 f) ∧
        (extensionFault nets (routeLens routes) s2 = none → x.state = .blank → x.placement = none →
          ((d.updPart p fun q => { q with keys := sr.keys, marl := sr.marl, ddr := sr.ddr }).placeModels p
            (modelRecs (h.table 7).1 x.plots (h.table 7).2) (masksOf (h.table 7).1 x.plots)).1 = none →
          Makes c s [.evt, .seq, .ops, .fab, .plc, .parts, .mem] fun e =>
            (e.part p).state = .loading ∧ (∃ pl, (e.part p).placement = some pl ∧ pl.map = map ∧ pl.head = h.digest ∧
              pl.sched = s2 ∧ pl.nets = nets ∧ pl.netLens = routeLens routes) ∧ (∀ k, k ≠ p → e.part k = d.part k) ∧
            (e.part p).migrCycles = 0 ∧ (e.part p).migr = d.plc.migrSet ∧
            (∀ l m, map[l]? = some m → (e.plot m).part = p ∧ (e.plot m).logical = l ∧ (e.plot m).state = .loading) ∧
            (∀ m, m ∉ map → e.plot m = d.plot m) ∧ e.plc = { d.plc with
              search := none, lastPart := p, lastCode := 0, lastTime := BitVec.ofNat 32 us, pages := e.plc.pages } ∧
            e.seq = (d.complete o.thread o.slot 0 (x.plots * 2 ^ 16 + (s2.total - sch.total))).seq))) ∧
    (∀ l g, sr.migr = some (l, g) →
      let refused := fun (code : Nat) => Makes c s [.evt, .seq, .ops, .plc] fun e => e.plc = { d.plc with search := none } ∧
        e.evt = (d.post code l p).evt ∧ e.seq = (d.complete o.thread o.slot code l).seq
      (d.mayMigrate p l = false → refused 0x0212) ∧
      (∀ pl, d.mayMigrate p l = true → x.placement = some pl →
        (sr.migrate pl l g res = some none → refused 0x0211) ∧
        (∀ (map : List Nat) (routes : List (List (Nat × Nat))), sr.migrate pl l g res = some (some (map, routes)) →
          Makes c s [.fab, .plc] fun e => e.plc.search = none ∧
            (∃ m, e.plc.migs = d.plc.migs ++ [m] ∧ m.part = p ∧ m.copied = false ∧ m.thread = o.thread ∧ m.slot = o.slot ∧
              m.moves = (x.moved l).map (fun y => (y, sr.base.getD y 0, map.getD y 0))) ∧
            (∀ y ∈ x.moved l, (e.plot (map.getD y 0)).part = p ∧ (e.plot (map.getD y 0)).state = .loading) ∧
            ∀ n, (∀ y ∈ x.moved l, n ≠ map.getD y 0) → e.plot n = d.plot n)))) ∧
  (∀ (p l src dst : Nat) (order : List (Nat × Nat)) (g : Mig) (pl : Placement) (s : State), Up s → 1 ≤ p → p ≤ 64 →
    let d := s.dev
    let x := d.part p
    (d.plc.migs = [g] → g.part = p → g.copied = false → g.moves = [(l, src, dst)] → src ≠ dst → (d.arb 48 0).quar = false →
      (d.fab.kaolin.map (·.1)).Nodup → d.fab.kupsets = [] → (∀ o, d.op g.thread g.slot = some o → o.dop = 0x04) →
      let same := fun (e : Dev) => ∀ y < 524288, tget e.fab.kaolin (dst * 524288 + y) 0 = tget d.fab.kaolin (src * 524288 + y) 0
      (x.state = .running → Makes (.migrCopyDone p) s [.fab, .plc, .noc] fun e => same e ∧ e.fab.plots = d.fab.plots ∧
        e.plc = { d.plc with migs := [{ g with copied := true }] }) ∧
      ((x.state = .frozen ∨ x.state = .placed) → x.placement = some pl →
        Makes (.migrCopyDone p) s [.evt, .seq, .ops, .fab, .plc, .parts, .noc] fun e =>
          let det := l * 2 ^ 23 + src * 2 ^ 9 + dst
          same e ∧ (e.plot dst).part = p ∧ (e.plot dst).logical = l ∧ (e.plot dst).state = (d.plot src).state ∧
          (e.plot dst).rewind = (d.plot src).rewind ∧ (e.plot src).state = .clearing ∧ (e.plot src).part = 0 ∧
          e.plc.migs = [] ∧ (∃ pl', (e.part p).placement = some pl' ∧ pl'.map = pl.map.set l dst ∧ pl'.netLens = g.lens) ∧
          (e.part p).state = x.state ∧ (e.part p).cycle = x.cycle ∧ e.evt = (d.post 0x0210 det p).evt ∧
          e.seq = (d.complete g.thread g.slot 0 det).seq)) ∧
    (max 16 x.migr.period.toNat ≤ x.migrCycles → Makes (.migrPeriod p order) s [.plc, .parts] fun e =>
      let counts := d.pageCountsOf p
      (∀ k, k ≠ p → e.part k = d.part k) ∧
      e.part p = { x with migrCycles := 0, migr := d.plc.migrSet, pageCounts := counts, promote := (e.part p).promote } ∧
      e.plc = { d.plc with pages := d.plc.pages.map fun y => (y.1, y.2.1, if (x.pageOf y.2.1).isSome then 0 else y.2.2) } ∧
      ∀ m pg, (m, pg) ∈ (e.part p).promote ↔ ((m, pg) ∈ x.promote ∨ (x.migr.en = true ∧ ∃ k y, (m, pg, k) ∈ counts ∧
        1 ≤ k ∧ x.migr.hot.toNat ≤ k ∧ x.model m = some y ∧ y.nomigr = false ∧
        y.inDdr (4096 * pg) = true ∧ (d.keyid y.keyid).mode ≠ .verified))) ∧
    (x.migrCycles < max 16 x.migr.period.toNat → exec (.migrPeriod p order) s = .next s))

/-- R297, R298, R303, R317 to R321, R402. -/
def Obligations.MemoryMovers : Prop :=
  (∀ (i : Issue) (r a b : BitVec 5) (sl : Nat) (s : State), Up s →
    let d := s.dev
    let n := i.thread
    let va := (d.thr n).reg a
    let vb := (d.thr n).reg b
    let p := va.toNat % 2 ^ 7
    let o := fun (dop : Nat) => posting d i dop a b p sl
    let q := fun (dop : Nat) => posted d i r (o dop)
    let can := fun (dop : Nat) => CanPost d i dop r a b p sl ∧ mayName n p true = true ∧ va.toNat < 2 ^ 7 ∧ vb.toNat % 8 = 0 ∧
      Intact (fetched d i) ∧ (fetched d i).mayLoad n vb.toNat 32 = true
    (can 0x0C →
      (∀ x, (q 0x0C).fillArgs (o 0x0C) = .inr x → From (q 0x0C) (.fill i r a b) s [.ime] fun e =>
        (∀ z m, x.dest = .mem z m → (d.keyid x.key).mode = .verified → (d.keyid x.key).state = .active → z < marlBase →
          z % 2 ^ 26 = 0 → m % 2 ^ 26 = 0 → ∀ g, tget e.ime.granules g 0 =
            if 0 < m ∧ z / 2 ^ 26 ≤ g ∧ g ≤ (z + m - 1) / 2 ^ 26 then x.key else tget d.ime.granules g 0) ∧
        ((d.keyid x.key).mode ≠ .verified → e.ime = d.ime)) ∧
      (∀ f, (q 0x0C).fillArgs (o 0x0C) = .inl f → f.1 ≠ 0x010A → From (q 0x0C) (.fill i r a b) s [.seq, .ops] fun e =>
        EndsWith (q 0x0C) e (o 0x0C) f.1 f.2) ∧
      ((q 0x0C).fillArgs (o 0x0C) = .inl (0x010A, 1) → From (q 0x0C) (.fill i r a b) s [.evt, .seq, .ops] fun e =>
        EndsWith (q 0x0C) e (o 0x0C) 0x010A 1 ∧ e.evt = ((q 0x0C).post 0x010A 1 p).evt)) ∧
    (can 0x0D →
      (∀ x, (q 0x0D).rmovArgs (o 0x0D) = .inr x → From (q 0x0D) (.rmov i r a b) s [] fun _ => True) ∧
      (∀ f, (q 0x0D).rmovArgs (o 0x0D) = .inl f → f.1 ≠ 0x010A → From (q 0x0D) (.rmov i r a b) s [.seq, .ops] fun e =>
        EndsWith (q 0x0D) e (o 0x0D) f.1 f.2)) ∧
    (can 0x0E → d.channelShut p = false → (q 0x0E).dmaBehind (o 0x0E) = false →
      (∀ x, (q 0x0E).dmaArgs (o 0x0E) = .inr x → From (q 0x0E) (.dma i r a b) s [.pcie] fun e =>
        e.pcie = { d.pcie with dmaHalt := d.pcie.dmaHalt.filter fun y => decide (y ≠ p) }) ∧
      (∀ f, (q 0x0E).dmaArgs (o 0x0E) = .inl f → From (q 0x0E) (.dma i r a b) s [.pcie, .evt, .seq, .ops] fun e =>
        EndsWith (q 0x0E) e (o 0x0E) f.1 f.2 ∧ tget e.pcie.dmaCode p 0 = BitVec.ofNat 16 f.1 ∧
        tget e.pcie.dmaBytes p 0 = 0))) ∧
  (∀ (n sl : Nat) (o : Op) (host : List (BitVec 8)) (s : State), Up s →
    let d := s.dev
    let l := d.block o 32
    let plain := fun (k : Nat) => (d.keyid k).mode ≠ .verified
    let frame := fun (e : Dev) (k a m : Nat) => (∀ y, a / 64 ≤ y → y ≤ (a + m - 1) / 64 → tget d.mem.tags y 0 = d.keyTag k) →
      ∀ z, z < a ∨ a + m ≤ z → cget e.mem.cells z = cget d.mem.cells z
    d.ime.sealed = false → Intact d →
    (HasTurn d n sl 0x0C o → ∀ x, d.fillArgs o = .inr x → x.pattern.toNat = field l 0x10 8 ∧
      (∀ a m, x.dest = .mem a m → field l 0 8 = x.key * 2 ^ 48 + a ∧ m = field l 8 8 ∧
        (plain x.key → d.refuse 0 x.key a m true = none → (marlBase ≤ a → (d.arb 49 n).quar = false) →
          Makes (.fillDone n sl .clean) s [.mem, .noc, .seq, .ops] fun e => Finishes d e o ∧
            (∀ j < m / 8, ∀ h < 8, cget e.mem.cells (a + 8 * j + h) =
              some ((((if x.xor then x.pattern ^^^ BitVec.ofNat 64 (a + 8 * j) else x.pattern) >>> (8 * h)).setWidth 8))) ∧
            frame e x.key a m)) ∧
      (∀ key m, x.dest = .rows key m → Makes (.fillDone n sl .clean) s [.fab, .seq, .ops] fun e => Finishes d e o ∧
        (∀ j < m, tget e.fab.bram (key + j) {} = {
          word := codeword (rowLoc (key + j)) (if x.xor then x.pattern ^^^ BitVec.ofNat 64 ((key + j) % 1024) else x.pattern) }) ∧
        (∀ y, y < key ∨ key + m ≤ y → tget e.fab.bram y {} = tget d.fab.bram y {}) ∧
        e.fab = { d.fab with bram := e.fab.bram })) ∧
    (HasTurn d n sl 0x0D o → ∀ ks a kd t m bytes, d.rmovArgs o = .inr (ks, a, kd, t, m) → plain ks → plain kd →
      d.refuse 0 ks a m false = none → d.refuse 0 kd t m true = none → (d.arb 49 n).quar = false →
      cgetBytes d.mem.cells a m = some bytes → (∀ j < m, tget d.mem.tags ((a + j) / 64) 0 = d.keyTag ks) →
      field l 0 8 = ks * 2 ^ 48 + a ∧ field l 8 8 = kd * 2 ^ 48 + t ∧ m = 1024 * field l 0x10 4 ∧
      Makes (.rmovDone n sl .clean) s [.mem, .noc, .seq, .ops] fun e => Finishes d e o ∧
        (∀ j < m, cget e.mem.cells (t + j) = bytes[j]?) ∧ frame e kd t m) ∧
    (HasTurn d n sl 0x0E o → d.pcie.linkUp = true → o.a.toNat < 2 ^ 7 → d.vfShut o.part = false → (d.arb 0 (o.part + 1)).quar = false → ∀ x, d.dmaArgs o = .inr x →
      plain x.key → (∀ w, d.refuse (2 + o.part) x.key x.addr x.len w = none) →
      let done := fun (e : Dev) => Finishes d e o ∧ tget e.pcie.dmaCode o.part 0 = 0 ∧ tget e.pcie.dmaBytes o.part 0 = x.len
      x.host = field l 8 8 ∧ field l 0x10 8 = x.key * 2 ^ 48 + x.addr ∧ x.len = field l 0x18 8 ∧
      (x.out = false → host.length = x.len → Makes (.dmaDone n sl host .clean) s [.pcie, .evt, .mem, .seq, .ops] fun e =>
        done e ∧ e.pcie.hostMem = d.pcie.hostMem ∧ (x.irq = false ∨ o.part = 0 → e.evt = d.evt) ∧
        (x.irq = true → o.part ≠ 0 → e.evt = (d.raise o.part 1).evt) ∧
        (∀ j < x.len, cget e.mem.cells (x.addr + j) = host[j]?) ∧ frame e x.key x.addr x.len) ∧
      (x.out = true → Makes (.dmaDone n sl host .clean) s [.pcie, .evt, .seq, .ops] fun e =>
        done e ∧ (∀ bytes, cgetBytes d.mem.cells x.addr x.len = some bytes →
          (∀ j < x.len, tget d.mem.tags ((x.addr + j) / 64) 0 = d.keyTag x.key) →
          ∀ j < x.len, cget e.pcie.hostMem (x.host + j) = bytes[j]?))) ∧
    (∀ y, d.op n sl = some y → d.mustWait y = true → exec (.fillDone n sl .clean) s = .next s ∧
      exec (.rmovDone n sl .clean) s = .next s ∧ exec (.dmaDone n sl host .clean) s = .next s))

/-- R322, R502 to R511, R524. -/
def Obligations.ObservationSetup : Prop :=
  (∀ (i : Issue) (r a b : BitVec 5) (sl : Nat) (s : State), Up s →
    let d := s.dev
    let n := i.thread
    let va := (d.thr n).reg a
    let vb := (d.thr n).reg b
    let p := va.toNat % 2 ^ 7
    let x := d.part p
    let f := fetched d i
    let can := fun (dop len : Nat) => CanPost d i dop r a b p sl ∧ mayName n p false = true ∧ va.toNat < 2 ^ 7 ∧
      vb.toNat % 8 = 0 ∧ Intact f ∧ f.mayLoad n vb.toNat len = true
    let o := fun (dop : Nat) => posting d i dop a b p sl
    let q := fun (dop : Nat) => posted d i r (o dop)
    let becomes := fun (e : Dev) (y : Part) => e.part p = y ∧ ∀ k, k ≠ p → e.part k = d.part k
    (can 0x0F (f.prbLen vb.toNat) →
      let q := q 0x0F
      let o := o 0x0F
      let c := Instr.prb i r a b
      let l := q.block o (q.prbLen vb.toNat)
      let sel := selectionOf l
      (field l 8 4 ≠ 0 → d.boot.locked = true → d.feat 10 = false → From q c s [.seq, .ops] fun e => EndsWith q e o 0x0910 10) ∧
      ((field l 8 4 = 0 ∨ (d.boot.locked = true ∧ d.feat 10 = true)) →
        (∀ w, q.prbFault p l = some w → From q c s [.seq, .ops] fun e => EndsWith q e o 0x0913 w) ∧
        (q.prbFault p l = none → x.state = .running → From q c s [.parts] fun e =>
          becomes e { x with selNext := x.selNext ++ [(sel, n, sl)] }) ∧
        (q.prbFault p l = none → x.state ≠ .running → From q c s [.parts, .seq, .ops] fun e => Finishes q e o ∧
          becomes e { x with sel := some sel, eng := { x.eng with probes := [] }, trace := (e.part p).trace } ∧
          (e.part p).trace = { x.trace with
            state := if sel.tmode = 0 then 0 else if sel.tstart then 1 else 2, first := decide (sel.tmode ≠ 0), wrapped := false,
            lost := 0, lostNow := 0, wptr := 0, written := 0, post := 0, hw := x.cycle.toNat }))) ∧
    (can 0x10 (f.trigLen vb.toNat) →
      let q := q 0x10
      let o := o 0x10
      let c := Instr.trig i r a b
      let l := q.block o (q.trigLen vb.toNat)
      (∀ w, q.trigFault p l = some w → From q c s [.seq, .ops] fun e => EndsWith q e o 0x0913 w) ∧
      (q.trigFault p l = none → x.state = .running → From q c s [.parts] fun e =>
        becomes e { x with trigNext := x.trigNext ++ [(trigPrograms l, n, sl)] }) ∧
      (q.trigFault p l = none → x.state ≠ .running → From q c s [.parts, .obs, .seq, .ops] fun e => Finishes q e o ∧
        becomes e { x with trace := { x.trace with hw := x.cycle.toNat } } ∧
        ∀ u < 16, ((field l 0 2).testBit u = true → (∃ prog, (u, prog) ∈ trigPrograms l ∧
            e.trig u = { armed := true, state := 0, count := 0, prog := prog, prev := none }) ∧ x.trigs.getLsbD u = true) ∧
          ((field l 0 2).testBit u = false → e.trig u = d.trig u)))) ∧
  (∀ (m : Master) (p u j : Nat) (v : Word) (s : State), Allowed m s → s.dev.rst.svc = none → 1 ≤ p → p ≤ 64 →
    let d := s.dev
    let x := d.part p
    let w := v &&& 0x0300FFFF0000FFFF
    let held := fun (f : Part → Bool) => ∃ k, 1 ≤ k ∧ k ≤ 64 ∧ k ≠ p ∧ f (d.part k) = true
    (x.trace.state = 0 → d.tallocOk p w = true → Makes (.traceAllocWrite m p v) s [.parts] fun e =>
      e.part p = { x with talloc := w } ∧ ∀ k, k ≠ p → e.part k = d.part k) ∧
    ((x.trace.state ≠ 0 ∨ d.tallocOk p w = false) → exec (.traceAllocWrite m p v) s = .next s) ∧
    Makes (.obsTownWrite m p v) s [.parts, .obs] fun e => (∀ k, k ≠ p → e.part k = d.part k) ∧
      e.part p = { x with trigs := (e.part p).trigs, pout := (e.part p).pout } ∧
      (u < 16 → (held (fun y => y.trigs.getLsbD u) → (e.part p).trigs.getLsbD u = x.trigs.getLsbD u) ∧
        (¬ held (fun y => y.trigs.getLsbD u) → (e.part p).trigs.getLsbD u = v.getLsbD u) ∧
        e.trig u = (if x.trigs.getLsbD u = true ∧ (e.part p).trigs.getLsbD u = false then { d.trig u with armed := false }
          else d.trig u)) ∧
      (j < 32 → (held (fun y => y.pout.getLsbD j) → (e.part p).pout.getLsbD j = x.pout.getLsbD j) ∧
        (¬ held (fun y => y.pout.getLsbD j) → (e.part p).pout.getLsbD j = v.getLsbD (16 + j))))

/-- R520 to R523, R591, R599, R600, R603. -/
def Obligations.PinsAndTestPort : Prop :=
  (∀ (b volts : Nat) (cells : BitVec 864) (code : BitVec 8) (s : State),
    let d := s.dev
    let t := d.tap
    (d.boot.straps.getLsbD 2 = true →
      (∃ w, Does .idcode s { d with tap := { t with ir := .idcode, dr := w } } ∧ w.toNat % 2 = 1 ∧
        w.toNat / 2 ^ 12 % 2 ^ 16 = 0x3208 ∧ w.toNat / 2 ^ 28 = s.fuse.majorRev.toNat % 16) ∧
      Does (.samplePreload cells) s { d with tap := { t with ir := .sample, boundary := cells } } ∧
      Does .extest s { d with tap := { t with ir := .extest } } ∧
      Does .extestPulse s { d with tap := { t with ir := .extestPulse } } ∧
      Does .extestTrain s { d with tap := { t with ir := .extestTrain } } ∧
      Does .dbgacc s { d with tap := { t with ir := .dbgacc, dr := t.dbg } } ∧
      (¬ code.toNat ∈ [0x01, 0x02, 0x03, 0x04, 0x05, 0x10] → Does (.bypass code) s { d with tap := { t with ir := .bypass, dr := 0 } })) ∧
    (d.boot.straps.getLsbD 2 = false → ∀ c ∈ [.idcode, .samplePreload cells, .extest, .extestPulse, .extestTrain, .dbgacc,
      .bypass code], exec c s = .next s) ∧
    (b < 18 → Makes (.vccioUndervoltage b) s [.fab] (fun e => b ∈ e.fab.vccioLow ∧ e.padOut (48 * b) = .hiz ∧
        ∀ k, k ≠ b → (k ∈ e.fab.vccioLow ↔ k ∈ d.fab.vccioLow)) ∧
      Makes (.vccioRestored b volts) s [.fab] fun e => ¬ b ∈ e.fab.vccioLow ∧ tget e.fab.vccio b 3 = volts % 4 ∧
        ∀ k, k ≠ b → (k ∈ e.fab.vccioLow ↔ k ∈ d.fab.vccioLow) ∧ tget e.fab.vccio k 3 = tget d.fab.vccio k 3)) ∧
  (∀ (v : BitVec 128) (s : State), Up s →
    let d := s.dev
    let t := d.tap
    let sta := fun (w : BitVec 128) => w.toNat / 4 % 4
    d.boot.straps.getLsbD 2 = true → t.ir = .dbgacc →
    (t.busy = false → (v.toNat % 4 = 1 ∨ v.toNat % 4 = 2) →
      let may := d.feat 11 = true ∧ d.obs.en = true ∧ d.debugMay s.fuse (dbgAddr v) (decide (v.toNat % 4 = 2)) = true
      (may → Makes (.dbgaccUpdate v) s [.tap] fun e => e.tap = { t with dbg := e.tap.dbg, busy := true } ∧
        sta e.tap.dbg = 1 ∧ e.tap.dbg.toNat / 2 ^ 8 = v.toNat / 2 ^ 8 ∧ e.tap.dbg.toNat % 4 = v.toNat % 4) ∧
      (¬ may → Makes (.dbgaccUpdate v) s [.tap, .obs, .evt] fun e => e.tap.busy = false ∧ sta e.tap.dbg = 2 ∧
        e.obs = { d.obs with refused := sat1 d.obs.refused } ∧
        e.evt = (d.post 0x0C10 (addrDetail (addrOf (dbgAddr v)))).evt)) ∧
    (t.busy = true → t.dbg.toNat % 4 = 1 →
      let x := dbgAddr t.dbg &&& ~~~7
      let off := addrOf x - 0x032000000000
      (0x032000000000 ≤ addrOf x → ¬ (0x1000000 ≤ off ∧ off < 0x1400000) → Makes (.debugAccessDone .clean) s [.tap] fun e =>
        e.tap = { t with busy := false, dbg := e.tap.dbg } ∧ sta e.tap.dbg = 0 ∧
        e.tap.dbg.toNat / 2 ^ 64 = leNat (regBytes (d.readReg s.fuse) off 8))) ∧
    (t.busy = false → exec (.debugAccessDone .clean) s = .next s)) ∧
  (∀ (m : Master) (b : Nat) (v : Word) (s : State), Allowed m s → b < 18 →
    let d := s.dev
    ((∀ p, 1 ≤ p → p ≤ 64 → (d.part p).state = .none ∨ (d.part p).banks.getLsbD b = false) →
      Makes (.iobankWrite m b v) s [.fab] fun e => tget e.fab.iobank b 1 = v &&& 0x00FFFFFFFFFFFF0B ∧
        e.fab = { d.fab with iobank := e.fab.iobank } ∧ ∀ k, k ≠ b → tget e.fab.iobank k 1 = tget d.fab.iobank k 1) ∧
    (∀ p, d.bankOwner b = p → 1 ≤ p → (d.part p).state = .blank → Makes (.iobankWrite m b v) s [.fab, .parts, .pins] fun e =>
      tget e.fab.iobank b 1 = v &&& 0x00FFFFFFFFFFFF0B ∧ (e.part p).safe = true) ∧
    (∀ p, d.bankOwner b = p → 1 ≤ p → (d.part p).state ≠ .blank → exec (.iobankWrite m b v) s = .next s))

/-- R247 to R254, R323, R324, R481. -/
def Obligations.StartRoundAndSysfault : Prop :=
  (∀ (i : Issue) (r a b : BitVec 5) (sl : Nat) (s : State), Up s →
    let d := s.dev
    let va := (d.thr i.thread).reg a
    let vb := (d.thr i.thread).reg b
    let p := va.toNat % 2 ^ 7
    let o := fun (dop part : Nat) => posting d i dop a b part sl
    let q := fun (dop part : Nat) => posted d i r (o dop part)
    (CanPost d i 0x11 r a b p sl → i.thread = 0 → 1 ≤ p → p ≤ 64 → va.toNat = 0x100 + p → vb.toNat % 8 = 0 → Intact (fetched d i) →
      (fetched d i).mayLoad 0 vb.toNat 32 = true → From (q 0x11 p) (.censRegister i r a b) s [.parts, .seq, .ops] fun e =>
        Finishes (q 0x11 p) e (o 0x11 p) ∧ e.part p = { d.part p with
          exp := BitVec.ofNat 256 (leNat ((q 0x11 p).block (o 0x11 p) 32)) } ∧ ∀ k, k ≠ p → e.part k = d.part k) ∧
    (CanPost d i 0x12 r a b 0 sl → va = 1 → vb = 0 → OwnTickets d 0x12 → From (q 0x12 0) (.donewHold i r a b) s [.start, .seq, .ops] fun e =>
      e.start = { d.start with waiting := false, th := none, ts := none, group := [], hold := true } ∧
      (∀ y ∈ e.ops, y.dop = 0x12 → y.a.toNat % 2 = 1) ∧ (d.releases = [] → Finishes (q 0x12 0) e (o 0x12 0))) ∧
    (CanPost d i 0x12 r a b 0 sl → va = 0 → From (q 0x12 0) (.donewRelease i r a b) s [.start] fun e =>
      e.start = { d.start with waiting := true })) ∧
  (∀ (n th : Nat) (f : Frame) (v : Bool) (m : Master) (s : State), Up s →
    let d := s.dev
    let x := d.start
    let idle := fun (y : Start) => { y with waiting := false, th := none, ts := none, group := [] }
    let fails := fun (q : Dev) (c : Instr) (cause : Nat) => From q c s [.start, .evt, .seq, .ops] fun e =>
      e.start = { idle x with failed := true } ∧ e.evt = (q.post 0x011A cause).evt ∧
      (∀ y ∈ e.ops, y.dop = 0x12 → y.a.toNat % 2 = 1) ∧ (d.releases = [] → SameBut [.start, .evt] q e)
    OwnTickets d 0x12 →
    (x.waiting = true → x.hold = true → d.ime.sealed = false → (∀ p ∈ d.startGroup, (d.part p).state = .placed) →
      Makes .doneHoldRelease s [.start, .evt] fun e => e.start = { x with hold := false, group := d.startGroup } ∧
        e.evt = (d.post 0x0118 d.startGroup.length).evt) ∧
    ((∃ p ∈ d.startGroup, (d.part p).state ≠ .placed) → exec .doneHoldRelease s = .next s) ∧
    (x.hold = true → exec (.doneNRise th) s = .next s) ∧
    (x.hold = false → (x.waiting = false ∨ x.th ≠ none) → Does (.doneNRise th) s { d with start := { x with line := true } }) ∧
    (x.hold = false → x.waiting = true → x.th = none →
      (d.startMaster = false → Does (.doneNRise th) s { d with start := { x with line := true, th := some th } }) ∧
      (d.startMaster = true → Makes (.doneNRise th) s [.start, .ring, .ime, .evt] fun e =>
        ((∀ j, (d.nk j).txSeq < 2 ^ 32) → e.evt = d.evt) ∧ e.start = { x with line := true, th := some th, ts := some (th + 20000) } ∧
        ((d.onRing = false ∨ d.ring.size ≤ 1) → SameBut [.start] d e))) ∧
    (∀ w l, let q := (tookIn d n f w).forward n (bareFrame { f with data := l })
     let ts := leNat (l.take 8)
     Opens d n f w l → f.type = 2 → f.rsvd = false → d.startMaster = false → x.waiting = true → x.hold = false → x.ts = none →
      ((d.ring.locked = false ∨ ts < d.ring.time.toNat + 2000) → fails q (.startFrameReceived n f w) 2) ∧
      (d.ring.locked = true → d.ring.time.toNat + 2000 ≤ ts → From q (.startFrameReceived n f w) s [.start] fun e =>
        e.start = { x with ts := some ts })) ∧
    (x.waiting = true → x.ts ≠ none →
      (x.sfLine = false → fails d .startTimeReached 3) ∧
      (x.sfLine = true → Makes .startTimeReached s [.start, .evt, .seq, .ops, .fab, .parts, .pins] fun e =>
        let go := fun (p : Nat) => p ∈ d.startGroup ∧ (d.part p).state = .placed
        e.start = { idle x with starts := sat1 x.starts, tStart := BitVec.ofNat 32 d.evt.time.toNat } ∧
        (∀ p, go p → (e.part p).state = .running ∧ (e.part p).cycle = 0 ∧ (e.part p).safe = false) ∧
        (∀ p, ¬ go p → e.part p = d.part p) ∧ e.evt = (d.post 0x0119 (d.startGroup.filter fun p =>
          decide ((d.part p).state = .placed)).length).evt ∧ ∀ y ∈ e.ops, y.dop = 0x12 → y.a.toNat % 2 = 1)) ∧
    (x.waiting = true → x.hold = true → (∃ y ∈ d.releases, y.b ≠ 0) → fails d .donewTimeout 1) ∧
    (x.waiting = true → x.th ≠ none → x.ts = none → d.startMaster = false → fails d .startFrameTimeout 2) ∧
    Does .doneNFall s { d with start := { x with line := false } } ∧
    (x.sfLine = true → Makes .sysfaultNFall s [.start, .evt, .parts] fun e =>
      let hit := fun (p : Nat) => (d.part p).state = .running ∧ (d.part p).exempt = false
      e.start = { x with sfLine := false, sfSeen := true } ∧
      (∀ p, 1 ≤ p → p ≤ 64 → hit p → e.part p = { d.part p with freeze := (d.part p).freeze ++ [.sysfault] }) ∧
      (∀ p, ¬ (1 ≤ p ∧ p ≤ 64 ∧ hit p) → e.part p = d.part p) ∧ e.evt = (d.post 0x0120 (d.partsIn fun q =>
        decide (q.state = .running) && !q.exempt).length).evt) ∧
    (d.drivesFault = false → Does .sysfaultNRise s { d with start := { x with sfLine := true } }) ∧
    (d.drivesFault = true → exec .sysfaultNRise s = .next s) ∧
    (Allowed m s → d.boot.phase = .running →
      (Makes (.sysfaultClear m) s [.start, .evt] fun e => e.start = { x with sfCensus := false, sfScrub := false } ∧
        e.evt = if (x.sfCensus ∨ x.sfScrub) ∧ x.sfFw = false then (d.post 0x0122 0).evt else d.evt) ∧
      (Makes (.sysfaultFwAssert m v) s [.start, .evt] fun e => e.start = { x with sfFw := v } ∧
        e.evt = if x.sfCensus ∨ x.sfScrub ∨ x.sfFw = v then d.evt
          else if v then (d.post 0x0121 4).evt else (d.post 0x0122 0).evt)))

/-- R429 to R432, R469, R473, R480. -/
def Obligations.NorakLinkAndKeys : Prop :=
  ∀ (n tx rx : Nat) (h : Hello) (m : AuthMsg) (mac : BitVec 384) (s : State), Up s → n < 4 →
    let d := s.dev
    let k := d.nk n
    let y := d.rport n
    let init := n % 2 = 1
    let others := fun (e : Dev) => ∀ j, j ≠ n → e.rport j = d.rport j ∧ e.nk j = d.nk j
    let posts := fun (e : Dev) (code det : Nat) => e.evt = (d.postSrc code det 0 (norakStop n)).evt
    let fails := fun (c : Instr) (cause : Nat) => Makes c s [.evt, .ime] fun e => others e ∧ posts e 0x0431 (n + cause * 256) ∧
      e.nk n = { k with state := .retryWait, helloI := none, helloR := none, authOwn := false, authPeer := none }
    let idle := { k with
      state := .down, helloI := none, helloR := none, authOwn := false, authPeer := none, tx := none, rx := none, rxOld := none }
    let shakes := fun (e : Dev) => (e.nk n).state = .handshake ∧ (e.nk n).helloR = none ∧ (e.nk n).authPeer = none ∧
      (init → ∃ o, (e.nk n).helloI = some o ∧ o.serial.toNat = s.fuse.serial.toNat % 2 ^ 64) ∧ (¬ init → (e.nk n).helloI = none)
    (y.state = .training →
      (8 ≤ tx → 8 ≤ rx → Makes (.norakPortTrained n tx rx []) s [.evt, .ime, .ring, .rel] fun e => others e ∧ shakes e ∧
        (e.rport n).state = .sealing ∧ (e.rport n).txLanes = (if 16 ≤ tx ∧ 16 ≤ rx then 16 else 8) ∧
        (e.rport n).rxLanes = (e.rport n).txLanes ∧ (e.rport n).degraded = decide (tx < 16 ∨ rx < 16) ∧
        (e.rport n).retry = y.retry ∧ (e.rport n).txq = y.txq) ∧
      ((tx < 8 ∨ rx < 8) → Makes (.norakPortTrained n tx rx []) s [.evt, .ring, .rel] fun e => others e ∧
        posts e 0x0604 (n + 512) ∧ e.rport n = { y with state := .down, txLanes := 0, rxLanes := 0 })) ∧
    (y.state ≠ .training → exec (.norakPortTrained n tx rx []) s = .next s) ∧
    (y.state = .down → d.mayTrain n = true → Makes (.norakTrainingRetry n) s [.ime, .ring] fun e => others e ∧
      e.rport n = { y with state := .training, peerPos := none } ∧ e.nk n = idle) ∧
    (y.state ≠ .down → exec (.norakTrainingRetry n) s = .next s) ∧
    ((y.state = .up ∨ y.state = .sealing) → Makes (.norakLinkDrop n false) s [.evt, .ime, .ring] fun e => others e ∧
      posts e 0x0604 (n + 768) ∧ (e.rport n).txLanes = 0 ∧ (e.rport n).rxLanes = 0 ∧
      (d.mayTrain n = true → (e.rport n).state = .training ∧ e.nk n = idle) ∧
      (d.mayTrain n = false → (e.rport n).state = .down ∧ e.nk n = k)) ∧
    (k.state = .handshake →
      (¬ init → k.helloI = none → Makes (.helloI n h) s [.ime] fun e => others e ∧ (e.nk n).helloI = some h ∧
        (e.nk n).authOwn = true ∧ ∃ o, (e.nk n).helloR = some o ∧ o.serial.toNat = s.fuse.serial.toNat % 2 ^ 64) ∧
      (init → k.helloI ≠ none → k.helloR = none → Makes (.helloR n h) s [.ime] fun e => others e ∧
        e.nk n = { k with helloR := some h, authOwn := true }) ∧
      (∀ i r, k.helloI = some i → k.helloR = some r → k.authPeer = none →
        let peer := if n % 2 = 1 then r else i
        (authCause s.fuse k.peer n i r m = none → Makes (.auth n m) s [.ime] fun e => others e ∧
          e.nk n = { k with authPeer := some m, seen := peer.serial }) ∧
        (∀ c, authCause s.fuse k.peer n i r m = some c → fails (.auth n m) c) ∧
        (Config.chainOk s.fuse.rootRsaHash s.fuse.rootSlhHash m.chain = false → fails (.auth n m) 1) ∧
        (authCause s.fuse k.peer n i r m = none → k.peer ≠ 0 → k.peer = peer.serial)) ∧
      (∀ i r a, k.helloI = some i → k.helloR = some r → k.authPeer = some a →
        (finishedMac n i r a (n % 2 ≠ 1) ≠ mac → fails (.finished n mac) 4) ∧
        (finishedMac n i r a (n % 2 ≠ 1) = mac → y.retry = [] → y.txq = [] →
          Makes (.finished n mac) s [.evt, .ime, .ring] fun e => others e ∧ posts e 0x0430 n ∧ (e.rport n).state = .up ∧
            (e.nk n).state = .sealed ∧ (e.nk n).txSeq = 0 ∧ (e.nk n).rxSeq = 0 ∧ (e.nk n).epoch = 0 ∧
            (e.nk n).handshakes = sat1 k.handshakes ∧ (e.nk n).tx ≠ none ∧ (e.nk n).rx ≠ none ∧ (e.nk n).helloI = none)) ∧
      fails (.norakHandshakeTimeout n) 6) ∧
    (k.state ≠ .handshake → exec (.norakHandshakeTimeout n) s = .next s ∧ exec (.helloI n h) s = .next s ∧
      exec (.helloR n h) s = .next s ∧ exec (.auth n m) s = .next s ∧ exec (.finished n mac) s = .next s) ∧
    (k.state = .retryWait → y.state = .sealing → Makes (.norakHandshakeRetry n) s [.ime, .ring] fun e => others e ∧ shakes e ∧
      e.rport n = y) ∧
    (∀ t, k.state = .sealed → k.tx = some t → Makes (.norakKeyUpdate n) s [.evt, .ime] fun e => others e ∧
      posts e 0x0433 (n + (k.epoch + 1).toNat * 256) ∧ e.nk n = { k with
        tx := some (Config.hkdf t (label "norak upd")), txSeq := 0, epoch := k.epoch + 1 })

/-- R323, R433, R475 to R480, R490, R491, R494, R498, R499. -/
def Obligations.NorakFrames : Prop :=
  (∀ (i : Issue) (r a b : BitVec 5) (sl : Nat) (s : State), Up s →
    let d := s.dev
    let va := (d.thr i.thread).reg a
    let p := va.toNat % 2 ^ 7
    let o := posting d i 0x11 a b p sl
    let q := posted d i r o
    CanPost d i 0x11 r a b p sl → mayName i.thread p false = true → va.toNat = 0x200 + p → (d.thr i.thread).reg b = 0 →
    ((d.part p).exp = 0 → From q (.censRound i r a b) s [.seq, .ops] fun e => EndsWith q e o 0x0913 0x80000000) ∧
    ((d.part p).exp ≠ 0 → d.ring.circulating = true → From q (.censRound i r a b) s [.ring] fun e =>
      e.ring = { d.ring with waitNext := d.ring.waitNext ++ [(i.thread, sl, p)] }) ∧
    ((d.part p).exp ≠ 0 → d.ring.circulating = false → (d.onRing = false ∨ d.ring.size ≤ 1) → d.ring.position < 64 →
      From q (.censRound i r a b) s [.start, .evt, .seq, .ops, .ring] fun e =>
        e.ring.circulating = false ∧ e.ring.round = d.ring.round + 1 ∧ e.ring.present = 1 ∧
        e.ring.rounds = sat1 d.ring.rounds ∧ e.op i.thread sl = none)) ∧
  (∀ (n lfn : Nat) (f : Frame) (offset : BitVec 32) (hops : BitVec 6) (s : State), Up s →
    let d := s.dev
    let y := d.rport n
    let others := fun (e : Dev) => ∀ j, j ≠ n → e.rport j = d.rport j ∧ e.nk j = d.nk j
    (n < 4 → y.state = .up → y.txq = [] → (∃ g ∈ y.retry, g.lfn = lfn) →
      let later := (y.retry.dropWhile fun g => decide (g.lfn ≠ lfn)).drop 1
      (Makes (.norakAck n lfn) s [.ring, .ime] fun e => others e ∧ e.nk n = d.nk n ∧ e.rport n = { y with retry := later }) ∧
      (Makes (.norakNak n lfn) s [.ring, .ime, .evt] fun e => others e ∧ (e.rport n).replays = sat1 y.replays ∧
        (e.rport n).retry.map (fun g => { g with seq := 0, epoch := false }) =
          later.map (fun g => { g with seq := 0, epoch := false }) ∧
        ((d.nk n).txSeq + later.length ≤ 2 ^ 32 → (e.nk n).txSeq = (d.nk n).txSeq + later.length))) ∧
    (∀ w l, Opens d n f w l → f.rsvd = false →
      let q := tookIn d n f w
      (f.type = 1 → f.dst = d.ring.position →
        let p := f.dpart
        let x := d.part p
        let c := Instr.cutnet n f w none
        ((p = 0 ∨ 64 < p ∨ x.cut = false) → From q c s [.evt] fun e =>
          e.evt = (q.postSrc 0x0613 (p % 128 + f.src * 256) p (norakStop n)).evt) ∧
        (1 ≤ p → p ≤ 64 → x.cut = true →
          (f.gen ≠ x.gen → From q c s [.parts, .evt] fun e => (e.part p).stale = sat1 x.stale ∧
            (e.part p).eng = x.eng ∧ (e.part p).state = x.state) ∧
          (f.gen = x.gen → d.inSet p f = false → From q c s [.evt] fun e =>
            e.evt = (q.postSrc 0x0613 (p + f.src * 256) p (norakStop n)).evt) ∧
          (f.gen = x.gen → d.inSet p f = true → f.cycle ≠ x.cycle → f.cycle ≠ x.cycle + 1 → x.state = .running →
            x.eng.faults = [] → Answers c s fun t => (t.dev.part p).state ≠ .running ∧ (t.dev.part p).cycle = x.cycle) ∧
          (f.gen = x.gen → d.inSet p f = true → (f.cycle = x.cycle ∨ f.cycle = x.cycle + 1) → From q c s [.parts] fun e =>
            (∀ j, j ≠ p → e.part j = d.part j) ∧ e.part p = { x with eng := { x.eng with cutBuf := x.eng.cutBuf ++ [{
              src := f.src, spart := f.spart, round := f.round, frag := f.frag, cycle := f.cycle.toNat, fault := f.fault,
              codes := codesOf l, port := n, data := l }] } }))) ∧
      (f.type = 5 → f.src ≠ d.ring.position → Answers (.gfreeze n f w) s fun t => ∀ p, 1 ≤ p → p ≤ 64 →
        let x := d.part p
        (x.cut = true ∧ x.group = f.group ∧ x.gen = f.gen ∧ x.state = .running ∧ x.eng.faults = [] →
          (t.dev.part p).state ≠ .running ∧ (t.dev.part p).cycle = x.cycle ∧ ∀ m ∈ d.plotsOf p, (t.dev.plot m).rewind = true) ∧
        ((x.cut = false ∨ x.group ≠ f.group ∨ x.gen ≠ f.gen) → t.dev.part p = x)) ∧
      (f.type = 3 → f.src ≠ d.ring.position → From q (.census n f w) s [.ring, .ime, .evt, .start] fun e =>
        e.ring.origin = BitVec.ofNat 8 f.src ∧ ((∀ p, 1 ≤ p → p ≤ 64 → d.censusStatus p ≠ 2) → e.start = d.start ∧
          ((∀ j, (d.nk j).txSeq < 2 ^ 32) → e.evt = d.evt))) ∧
      (f.type = 3 → f.src = d.ring.position → d.ring.circulating = true → f.gen = d.ring.round → d.ring.waiters = [] →
        d.ring.waitNext = [] → From q (.census n f w) s [.ring, .evt] fun e => e.ring.circulating = false ∧
          e.ring.rounds = sat1 d.ring.rounds ∧ e.ring.round = d.ring.round)) ∧
    (InOrder d n f → (d.nk n).rx ≠ none → frameOk f = false →
      let q := tookIn d n f { tag := (d.nk n).tagFor f }
      From q (.malformedFrame n f) s [.ring, .evt] fun e =>
      (e.rport n).malformed = y.malformed + 1 ∧ e.evt = (q.postSrc 0x0606 (n + f.type.toNat * 256) 0 (norakStop n)).evt) ∧
    (∀ w, n < 4 → y.state = .up → (d.nk n).state = .sealed → f.type = 1 → f.rsvd = false →
      let rejected := fun (e : Dev) => (d.goesOn f = false → others e) ∧ e.rport n = { y with
        fecOk := satAdd y.fecOk w.corrected, fecBad := satAdd y.fecBad w.broken,
        ctl := some { nak := true, lfn := (y.rxLfn + 4095) % 4096 } }
      (w.broken = 0 → (d.nk n).opens f w.tag d.evt.time = none →
        ((d.nk n).fails.filter fun t => decide (d.evt.time.toNat < t.toNat + 250000)).length < 7 →
        Makes (.cutnet n f w none) s [.ime, .ring, .evt] fun e => rejected e ∧ (e.nk n).tagFail = sat1 (d.nk n).tagFail) ∧
      (w.broken ≠ 0 → Makes (.cutnet n f w none) s [.ime, .ring, .evt] fun e => rejected e ∧ e.nk n = d.nk n)) ∧
    (∀ w, n < 4 → y.state = .up → (d.nk n).state = .sealed → f.type = 1 → f.rsvd = false → w.broken = 0 →
      (d.nk n).opens f w.tag d.evt.time ≠ none → f.lfn ≠ y.rxLfn → Makes (.cutnet n f w none) s [.ring] fun e => others e ∧
        e.rport n = { y with fecOk := satAdd y.fecOk w.corrected, fecBad := satAdd y.fecBad 0 }) ∧
    (d.ring.circulating = true → d.ring.waitNext = [] → d.ring.waiters = [] → Makes .censusTimeout s [.ring, .evt] fun e =>
      e.ring = { d.ring with circulating := false } ∧ e.evt = (d.post 0x0621 (d.ring.round.toNat + 256)).evt) ∧
    (d.ring.circulating = false → exec .censusTimeout s = .next s) ∧
    (d.feat 6 = true → d.ring.auto = true → d.onRing = true → d.ring.position = 0 → d.ring.circulating = false →
      1 < d.ring.size → d.canCarry 0 true = true → (d.rport 1).retry.length < 256 →
      Makes .censusAutoPeriod s [.ring, .ime, .evt, .start] fun e => e.ring.circulating = true ∧ e.ring.round = d.ring.round + 1 ∧
        ∃ g, (e.rport 1).retry = (d.rport 1).retry ++ [g] ∧ g.type = 3 ∧ g.src = 0 ∧ g.dst = 0xFF) ∧
    (n < 4 → y.state = .up → d.onRing = true → d.ring.position ≠ 0 →
      Does (.time n offset) s { d with ring := { d.ring with
        offset := offset, time := d.ring.time + BitVec.ofInt 64 (offset.toInt / 1000) } } ∧
      (d.ring.locked = false → Makes (.ringTimeLock hops) s [.ring, .evt] fun e =>
        e.ring = { d.ring with locked := true, hops := hops } ∧ e.evt = (d.post 0x0631 hops.toNat).evt)))

/-- R298, R325 to R328, R400, R404, R412 to R416. -/
def Obligations.KeysAndRetirement : Prop :=
  (∀ (i : Issue) (r a b : BitVec 5) (sl k p : Nat) (s : State), Up s → i.thread = 0 →
    let d := s.dev
    let va := (d.thr 0).reg a
    let vb := (d.thr 0).reg b
    let o := fun (dop part : Nat) => posting d i dop a b part sl
    let q := fun (dop part : Nat) => posted d i r (o dop part)
    let z := seqAddr vb.toNat
    let othersK := fun (e : Dev) => ∀ j, j ≠ k → e.keyid j = d.keyid j
    let becomes := fun (e : Dev) (y : Part) => e.part p = y ∧ ∀ j, j ≠ p → e.part j = d.part j
    let zeroed := fun (e : Dev) (off n : Nat) => (∀ j < n, cget e.mem.cells (z + off + j) = some 0) ∧
      ∀ j, j < z + off ∨ z + off + n ≤ j → cget e.mem.cells j = cget d.mem.cells j
    let can := fun (len : Nat) (w : Bool) => vb.toNat % 8 = 0 ∧ Intact (fetched d i) ∧
      (if w then (fetched d i).mayStore 0 vb.toNat len else (fetched d i).mayLoad 0 vb.toNat len) = true
    (CanPost d i 0x13 r a b 0 sl → can 80 true → va.toNat = 0x10000 + 256 * k → k < 64 →
      let q := q 0x13 0
      let o := o 0x13 0
      let l := q.block o 96
      let c := Instr.keysetMemoryKey i r a b
      (d.boot.locked = false → From q c s [.mem, .seq, .ops] fun e => EndsWith q e o 0x0910 0xFFFFFFFF ∧ zeroed e 16 64) ∧
      (d.boot.locked = true →
        (∀ f, d.memoryKeyFault k l = some f → From q c s [.mem, .seq, .ops] fun e => EndsWith q e o f.1 f.2 ∧ zeroed e 16 64) ∧
        (d.memoryKeyFault k l = none → (field l 0 1 = 2 → d.metaReady = true) →
          From q c s [.mem, .ime, .seq, .ops] fun e => Finishes q e o ∧ zeroed e 16 64 ∧ othersK e ∧
            e.keyid k = { d.keyid k with
              state := .active, mode := if field l 0 1 = 1 then .sealed else if field l 0 1 = 2 then .verified else .plain,
              key := BitVec.ofNat 512 (field l 16 64), gen := (d.keyid k).gen + 1, drained := false, aborted := 0 }))) ∧
    (1 ≤ p → p ≤ 64 → d.boot.locked = true →
      (CanPost d i 0x13 r a b p sl → can 48 true → va.toNat = 0x20000 + p →
        let q := q 0x13 p
        let o := o 0x13 p
        let l := (q.block o 96).take 48
        ((d.part p).state ≠ .none → From q (.keysetImageKey i r a b) s [.mem, .parts, .seq, .ops] fun e => Finishes q e o ∧
          zeroed e 0 48 ∧ becomes e { d.part p with
            imageKey := if l.all (fun x => decide (x = 0)) then none else some (BitVec.ofNat 384 (leNat l)) }) ∧
        ((d.part p).state = .none → From q (.keysetImageKey i r a b) s [.mem, .evt, .seq, .ops] fun e =>
          EndsWith q e o 0x010A 1 ∧ zeroed e 0 48 ∧ e.evt = (q.post 0x010A 1 p).evt)) ∧
      (CanPost d i 0x13 r a b p sl → can 96 false → va.toNat = 0x30000 + p → (d.part p).state ≠ .none →
        let q := q 0x13 p
        let o := o 0x13 p
        let l := q.block o 96
        From q (.keysetTenantHashes i r a b) s [.parts, .seq, .ops] fun e => Finishes q e o ∧ becomes e { d.part p with
          hashes := if l.all (fun x => decide (x = 0)) then none
            else some (BitVec.ofNat 384 (field l 0 48), BitVec.ofNat 384 (field l 48 48)) })) ∧
    (CanPost d i 0x14 r a b 0 sl → k < 64 → vb = 0 →
      let q := q 0x14 0
      let o := o 0x14 0
      let x := d.keyid k
      let ends := fun (c : Instr) (reason : Nat) => From q c s [.seq, .ops] fun e => EndsWith q e o 0x0914 (reason * 2 ^ 24 + k)
      (va.toNat = 256 * k →
        ((k = 0 ∨ x.state ≠ .active) → ends (.keyretRetire i r a b) 1) ∧
        (k ≠ 0 → x.state = .active → d.inSomeSet k = true → ends (.keyretRetire i r a b) 3) ∧
        (k ≠ 0 → x.state = .active → d.inSomeSet k = false → From q (.keyretRetire i r a b) s [.ime] fun e => othersK e ∧
          e.keyid k = { x with state := .retiring, drained := false, aborted := 0, thread := 0, slot := sl })) ∧
      (va.toNat = 0x10000 + 256 * k →
        (x.state = .retired → From q (.keyretFree i r a b) s [.ime, .seq, .ops] fun e => Finishes q e o ∧ othersK e ∧
          e.keyid k = { x with state := .free }) ∧
        (x.state ≠ .retired → ends (.keyretFree i r a b) 4)))) ∧
  (∀ (k n : Nat) (s : State), Up s →
    let d := s.dev
    let x := d.keyid k
    let othersK := fun (e : Dev) => ∀ j, j ≠ k → e.keyid j = d.keyid j
    let posts := fun (e : Dev) (code det : Nat) => ∃ src < 256, e.evt = (d.postSrc code det 0 src).evt
    (x.state = .retiring → d.rst.svc = none → d.ime.sealed = false →
      (Makes (.keyidDrained k) s [.ime] fun e => othersK e ∧ e.keyid k = { x with drained := true }) ∧
      (x.drained = false → Makes (.retireTimeout k n) s [.ime, .evt] fun e => othersK e ∧
        e.keyid k = { x with drained := true, aborted := n } ∧ posts e 0x0415 (n % 2 ^ 16 * 2 ^ 16 + k)) ∧
      (x.drained = true → (∀ o, d.op x.thread x.slot = some o → o.dop = 0x14) → Makes (.keyidRetired k) s [.ime, .evt, .seq, .ops] fun e => othersK e ∧
        e.keyid k = { x with state := .retired, key := 0 } ∧ (∀ g, (g, k) ∉ e.ime.granules) ∧
        (∀ g, (g, k) ∈ d.ime.granules → e.granuleNodes g = [] ∧ e.granuleMacs g = []) ∧
        (∀ j w, 1 ≤ j → k < 64 → (e.rights j w).testBit k = false) ∧
        posts e 0x0414 (x.aborted % 2 ^ 16 * 2 ^ 16 + k) ∧ e.seq = (d.complete x.thread x.slot 0 x.aborted).seq) ∧
      (x.drained = false → exec (.keyidRetired k) s = .next s)) ∧
    (x.state ≠ .retiring → exec (.keyidDrained k) s = .next s ∧ exec (.retireTimeout k n) s = .next s ∧
      exec (.keyidRetired k) s = .next s))

/-- R333, R334, R537, R542, R544, R583, R584. -/
def Obligations.ManagementOperations : Prop :=
  (∀ (i : Issue) (r a b : BitVec 5) (sl k : Nat) (s : State), Up s →
    let d := s.dev
    let n := i.thread
    let va := (d.thr n).reg a
    let vb := (d.thr n).reg b
    let p := va.toNat % 2 ^ 7
    let z := seqAddr vb.toNat
    let o := fun (dop part : Nat) => posting d i dop a b part sl
    let q := fun (dop part : Nat) => posted d i r (o dop part)
    let can := fun (dop part len : Nat) => CanPost d i dop r a b part sl ∧ vb.toNat % 8 = 0 ∧
      (fetched d i).mayStore n vb.toNat len = true
    let writes := fun (e : Dev) (l : List Byte) => (∀ j < l.length, cget e.mem.cells (z + j) = l[j]?) ∧
      ∀ j, j < z ∨ z + l.length ≤ j → cget e.mem.cells j = cget d.mem.cells j
    (CanPost d i 0x15 r a b p sl → mayName n p true = true → va &&& 0xFFFFF8C00000FF80 = 0 → vb.toNat < 2 ^ 32 →
      let q := q 0x15 p
      let o := o 0x15 p
      let code := va.toNat / 2 ^ 16 % 2 ^ 16
      let v := va.toNat / 2 ^ 32 % 2 ^ 6
      let w := va.toNat / 2 ^ 40 % 2 ^ 3
      let good := 0xF000 ≤ code ∧ (v = 0 ∨ 16 ≤ v) ∧ w ≠ 1
      (good → From q (.evt i r a b) s [.evt, .seq, .ops] fun e =>
        EndsWith q e o 0 (if (q.evt.pf.prod + 1) % 4096 = q.evt.pf.cons % 4096 then 1 else 0) ∧
        ((q.evt.pf.prod + 1) % 4096 ≠ q.evt.pf.cons % 4096 →
          let x := tget e.evt.pf.slots q.evt.pf.prod {}
          x.code.toNat = code ∧ x.detail.toNat = vb.toNat ∧ x.part.toNat = p ∧ x.source = BitVec.ofNat 8 (0x80 + n) ∧
          x.time = d.evt.time ∧ e.evt.pf.prod = (q.evt.pf.prod + 1) % 4096)) ∧
      (¬ good → From q (.evt i r a b) s [.seq, .ops] fun e => EndsWith q e o 0x0913 0x80000000)) ∧
    (can 0x16 0 96 → va = 0 → From (q 0x16 0) (.thrm i r a b) s [.mem, .seq, .ops] fun e =>
      let l := (q 0x16 0).thermBlock
      Finishes (q 0x16 0) e (o 0x16 0) ∧ writes e l ∧ l.length = 96 ∧ field l 0 8 = d.thm.stepTime.toNat ∧
      field l 0x10 2 = d.thm.req.toNat ∧ field l 0x12 2 = d.gclkCur % 2 ^ 16) ∧
    (can 0x17 p 1088 → mayName n p false = true → va.toNat = p →
      let q := q 0x17 p
      let o := o 0x17 p
      (d.mtr.rxTime = none → From q (.mtrdRegisters i r a b) s [.seq, .ops] fun e => ∃ det, EndsWith q e o 0x0B01 det) ∧
      (∀ t, d.mtr.rxTime = some t → From q (.mtrdRegisters i r a b) s [.mem, .seq, .ops] fun e =>
        let l := d.meterBlock n p
        Finishes q e o ∧ writes e l ∧ l.length = 1088 ∧ field l 0 8 = d.mtr.seconds.toNat ∧ field l 8 8 = d.mtr.energy.toNat ∧
        (1 ≤ k → k ≤ 64 → field l (48 + 16 * k) 8 = (if n = 0 ∨ k = p then (tget d.mtr.dcyc k 0).toNat else 0) ∧
          field l (56 + 16 * k) 8 = (if n = 0 ∨ k = p then (tget d.mtr.plotms k 0).toNat else 0)))) ∧
    (can 0x17 p 16864 → n = 0 → 1 ≤ p → p ≤ 64 → va.toNat = 0x100 + p →
      let q := q 0x17 p
      let o := o 0x17 p
      (d.mtr.form1 = none → From q (.mtrdSigned i r a b) s [] fun _ => True) ∧
      (∀ t, d.mtr.form1 = some t →
        let left := (t.toNat + 15000000000 - d.evt.time.toNat + 249999999) / 250000000
        (left = 0 → From q (.mtrdSigned i r a b) s [] fun _ => True) ∧
        (left ≠ 0 → From q (.mtrdSigned i r a b) s [.seq, .ops] fun e => EndsWith q e o 0x0B03 left)))) ∧
  (∀ (n sl : Nat) (o : Op) (m : Master) (v : Word) (s : State), Up s →
    let d := s.dev
    (d.op n sl = some o → o.dop = 0x17 → o.a.getLsbD 8 = true → o.phase = .run →
      Makes (.mtrdTimeout n sl) s [.mtr, .seq, .ops] fun e => e.mtr = { d.mtr with form1 := some d.evt.time } ∧
        ∃ det, EndsWith d e o 0x0B01 det ∧
          ∀ t, d.mtr.rxTime = some t → det = (d.evt.time.toNat - t.toNat) / 250000000) ∧
    (d.op n sl = none → exec (.mtrdTimeout n sl) s = .next s) ∧
    (Allowed m s →
      Does (.gclkReqWrite m false v) s { d with thm := { d.thm with req := v.setWidth 8 } } ∧
      Does (.gclkReqWrite m true v) s { d with thm := { d.thm with
        maxA := v.setWidth 8, maxB := (v >>> 8).setWidth 8, maxC := (v >>> 16).setWidth 8 } }))

/-- R221 to R226, R240, R329 to R331, R416, R451. -/
def Obligations.PartitionsAndGrants : Prop :=
  ∀ (i : Issue) (r a b : BitVec 5) (sl p : Nat) (s : State), Up s → i.thread = 0 → 1 ≤ p → p ≤ 64 → s.dev.boot.locked = true →
    let d := s.dev
    let x := d.part p
    let va := (d.thr 0).reg a
    let vb := (d.thr 0).reg b
    let o := fun (dop : Nat) => posting d i dop a b p sl
    let q := fun (dop : Nat) => posted d i r (o dop)
    let ends := fun (dop : Nat) (c : Instr) (code det : Nat) => From (q dop) c s [.seq, .ops] fun e =>
      EndsWith (q dop) e (o dop) code det
    let refused := fun (dop : Nat) (c : Instr) => From (q dop) c s [.evt, .seq, .ops] fun e =>
      EndsWith (q dop) e (o dop) 0x010A 1 ∧ e.evt = ((q dop).post 0x010A 1 p).evt
    let others := fun (e : Dev) => ∀ k, k ≠ p → e.part k = d.part k
    (CanPost d i 0x19 r a b p sl →
      let q := q 0x19
      let o := o 0x19
      let l := q.block o 48
      let sets := fun (e : Dev) (y : PartArgs) => Finishes q e o ∧ others e ∧
        let t := e.part p
        t.plots = (if bit y.sel 0 then y.plots else x.plots) ∧ t.ctx = (if bit y.sel 1 then y.ctx else x.ctx) ∧
        t.keys = (if bit y.sel 2 then y.keys else x.keys) ∧
        (bit y.sel 2 = true → ∀ k < 64, (tget e.ime.rightsRd (2 + p) 0).getLsbD k = decide (k = 0 ∨ k ∈ y.keys)) ∧
        (bit y.sel 2 = false → e.ime = d.ime) ∧ (bit y.sel 3 = false → t.marl = x.marl) ∧
        (bit y.sel 3 = true → y.marl = 0 → t.marl = none) ∧
        (bit y.sel 3 = true → y.marl ≠ 0 → ∃ z ∈ q.marlPlaces p y.marl, t.marl = some (z, y.marl * 2 ^ 26)) ∧
        (bit y.sel 4 = false → t.ddr = x.ddr) ∧ (bit y.sel 4 = true → y.ddr = 0 → t.ddr = none) ∧
        (bit y.sel 4 = true → y.ddr ≠ 0 → ∃ z ∈ q.ddrPlaces p y.ddr, t.ddr = some (z, y.ddr * 2 ^ 26)) ∧
        t.banks = (if bit y.sel 5 then BitVec.ofNat 18 y.banks else x.banks) ∧
        t.reqSig = (if bit y.sel 6 then bit y.flags 0 else x.reqSig) ∧
        t.startGrp = (if bit y.sel 7 then bit y.flags 1 else x.startGrp) ∧
        t.exempt = (if bit y.sel 8 then bit y.flags 2 else x.exempt) ∧
        t.headFull = (if bit y.sel 0 ∨ bit y.sel 1 then none else x.headFull) ∧ t.placement = x.placement
      let row := fun (c : Instr) (create : Bool) =>
        let y := partArgs l create
        let ok := if create then x.state = .none else x.state ≠ .none ∧ x.mayChange y.sel = true
        (¬ ok → refused 0x19 c) ∧
        (ok → ∀ f, partFault l y create = some f → ends 0x19 c 0x0913 f) ∧
        (ok → partFault l y create = none → ¬ (bit y.sel 8 = true ∧ bit y.flags 2 = true ∧ x.cut = true) →
          (∀ f, q.partShort p y = some f → ends 0x19 c f.1 f.2) ∧
          (q.partShort p y = none → From q c s [.parts, .ime, .pins, .mem, .seq, .ops] fun e => sets e y ∧
            (e.part p).state = if create then .blank else x.state))
      (vb.toNat % 8 = 0 → Intact (fetched d i) → (fetched d i).mayStore 0 vb.toNat 48 = true →
        (va.toNat = 0x100 + p → row (.partCreate i r a b) true) ∧ (va.toNat = 0x200 + p → row (.partChange i r a b) false)) ∧
      (va.toNat = 0x300 + p → vb = 0 →
        let may := x.state = .blank ∨ x.state = .placed ∨ x.state = .frozen ∨ (x.state = .halted ∧ x.sealHalted = false)
        (may → From q (.partRelease i r a b) s [.seq, .ops, .fab, .parts, .pins, .noc, .ring, .pcie, .mem] fun e => others e ∧
          (e.part p).state = .draining ∧ (e.part p).drainTo = 2 ∧ (e.part p).safe = true ∧ DrainFn.dma p ∈ e.noc.draining ∧
          ((∀ y ∈ d.ops, y.part ≠ p) → e.pcie = d.pcie ∧ e.mem = q.mem ∧ e.ring = d.ring) ∧
          ∀ y ∈ e.ops, y.part = p → y.dop = 0x0E ∨ (y.thread = 0 ∧ y.slot = sl)) ∧
        (¬ may → refused 0x19 (.partRelease i r a b))) ∧
      (va.toNat = 0x400 + p → vb = 0 →
        (x.state = .blank → x.placement = none → From q (.partDelete i r a b) s [.seq, .ops, .evt, .parts, .pins, .ime] fun e =>
          Finishes q e o ∧ others e ∧ (e.part p).state = .none ∧ (e.part p).plots = 0 ∧ (e.part p).keys = [] ∧
          (e.part p).marl = none ∧ (e.part p).ddr = none ∧ (e.part p).banks = 0 ∧ (e.part p).headFull = none ∧
          (e.part p).headPart = none ∧ tget e.ime.rightsRd (2 + p) 0 = 0 ∧ tget e.ime.rightsWr (2 + p) 0 = 0 ∧
          tget e.evt.vf p {} = {} ∧ e.evt.pf = q.evt.pf) ∧
        ((x.state ≠ .blank ∨ x.placement ≠ none) → refused 0x19 (.partDelete i r a b)))) ∧
    (∀ l, CanPost d i 0x18 r a b p sl → va.toNat = p → d.feat 7 = true → Intact d → i.fetch = .clean → OwnTickets d 0x18 → vb.toNat % 8 = 0 →
      (fetched d i).mayLoad 0 vb.toNat 32 = true → cgetBytes d.mem.cells (seqAddr vb.toNat) 32 = some l →
      let q := q 0x18
      let o := o 0x18
      let c := if field l 6 1 = 0 then Instr.icpgRevoke i r a b else Instr.icpgGrant i r a b
      ((x.state = .none ∨ x.state = .draining) → refused 0x18 c) ∧
      (x.state ≠ .none → x.state ≠ .draining →
        (∀ f, d.grantFault p l = some f → ends 0x18 c 0x0913 f) ∧
        (d.grantFault p l = none → field l 6 1 = 1 → From q c s [.parts, .noc, .seq, .ops] fun e => others e ∧
          e.part p = { x with
            grantDrain := false, icpFrames := 0, grant := some {
              first := field l 0 2, last := field l 2 2, ctxMask := BitVec.ofNat 8 (field l 4 1), keySlot := field l 5 1,
              base := field l 8 8, len := field l 0x10 8 } } ∧ ¬ DrainFn.icp p ∈ e.noc.draining ∧
          (¬ DrainFn.icp p ∈ d.noc.draining → Finishes q e o ∧ e.noc = d.noc)) ∧
        (d.grantFault p l = none → field l 6 1 = 0 → x.grant = none → From q c s [.seq, .ops] fun e => Finishes q e o) ∧
        (d.grantFault p l = none → field l 6 1 = 0 → x.grant ≠ none → From q c s [.parts, .noc] fun e => others e ∧
          e.part p = { x with grantDrain := true } ∧ DrainFn.icp p ∈ e.noc.draining)))

/-- R289 to R293, R332. -/
def Obligations.LiveSwap : Prop :=
  (∀ (i : Issue) (r a b : BitVec 5) (sl : Nat) (s : State), Up s → i.thread = 0 →
    let d := s.dev
    let vb := (d.thr 0).reg b
    let o := posting d i 0x1A a b 0 sl
    let q := posted d i r o
    CanPost d i 0x1A r a b 0 sl → (d.thr 0).reg a = 0 → (fetched d i).startAddrOk 0 vb false = true →
    let fails := fun (cause code det : Nat) => From q (.hotsw i r a b) s [.evt, .seq, .ops] fun e =>
      EndsWith { q with seq := { q.seq with hotCode := 0x090D, hotCause := BitVec.ofNat 8 cause } } e o code det ∧
      e.evt = (q.post 0x090D cause).evt
    let other := ∃ j < 16, j ≠ sl ∧ ((d.thr 0).slot j).busy = true
    (d.boot.locked = false → fails 5 0x0910 0xFFFFFFFF) ∧
    (d.boot.locked = true → d.feat 9 = false → fails 5 0x0910 9) ∧
    (d.boot.locked = true → d.feat 9 = true → d.seq.swap ≠ 0 → fails 6 0x090D 6) ∧
    (d.boot.locked = true → d.feat 9 = true → d.seq.swap = 0 → other → fails 3 0x090D 3) ∧
    (d.boot.locked = true → d.feat 9 = true → d.seq.swap = 0 → ¬ other → From q (.hotsw i r a b) s [.seq] fun e =>
      e.seq = { q.seq with swap := 1, swapSlot := sl, swapAddr := vb })) ∧
  (∀ (x : FwSec) (s : State), Up s →
    let d := s.dev
    let q := d.seq
    let img := d.staged 0x800000
    let others := fun (e : Dev) (keep : Thread → Thread) => ∀ n, 1 ≤ n → n ≤ 64 → e.thr n = keep (d.thr n)
    (q.swap = 1 →
      let k := kidOf q.swapAddr
      let a := addrOf q.swapAddr
      let n := min 0x800000 (max 256 (leNat (d.memRead k (a + 8) 4)))
      let e1 := (d.memWrite 0 stagingBase (d.memRead k a n)).draw n
      let new := e1.staged n
      d.mayAccess 0 q.swapAddr n true = true → a + n ≤ marlEnd → d.refuse 0 k a n false = none → (d.keyid k).mode ≠ .verified →
      Intact d → (∀ o, d.op 0 q.swapSlot = some o → o.dop = 0x1A) →
      let ends := fun (cause code det : Nat) (f : Dev → Dev) => Makes (.hotswChecksDone .clean) s [.mem, .seq, .ops, .evt] fun e =>
        e.seq.swap = 0 ∧ e.seq.hotCode = 0x090D ∧ e.seq.hotCause = BitVec.ofNat 8 cause ∧ others e id ∧
        e.evt = ((f d).post 0x090D cause).evt ∧ e.seq = ({ d with seq := { q with
          swap := 0, hotCode := 0x090D, hotCause := BitVec.ofNat 8 cause } }.complete 0 q.swapSlot code det).seq
      (∀ c det, s.fuse.checkFirmware new (fwLen new) = some (c, det) → ends 1 c det fun d => d.post c det) ∧
      (s.fuse.checkFirmware new (fwLen new) = none →
        let same := fwDigests new 1 = [d.boot.digest1] ∧ fwDigests new 5 = d.boot.digest5
        (¬ same → ends 2 0x090D 2 id) ∧
        (same → Makes (.hotswChecksDone .clean) s [.mem, .seq] fun e => e.seq.swap = 2 ∧ e.seq.queue = q.queue ∧
          ∀ n, n ≤ 64 → ((d.thr n).state = .run → e.thr n = { d.thr n with state := .suspended, suspFrom := .run }) ∧
            ((d.thr n).inAccess = true ∨ (d.thr n).state = .trapped ∨ (d.thr n).state = .idle → e.thr n = d.thr n)))) ∧
    (q.swap ≠ 1 → exec (.hotswChecksDone .clean) s = .next s) ∧
    (q.swap = 2 → d.plc.search = none → (∀ n, n ≤ 64 → (d.thr n).inAccess = false) →
      Makes .hotswThreadsSuspended s [.seq] fun e => e.seq.swap = 3 ∧
        ∀ n, n ≤ 64 → (e.thr n).state ≠ .run ∧ (e.thr n).regs = (d.thr n).regs ∧ (e.thr n).pc = (d.thr n).pc) ∧
    (q.swap ≠ 2 → exec .hotswThreadsSuspended s = .next s) ∧
    (q.swap = 3 → (∀ o ∈ d.ops, o.phase ≠ .queued) → (∀ o, d.op 0 q.swapSlot = some o → o.dop = 0x1A) →
      (d.allHeld = false → Makes .hotswHoldTimeout s [.seq, .ops, .evt, .parts] fun e => e.seq.swap = 0 ∧
        e.seq.hotCode = 0x090D ∧ e.seq.hotCause = 4 ∧ e.evt = (d.post 0x090D 4).evt ∧
        (∀ p, 1 ≤ p → p ≤ 64 → e.part p = { d.part p with eng := { (d.part p).eng with held := false } }) ∧
        others e fun t => if t.state = .suspended then { t with state := t.suspFrom } else t) ∧
      (d.allHeld = true → exec .hotswHoldTimeout s = .next s ∧
        Makes .hotswAllHeld s [.boot, .mem, .seq, .thm] fun e => e.seq = { q with swap := 4 } ∧
          e.boot.fwVersion = d.boot.fwVersion ∧ e.boot.rootCode = d.boot.rootCode ∧
          (Intact d → (fwSecs img).filter (fun y => decide (y.type = 2)) = [x] →
            (∀ j < (x.data img).length, cget e.mem.cells (seqAddr x.target + j) = (x.data img)[j]?) ∧
            ∀ z, z < seqAddr x.target ∨ seqAddr x.target + (x.data img).length ≤ z →
              cget e.mem.cells z = cget d.mem.cells z))) ∧
    (q.swap = 4 → (∀ o ∈ d.ops, o.phase ≠ .queued) → Makes .hotswSectionsWritten s [.boot, .seq, .ops, .parts, .evt] fun e =>
      e.seq.swap = 0 ∧ e.seq.trapMode = false ∧ e.seq.tvec = 0 ∧ e.boot.fwVersion = fwVersion img ∧
      e.boot.svnImage = fwSvn img ∧ (e.thr 0).state = .run ∧ (e.thr 0).pc = BitVec.ofNat 64 (fwEntry img) ∧
      (e.thr 0).reg 1 = 1 ∧ (e.thr 0).reg 2 = d.boot.fwVersion.setWidth 64 ∧ e.op 0 q.swapSlot = none ∧ others e id ∧
      (∀ p, 1 ≤ p → p ≤ 64 → e.part p = { d.part p with eng := { (d.part p).eng with held := false } }) ∧
      e.evt = (d.post 0x090B (fwVersion img).toNat).evt) ∧
    (q.swap ≠ 4 → exec .hotswSectionsWritten s = .next s))

/-- R240 to R246, R256. -/
def Obligations.ConfigurationPort : Prop :=
  ∀ (p port n : Nat) (msg : List (BitVec 8)) (tag : BitVec 8) (g : Grant) (s : State), Up s → 1 ≤ p → p ≤ 64 →
    let d := s.dev
    let x := d.part p
    let lp := field msg 2 2
    let y := d.plot n
    let r0 := icpReq p port msg 0
    let others := fun (e : Dev) => ∀ k, k ≠ p → e.part k = d.part k
    let answered := fun (e : Dev) (r : IcpReq) (st frames : Nat) => others e ∧ e.icp = d.icp.erase r ∧ e.part p = { x with
        icpStatus := BitVec.ofNat 8 st, icpTag := r.tag, icpFrames := satAdd x.icpFrames frames } ∧
      e.fab.icpOut = tset d.fab.icpOut r.port (icpResponse r.tag st frames)
    (x.state ≠ .none → (d.arb 48 (64 + p)).quar = false →
      (∀ st, d.icpRefused p msg = some st → ∀ c, (c = .icpWriteRequest p port msg ∧ field msg 0 1 ≠ 2 ∨
          c = .icpRejoinRequest p port msg ∧ field msg 0 1 ≠ 1) → Makes c s [.icp, .fab, .noc, .parts, .evt] fun e =>
        answered e r0 st 0 ∧ e.fab = { d.fab with icpOut := e.fab.icpOut } ∧
        e.evt = (d.post 0x0110 (r0.tag.toNat * 256 + st) p).evt) ∧
      (d.icpRefused p msg = none → d.physical p lp = some n → x.grant = some g →
        (field msg 0 1 = 1 → Makes (.icpWriteRequest p port msg) s [.icp, .fab] fun e =>
          e.icp = d.icp ++ [{ r0 with addr := x.keyAt g.keySlot * 2 ^ 48 + g.base + field msg 0x10 8 }] ∧
          (y.state ≠ .loading → y.icpLeave = false → e.plot n = if x.state = .running then
              { y with icpLeave := true, icpFrames := [] }
            else { y with state := .loading, icpLoading := true, icpFrames := [] }) ∧
          (∀ k, k ≠ n → e.plot k = d.plot k) ∧ e.fab.kaolin = d.fab.kaolin) ∧
        (field msg 0 1 = 2 → y.icpLoading = false → y.icpLeave = false →
          Makes (.icpRejoinRequest p port msg) s [.icp, .fab, .noc, .parts] fun e => answered e r0 0 0 ∧
            e.fab = { d.fab with icpOut := e.fab.icpOut }) ∧
        (field msg 0 1 = 2 → (y.icpLoading = true ∨ y.icpLeave = true) → x.state = .running →
          Makes (.icpRejoinRequest p port msg) s [.icp, .fab] fun e => e.icp = d.icp ++ [r0] ∧
            e.plot n = { y with icpRejoin := true }) ∧
        (field msg 0 1 = 2 → y.icpLoading = true → y.state = .loading → y.logical = lp → x.state = .frozen →
          d.icpBusy p lp = false → Makes (.icpRejoinRequest p port msg) s [.icp, .fab, .noc, .parts, .evt] fun e =>
            others e ∧ (e.plot n).state = .frozen ∧ (e.plot n).icpLoading = false ∧ (e.plot n).icpRejoin = false ∧
            (e.part p).state = .frozen ∧ (e.part p).snaps = [] ∧ (e.part p).lastSnap = none ∧ (e.part p).icpStatus = 0 ∧
            e.fab.kaolin = d.fab.kaolin ∧ e.evt = (d.post 0x0111 lp p).evt))) ∧
    (∀ (q : IcpReq) (pl : Placement), (d.icp.find? fun r => decide (r.part = p) && decide (r.tag = tag) && decide (r.count ≠ 0)) = some q →
      d.physical p q.plot = some n → x.placement = some pl → y.state = .loading → x.state = .running →
      let k := q.addr / 2 ^ 48
      let a := q.addr % 2 ^ 48
      let l := d.memRead k a (2048 * q.count)
      let frame := fun (j : Nat) => (l.drop (2048 * j)).take 2048
      d.refuse 0 k a (2048 * q.count) false = none → (d.keyid k).mode ≠ .verified →
      Intact d →
      ((∀ j < q.count, pl.frameBad q.plot q.ctx (q.first + j) (frame j) = false) →
        Makes (.icpWriteDone p tag .clean) s [.icp, .fab, .noc, .parts] fun e => answered e q 0 q.count ∧
          (∀ j < q.count, ∀ gr < 64, e.word n q.ctx (q.first + j) gr = leNat (((frame j).drop (32 * gr)).take 32)) ∧
          (∀ z, (∀ j < q.count, z / 64 ≠ (n * 8 + q.ctx) * 1024 + q.first + j) →
            tget e.fab.kaolin z 0 = tget d.fab.kaolin z 0) ∧ e.fab.slots = d.fab.slots ∧ ∀ m, m ≠ n → e.plot m = d.plot m) ∧
      (pl.frameBad q.plot q.ctx q.first (frame 0) = true → Makes (.icpWriteDone p tag .clean) s [.icp, .fab, .noc, .parts, .evt] fun e =>
        answered e q 6 0 ∧ e.fab.kaolin = d.fab.kaolin))

/-- R344, R349, R351, R355, R357, R358, R379, R400, R410, R562. -/
def Obligations.MemoryTrainingAndUpkeep : Prop :=
  ∀ (c m u : Nat) (l : List Module) (repairs : List Repair) (ok : Bool) (s : State), Up s →
    let d := s.dev
    let x := d.chan c
    let t := d.tower m
    let train := Instr.ddr5TrainingDone c l ok
    let gib := (l.map fun y => y.gib).sum
    let good := (∀ y ∈ l, y.rdimm = true ∧ y.wide = true ∧ y.gib ≤ 128) ∧ ∀ y ∈ l, ∀ z ∈ l, y.org = z.org ∧ y.tds = z.tds
    let chans := fun (e : Dev) => e.mem = { d.mem with chans := e.mem.chans } ∧ ∀ b, b ≠ c → e.chan b = d.chan b
    let towers := fun (e : Dev) => e.mem = { d.mem with towers := e.mem.towers } ∧ ∀ b, b ≠ m → e.tower b = d.tower b
    let failed := Makes train s [.mem, .evt] fun e => chans e ∧
      e.chan c = { x with state := .failed, mapped := false, restoring := false, pause := false } ∧
      ∃ cause, 1 ≤ cause ∧ cause ≤ 4 ∧ e.evt = (d.postSrc 0x0341 (c + cause * 256) 0 (5 + c)).evt
    let lost := fun (bumps : List Repair) (trained : Bool) (reason : Nat) =>
      Makes (.marlTrainingDone m bumps trained) s [.mem, .evt] fun e => towers e ∧
        e.tower m = { t with state := .failed, pause := false } ∧ e.evt = (d.postSrc 0x0340 (m + reason * 256) 0 (13 + m)).evt
    (c < 8 → l.length ≤ 2 → d.feat 14 = true →
      (x.state = .absent → l = [] → exec train s = .next s) ∧
      (x.state = .absent → l ≠ [] → d.excluded c = true → Makes train s [.mem] fun e => chans e ∧ e.chan c = { x with state := .off }) ∧
      (x.state = .absent → l ≠ [] → d.excluded c = false → (¬ good ∨ ok = false) → failed) ∧
      (x.state = .absent → l ≠ [] → d.excluded c = false → good → ok = true →
        Makes train s [.mem] fun e => e.mem = { d.mem with chans := e.mem.chans } ∧
          (e.chan c).state = .active ∧ (e.chan c).mapped = true ∧ (e.chan c).dimms = l.length ∧ (e.chan c).gib = gib ∧
          (e.chan c).rate = decide (l.length = 2) ∧ (e.chan c).verified = d.feat 4 ∧
          (e.chan c).user = 16 * gib - (e.chan c).carve ∧ (d.feat 4 = false → (e.chan c).user = 15 * gib) ∧
          (∀ b, b < 8 → (e.chan b).mapped = true → (e.chan b).base = ((span 0 b).map fun j => (e.chan j).user).sum) ∧
          ∀ b, b ≠ c → e.chan b = { d.chan b with base := (e.chan b).base }) ∧
      (x.state = .training → ok = true → Makes train s [.mem] fun e => chans e ∧
        e.chan c = { x with state := .active, restoring := false }) ∧
      (x.state = .training → ok = false → failed) ∧
      (x.state ≠ .absent → x.state ≠ .training → exec train s = .next s)) ∧
    (m < 4 → t.state = .training →
      (Makes (.marlTrainingDone m [] true) s [.mem, .rel] fun e => towers e ∧ e.tower m = { t with state := .active } ∧
        e.rel = { d.rel with applied := e.rel.applied }) ∧
      lost [] false 1 ∧
      (∀ w : BitVec 28, bits w.toNat 26 2 = m →
        let word := 7 * 2 ^ 28 + w.toNat
        (d.bumpTaken word = true → lost [(7, w)] ok 2) ∧
        (d.bumpTaken word = false → (∀ y ∈ d.repairs, y.2 ≠ word) → ∀ i, 16 ≤ i → i < 256 → d.keepVal i = 0 →
          (∀ j, 16 ≤ j → j < i → d.keepVal j ≠ 0) → (d.keepReg i).wcount < 100000 →
          Answers (.marlTrainingDone m [(7, w)] true) s fun t' =>
            (t'.dev.tower m).state = .active ∧ t'.dev.keepVal i = word ∧ ∀ j, j ≠ i → t'.dev.keepReg j = d.keepReg j))) ∧
    (t.state ≠ .training → exec (.marlTrainingDone m repairs ok) s = .next s) ∧
    (c < 8 → d.feat 4 = true → x.mapped = true → x.state = .active → x.metaReady = false →
      let inits := fun (e : Dev) => chans e ∧ e.chan c = { x with metaReady := true, treeKey := Config.treeKey d.ime.treeSeed } ∧
        e.ime = { d.ime with
          counters := e.ime.counters, treeSeed := d.ime.treeSeed + 1, ccLines := e.ime.ccLines, mcLines := e.ime.mcLines,
          mcDirty := e.ime.mcDirty, lagging := e.ime.lagging } ∧
        (∀ n, holds e.ime.ccLines (nodeKey c 0 (n % 2 ^ 40)) = false) ∧ (∀ l n, l < 256 → tget e.ime.lagging (nodeKey c l (n % 2 ^ 40)) [] = []) ∧
        ∀ k, tget e.ime.counters k {} = if k / 2 ^ 32 = c then {} else tget d.ime.counters k {}
      ((∃ b, b < 8 ∧ b ≠ c ∧ (d.chan b).mapped = true ∧ (d.chan b).metaReady = false) →
        Makes (.verifiedMetaInitDone c) s [.mem, .ime] inits) ∧
      ((∀ b, b < 8 → b ≠ c → (d.chan b).mapped = true → (d.chan b).metaReady = true) → (∀ o ∈ d.ops, o.phase ≠ .queued) →
        Makes (.verifiedMetaInitDone c) s [.mem, .ime, .evt] fun e => inits e ∧ ∃ mask src,
          (∀ b, b < 8 → mask / 2 ^ b % 2 = b2n (d.chan b).mapped) ∧ e.evt = (d.postSrc 0x0417 mask 0 src).evt)) ∧
    (x.state ≠ .active → exec (.verifiedMetaInitDone c) s = .next s) ∧
    (d.unitActive u = true →
      (Makes (.retrainPause u) s [.mem] fun e => e.inPause u = true ∧ (∀ v, v < 12 → v ≠ u → e.inPause v = false) ∧
        (∀ v, (e.tower v).state = (d.tower v).state ∧ (e.chan v).state = (d.chan v).state) ∧
        d.mem.maxNs.toNat ≤ e.mem.maxNs.toNat ∧ e.mem.maxNs.toNat ≤ max d.mem.maxNs.toNat 1500 ∧
        e.mem = { d.mem with chans := e.mem.chans, towers := e.mem.towers, maxNs := e.mem.maxNs }) ∧
      (Makes (.dramRefreshTick u) s [.mem] fun e =>
        e.mem = { d.mem with towers := e.mem.towers, refreshes := tset d.mem.refreshes u (tget d.mem.refreshes u 0 + 1) } ∧
        ∀ v, (v < 4 → v = u → ∃ n, e.tower v = { d.tower v with nref := satAdd (d.tower v).nref n }) ∧
          (v ≠ u → e.tower v = d.tower v))) ∧
    (d.unitActive u = false → exec (.retrainPause u) s = .next s ∧ exec (.dramRefreshTick u) s = .next s) ∧
    (u < 12 → d.inPause u = true → Makes (.retrainPauseCut u) s [.mem, .evt] fun e => e.inPause u = false ∧
      (∀ v, v < 12 → v ≠ u → e.inPause v = d.inPause v) ∧ e.mem.maxNs.toNat = max d.mem.maxNs.toNat 1500 ∧
      e.evt = (d.postSrc 0x0342 u 0 (if u < 4 then 13 + u else 1 + u)).evt) ∧
    (d.inPause u = false → exec (.retrainPauseCut u) s = .next s) ∧
    Makes .bucketLeak s [.mem] fun e => e.mem = { d.mem with buckets := e.mem.buckets } ∧ ∀ n, n < 18 →
      let b := tget d.mem.buckets n {}
      let b' := tget e.mem.buckets n {}
      b'.level.toNat = b.level.toNat - 1 ∧ b'.corrected = b.corrected ∧ b'.overflows = b.overflows ∧ b'.recent = [] ∧
      (b'.latch = true ↔ b.latch = true ∧ max 2 d.mem.capacity.toNat / 2 < b.level.toNat - 1)

/-- R329, R331, R451 to R456, R496. -/
def Obligations.StopsDrainAndSwitchOff : Prop :=
  (∀ (m : Master) (n : Nat) (s : State), Allowed m s → s.dev.rst.svc = none →
    let d := s.dev
    let x := d.stop n
    let own := fun (e : Dev) => (∀ j, j ≠ n → e.stop j = d.stop j) ∧
      e.noc = { d.noc with stops := e.noc.stops, draining := e.noc.draining }
    let vacant := ∀ k, k < 512 → loamStop k = n → (d.plot k).state = .free ∨ (d.plot k).state = .mappedOut
    let chans := fun (e : Dev) => e.mem = { d.mem with chans := e.mem.chans } ∧ ∀ j, j + 5 ≠ n → e.chan j = d.chan j
    (4 ≤ n → n ≤ 32 →
      (x.state = .on → (n < 17 ∨ vacant) → Makes (.nocStopDisable m n) s [.noc] fun e => own e ∧
        e.stop n = { x with state := .draining, forced := false } ∧ e.noc.draining = d.noc.draining ++ [.stop n]) ∧
      ((x.state ≠ .on ∨ (17 ≤ n ∧ ¬ vacant)) → exec (.nocStopDisable m n) s = .next s) ∧
      (x.state = .drained → Makes (.nocStopOff m n) s [.noc] fun e => own e ∧ e.stop n = { x with offReq := true } ∧
        e.noc.draining = d.noc.draining) ∧
      (x.state ≠ .drained → exec (.nocStopOff m n) s = .next s) ∧
      ((x.state = .draining ∨ x.state = .drained ∨ x.state = .fenced ∨ x.state = .off) →
        let fresh := x.state = .off ∨ x.state = .fenced
        Makes (.nocStopOn m n) s [.noc, .mem] fun e => own e ∧ e.stop n = { x with state := .on, offReq := false } ∧
          (∀ f, f ∈ e.noc.draining ↔ f ∈ d.noc.draining ∧ f ≠ .stop n) ∧
          ((n < 5 ∨ 16 < n) → e.mem = d.mem) ∧
          (5 ≤ n → n ≤ 12 → chans e ∧
            let c := d.chan (n - 5)
            e.chan (n - 5) = if fresh then { c with state := if c.state = .off then .training else c.state }
              else { c with state := if c.state = .draining then .active else c.state, persist := false }) ∧
          (13 ≤ n → n ≤ 16 → e.mem = { d.mem with towers := e.mem.towers } ∧
            (∀ j, j + 13 ≠ n → e.tower j = d.tower j) ∧
            let t := d.tower (n - 13)
            e.tower (n - 13) = if fresh ∧ t.state = .off ∧ t.diesOut.getLsbD 0 = false then { t with state := .training } else t)) ∧
      (x.state = .on → exec (.nocStopOn m n) s = .next s)) ∧
    ((n < 4 ∨ 32 < n) → exec (.nocStopDisable m n) s = .next s ∧ exec (.nocStopOff m n) s = .next s ∧
      exec (.nocStopOn m n) s = .next s)) ∧
  (∀ (n k : Nat) (f : DrainFn) (s : State), Up s →
    let d := s.dev
    let x := d.stop n
    let fence := Instr.fenceHandshakeDone n
    let fenced := fun (e : Dev) => e.stop n = { x with state := .off, offReq := false } ∧ (∀ j, j ≠ n → e.stop j = d.stop j) ∧
      e.evt = (d.postSrc 0x0512 n 0 n).evt ∧ e.noc = { d.noc with stops := e.noc.stops }
    let gone := fun (e : Dev) (a m : Nat) => ∀ z, cget e.mem.cells z = if a ≤ z ∧ z < a + m then none else cget d.mem.cells z
    (x.offReq = true → x.state = .drained → 4 ≤ n → n ≤ 32 →
      ((n < 5 ∨ 16 < n) → Makes fence s [.noc, .evt] fenced) ∧
      (5 ≤ n → n ≤ 12 → Makes fence s [.noc, .evt, .mem] fun e =>
        let c := d.chan (n - 5)
        fenced e ∧ (∀ j, j + 5 ≠ n → e.chan j = d.chan j) ∧ e.chan (n - 5) = { c with
          state := if c.state = .absent ∨ c.state = .failed then c.state else .off, metaReady := false } ∧
        gone e (c.base * 2 ^ 26) (if c.mapped then c.user * 2 ^ 26 else 0)) ∧
      (13 ≤ n → n ≤ 16 → Makes fence s [.noc, .evt, .mem] fun e =>
        let t := d.tower (n - 13)
        fenced e ∧ (∀ j, j + 13 ≠ n → e.tower j = d.tower j) ∧
        e.tower (n - 13) = { t with state := if t.state = .failed then t.state else .off } ∧
        gone e (0x020000000000 + (n - 13) * 0x000C00000000) 0x000C00000000)) ∧
    ((x.offReq = false ∨ x.state ≠ .drained) → exec fence s = .next s) ∧
    (f ∉ d.noc.draining → exec (.drainComplete f) s = .next s ∧ exec (.drainTimeout f k) s = .next s) ∧
    (f ∈ d.noc.draining →
      let ended := fun (e : Dev) => (∀ g, g ∈ e.noc.draining ↔ g ∈ d.noc.draining ∧ g ≠ f) ∧
        e.noc = { d.noc with stops := e.noc.stops, draining := e.noc.draining }
      let still := fun (e : Dev) => ended e ∧ e.noc.stops = d.noc.stops
      let frees := fun (e : Dev) (p : Nat) => (∀ j, j ≠ p → e.part j = d.part j) ∧
        e.part p = { d.part p with grant := none, grantDrain := false }
      (d.rst.svc ≠ none → Makes (.drainTimeout f k) s [.noc] fun e => e.noc = { d.noc with late := d.noc.late ++ [(f, k)] }) ∧
      (f = .stop n →
        (Makes (.drainComplete f) s [.noc, .evt] fun e => ended e ∧ (∀ j, j ≠ n → e.stop j = d.stop j) ∧
          (n < 37 → e.stop n = { x with state := .drained }) ∧ e.evt = (d.postSrc 0x0510 (0x5000 + n) 0 n).evt) ∧
        (d.rst.svc = none → Makes (.drainTimeout f k) s [.noc, .evt] fun e => ended e ∧ (∀ j, j ≠ n → e.stop j = d.stop j) ∧
          (n < 37 → e.stop n = { x with state := .drained, forced := true, aborted := satAdd 0 k }) ∧
          e.evt = (d.postSrc 0x0511 (k % 2 ^ 16 * 2 ^ 16 + (0x5000 + n)) 0 n).evt)) ∧
      (f = .ring n → n < 2 →
        let posts := fun (e : Dev) (code cnt : Nat) => e.evt = ((d.postSrc code (cnt * 2 ^ 16 + (0x4000 + 2 * n)) 0 (33 + 2 * n)).postSrc
          code (cnt * 2 ^ 16 + (0x4000 + (2 * n + 1))) 0 (33 + (2 * n + 1))).evt
        ((∀ j, j / 2 = n → (d.rport j).txq = [] ∧ (d.rport j).retry = []) →
          Makes (.drainComplete f) s [.noc, .evt, .ring] fun e => still e ∧ posts e 0x0510 0 ∧ (∀ j, e.rport j = d.rport j) ∧
            e.rctl n = { d.rctl n with state := .drained } ∧ e.rctl (1 - n) = d.rctl (1 - n)) ∧
        ((∃ j, j / 2 = n ∧ ((d.rport j).txq ≠ [] ∨ (d.rport j).retry ≠ [])) → exec (.drainComplete f) s = .next s) ∧
        (d.rst.svc = none → Makes (.drainTimeout f k) s [.noc, .evt, .ring] fun e => still e ∧ posts e 0x0511 (k % 2 ^ 16) ∧
          (∀ j, j < 4 → e.rport j = if j / 2 = n then { d.rport j with txq := [], retry := [] } else d.rport j) ∧
          e.rctl n = { state := .drained, forced := true, aborted := satAdd 0 k } ∧ e.rctl (1 - n) = d.rctl (1 - n))) ∧
      (f = .icp n → (d.part n).state ≠ .draining → (∀ r ∈ d.icp, r.part ≠ n) →
        ((∀ o ∈ d.ops, isRevoke n o = false) → Makes (.drainComplete f) s [.noc, .evt, .parts] fun e => still e ∧ frees e n ∧
          e.evt = (d.postSrc 0x0510 (0x3000 + n) n 3).evt) ∧
        (∀ o, OwnTickets d 0x18 → d.ops.filter (isRevoke n) = [o] → Makes (.drainComplete f) s [.noc, .evt, .parts, .seq, .ops] fun e => still e ∧
          frees e n ∧ Finishes d e o)) ∧
      ((f = .vf n ∨ f = .dma n) →
        let kind := if f = .vf n then 0x2000 else 0x1000
        let idle := ∀ o ∈ d.ops, o.dop = 0x0E → o.part ≠ n
        ((d.part n).state ≠ .draining → idle → Makes (.drainComplete f) s [.noc, .evt] fun e => still e ∧
          e.evt = (d.postSrc 0x0510 (kind + n) n 0).evt) ∧
        ((d.part n).state ≠ .draining → idle → d.rst.svc = none → Makes (.drainTimeout f k) s [.noc, .evt] fun e => still e ∧
          e.evt = (d.postSrc 0x0511 (k % 2 ^ 16 * 2 ^ 16 + (kind + n)) n 0).evt) ∧
        (∀ o ∈ d.ops, o.dop = 0x0E → o.part = n → f = .dma n → exec (.drainComplete f) s = .next s) ∧
        (∀ o, OwnTickets d 0x0E → f = .dma n → (d.part n).state ≠ .draining → d.rst.svc = none →
          (d.ops.filter fun y => decide (y.dop = 0x0E) && decide (y.part = n)) = [o] →
          Makes (.drainTimeout f k) s [.noc, .evt, .pcie, .seq, .ops] fun e => still e ∧ EndsWith d e o 0x0915 0 ∧
            tget e.pcie.dmaCode n 0 = 0x0915 ∧ tget e.pcie.dmaBytes n 0 = 0) ∧
        (idle → (d.part n).state = .draining → (d.part n).drainTo = 2 →
          (∀ g ∈ d.noc.draining, g ≠ f → g ≠ .dma n ∧ g ≠ .vf n ∧ g ≠ .icp n) →
          Answers (.drainComplete f) s fun t => (t.dev.part n).state = .blank ∧ (t.dev.part n).placement = none ∧
            (∀ j ∈ d.plotsOf n, (t.dev.plot j).state = .clearing ∧ (t.dev.plot j).part = 0) ∧
            ∀ j, j ≠ n → (t.dev.part j).placement = (d.part j).placement))))

/-- R136, R417 to R419, R442. -/
def Obligations.SealHaltAndSideband : Prop :=
  (∀ (m : Master) (key : BitVec 8) (s : State), Allowed m s → s.dev.rst.svc = none →
    let d := s.dev
    (key ≠ 0x5A → exec (.sealForce m key) s = .next s) ∧
    (key = 0x5A → Answers (.sealForce m key) s fun t =>
      let e := t.dev
      t.fuse = s.fuse ∧ t.die = s.die ∧ t.pending = s.pending ∧ e.keep = d.keep ∧ e.clk = d.clk ∧
      (∀ c, (e.chan c).treeKey = 0) ∧ ((∀ o ∈ d.ops, o.dop ≠ 0x13) → e.mem = { d.mem with chans := e.mem.chans }) ∧
      e.ime.sealed = true ∧ e.ime.cause = 0x0408 ∧ e.ime.extra = d.ime.extra ∧ e.boot.phase = .sealed ∧ e.boot.idKeys = false ∧
      (∀ k, (e.keyid k).key = 0) ∧ (∀ n, n < 4 → (e.nk n).state = .bypass ∧ (e.nk n).tx = none ∧ (e.nk n).rx = none ∧ (e.nk n).rxOld = none) ∧
      (∀ n, n < 4 → (e.rport n).state = .bypass) ∧ e.ring.bypassed = true ∧ e.pcie.ide = [] ∧ e.pcie.ideSecure = [] ∧
      (∀ p, 1 ≤ p → p ≤ 64 →
        ((d.part p).state ≠ .none → (e.part p).state = .halted ∧ (e.part p).sealHalted = true ∧ (e.part p).safe = true ∧
          (e.part p).imageKey = none ∧ (e.part p).hashes = none ∧ (e.part p).cycle = (d.part p).cycle ∧
          (e.part p).placement = (d.part p).placement ∧
          ∀ n ∈ d.plotsOf p, (e.plot n).state = if (d.plot n).state = .clearing then .clearing else .frozen) ∧
        ((d.part p).state = .none → e.part p = d.part p)) ∧
      (∀ n, n ≤ 64 → (e.thr n).state = .idle ∧ (e.thr n).regs = (d.thr n).regs ∧ (e.thr n).pc = (d.thr n).pc) ∧
      e.ops = [] ∧ (∀ o ∈ d.ops, o.thread ≤ 64 → ((d.thr o.thread).slot o.slot).busy = true →
        ((d.thr o.thread).slot o.slot).done = none → ((e.thr o.thread).slot o.slot).done = some (status 0x0912 0)) ∧
      e.rst.svc = none ∧ e.rst.parts = [] ∧ e.noc.draining = [] ∧ e.plc.migs = [] ∧ e.plc.search = none ∧ e.icp = [] ∧
      e.start.hold = true ∧ e.drivesFault = true ∧
      ((d.evt.pf.prod + 1) % 4096 ≠ d.evt.pf.cons % 4096 → d.evt.pf.prod < 4096 →
        let r := tget e.evt.pf.slots d.evt.pf.prod {}
        r.code = 0x0408 ∧ r.detail.toNat = (if m = .pf0 then 1 else 2) ∧ r.time = d.evt.time))) ∧
  (∀ (m : Master) (key : BitVec 8) (s : State), Up s → s.dev.ime.sealed = true → (m = .pf0 ∨ m = .thread 0) →
    exec (.sealForce m key) s = .next s) ∧
  (∀ (ring stop bits : Nat) (s : State), Up s →
    let d := s.dev
    (ring < 4 → stop < 40 → 2 ≤ bits → Answers (.sidebandUe ring ⟨stop, bits⟩) s fun t =>
      t.fuse = s.fuse ∧ t.die = s.die ∧ t.pending = s.pending ∧ t.dev.noc.fatal = true ∧
      t.dev.noc.stops = d.noc.stops ∧ ((∀ o ∈ d.ops, o.dop ≠ 0x13) → t.dev.mem = d.mem) ∧ t.dev.ime = d.ime ∧ t.dev.keep = d.keep ∧
      (∀ p, 1 ≤ p → p ≤ 64 →
        let x := d.part p
        (x.state ≠ .running → t.dev.part p = x) ∧
        (x.state = .running → (t.dev.part p).state ≠ .running ∧ (t.dev.part p).cycle = x.cycle ∧
          ∀ n ∈ d.plotsOf p, (t.dev.plot n).rewind = true)) ∧
      ((∀ p, 1 ≤ p → p ≤ 64 → (d.part p).state ≠ .running) → SameBut [.noc, .evt] d t.dev ∧
        t.dev.noc = { d.noc with fatal := true } ∧ t.dev.evt = (d.postSrc 0x0503 (ring * 256 + stop) 0 stop).evt)) ∧
    (ring < 4 → stop < 40 → Makes (.sidebandUe ring ⟨stop, 1⟩) s [.noc] fun e =>
      e.noc = { d.noc with sbCorrected := sat1 d.noc.sbCorrected }) ∧
    ((4 ≤ ring ∨ 40 ≤ stop ∨ bits = 0) → exec (.sidebandUe ring ⟨stop, bits⟩) s = .next s))

/-- R450, R453, R457, R458, R461, R462. -/
def Obligations.ArbitersAndStatistics : Prop :=
  (∀ (i r : Nat) (s : State), Up s →
    let d := s.dev
    let x := d.arb i r
    let c := Instr.arbWatchdogBite i r
    let quarantined := fun (e : Dev) => e.arb i r = { x with quar := true } ∧
      ∀ j k, (j ≠ i ∨ k ≠ r) → k < 256 → r < 256 → e.arb j k = d.arb j k
    let bitten := fun (e : Dev) => quarantined e ∧ e.noc = { d.noc with pri := e.noc.pri }
    let posts := fun (e : Dev) (code : Nat) => ∃ src, e.evt = (d.postSrc code (i * 2 ^ 16 + r) 0 src).evt
    let only := Makes c s [.noc, .evt] fun e => bitten e ∧ posts e 0x0520
    (r < arbReqs i → x.quar = false →
      (i ≤ 36 → ((d.arbCfg i).holder ≠ some r → only) ∧
        ((d.arbCfg i).holder = some r → Makes c s [.noc, .evt] fun e => quarantined e ∧ posts e 0x0520 ∧
          e.arbCfg i = { d.arbCfg i with holder := none } ∧ tget e.noc.entering i [] = [])) ∧
      (40 ≤ i → i ≤ 47 → ((∀ y ∈ d.noc.frontLeft, y.1 = i - 40 → y.2.1.src ≠ r) → only) ∧
        (∀ y, d.noc.frontLeft = [(i - 40, y)] → y.1.src = r → Makes c s [.noc, .evt] fun e => quarantined e ∧ posts e 0x0520 ∧
          e.arbCfg i = { d.arbCfg i with holder := none } ∧ e.noc.frontLeft = [])) ∧
      (i = 48 → r = 0 → d.plc.migs = [] → only) ∧
      (i = 48 → 65 ≤ r → (∀ y ∈ d.icp, y.part ≠ r - 64) → only) ∧
      (i = 48 → 65 ≤ r → Answers c s fun t => quarantined t.dev ∧ ∀ y, y ∈ t.dev.icp ↔ y ∈ d.icp ∧ y.part ≠ r - 64) ∧
      (i = 49 → (65 ≤ r ∨ d.rowMoveOp r = none) → only) ∧
      (∀ o, i = 49 → r ≤ 64 → d.rowMoveOp r = some o → d.op r o.slot = some o → From d c s [.noc, .evt, .parts, .seq, .ops] fun e =>
        bitten e ∧ posts e 0x0520 ∧ EndsWith d e o 0x0915 0 ∧ o ∈ d.ops ∧ o.thread = r ∧ ∀ p, p ≠ o.part → e.part p = d.part p) ∧
      (i = 48 → 1 ≤ r → r ≤ 64 → Answers c s fun t => bitten t.dev ∧ (t.dev.part r).load = none ∧
        ((d.part r).load ≠ none → (t.dev.part r).state = .blank) ∧ ∀ p, p ≠ r → t.dev.part p = d.part p) ∧
      (i = 50 → r = 0 → only) ∧
      (i = 50 → 1 ≤ r → Makes c s [.noc, .evt, .parts] fun e => bitten e ∧
        (e.part r).trace.lost = sat1 (d.part r).trace.lost ∧ ∀ p, p ≠ r → e.part p = d.part p)) ∧
    ((arbReqs i ≤ r ∨ x.quar = true) → exec c s = .next s) ∧
    ((i = 37 ∨ i = 38 ∨ i = 39 ∨ 50 < i) → exec c s = .next s)) ∧
  (∀ (m : Master) (i r : Nat) (high v : Bool) (level : BitVec 3) (s : State), Allowed m s → s.dev.rst.svc = none →
    let d := s.dev
    let x := d.arb i r
    let others := fun (e : Dev) => (∀ j k, (j ≠ i ∨ k ≠ r) → k < 256 → r < 256 → e.arb j k = d.arb j k) ∧
      e.noc = { d.noc with pri := e.noc.pri }
    (r < arbReqs i → x.quar = true → Makes (.arbReenable m i r) s [.noc, .evt] fun e => others e ∧
      e.arb i r = { x with quar := false } ∧ ∃ src, e.evt = (d.postSrc 0x0521 (i * 2 ^ 16 + r) 0 src).evt) ∧
    ((arbReqs i ≤ r ∨ x.quar = false) → exec (.arbReenable m i r) s = .next s) ∧
    (r < arbReqs i →
      let cfg := tget d.noc.cfg i {}
      let window := max 16 cfg.winNow.toNat
      let quota := min window (max 1 cfg.quotaNow.toNat)
      let wasHigh := x.high.getD (decide ((i = 1 ∧ r = 0) ∨ (33 ≤ i ∧ i ≤ 36) ∨ (i = 48 ∧ r ≤ 64) ∨ (i = 49 ∧ (r = 65 ∨ r = 66))))
      Makes (.arbPriorityWrite m i r high level) s [.noc] fun e => others e ∧ ∃ mask,
        e.arb i r = { x with high := some high, level := level, masked := mask } ∧
        (high = false → mask = false) ∧ (high = true → wasHigh = true → mask = x.masked) ∧
        (high = true → wasHigh = false → (mask = true ↔ quota ≤ x.count.toNat))) ∧
    (arbReqs i ≤ r → exec (.arbPriorityWrite m i r high level) s = .next s) ∧
    (Makes (.nocStatClear m) s [.noc] fun e => e.noc = { d.noc with stats := [] }) ∧
    (Makes (.nocStatFreeze m v) s [.noc] fun e => e.noc = { d.noc with frozen := v }))

/-- R451, R469, R471, R496, R501. -/
def Obligations.RingRegisters : Prop :=
  (∀ (m : Master) (r : Nat) (s : State), Allowed m s → s.dev.rst.svc = none → r < 2 →
    let d := s.dev
    let x := d.rctl r
    let other := fun (e : Dev) => e.rctl (1 - r) = d.rctl (1 - r) ∧ ∀ j, j / 2 ≠ r → e.rport j = d.rport j ∧ e.nk j = d.nk j
    let freed := fun (n : Nat) (st : NkState) => { d.nk n with
      state := st, helloI := none, helloR := none, authOwn := false, authPeer := none, tx := none, rx := none, rxOld := none }
    let undrained := fun (e : Dev) => (∀ f, f ∈ e.noc.draining ↔ f ∈ d.noc.draining ∧ f ≠ .ring r) ∧
      e.noc = { d.noc with draining := e.noc.draining } ∧ e.rctl r = { x with state := .on }
    (x.state = .on → Makes (.ringDisable m r) s [.ring, .noc] fun e => other e ∧
      e.rctl r = { x with state := .draining, forced := false } ∧ (∀ j, e.rport j = d.rport j) ∧
      e.noc = { d.noc with draining := d.noc.draining ++ [.ring r] }) ∧
    (x.state ≠ .on → exec (.ringDisable m r) s = .next s) ∧
    (x.state = .drained → Makes (.ringOff m r) s [.ring, .ime] fun e => other e ∧ e.rctl r = { x with state := .off } ∧
      ∀ j, j / 2 = r → e.rport j = { d.rport j with state := .bypass, peerPos := none } ∧ e.nk j = freed j .bypass) ∧
    (x.state ≠ .drained → exec (.ringOff m r) s = .next s) ∧
    ((x.state = .draining ∨ x.state = .drained) → (∀ j, j / 2 = r → (d.rport j).txq = []) →
      Makes (.ringOn m r) s [.ring, .noc] fun e => other e ∧ undrained e ∧ ∀ j, e.rport j = d.rport j) ∧
    ((x.state = .off ∨ x.state = .fenced) → Makes (.ringOn m r) s [.ring, .noc, .ime] fun e => other e ∧ undrained e ∧
      let may := d.feat 5 = true ∧ (if r = 0 then d.ring.enA else d.ring.enB) = true ∧ d.ring.bypassed = false
      (may → ∀ j, j / 2 = r → e.rport j = { d.rport j with state := .training, peerPos := none } ∧ e.nk j = freed j .down) ∧
      (¬ may → ∀ j, e.rport j = d.rport j ∧ e.nk j = d.nk j)) ∧
    (x.state = .on → exec (.ringOn m r) s = .next s)) ∧
  (∀ (m : Master) (r p : Nat) (v : BitVec 64) (s : State), Allowed m s → s.dev.rst.svc = none →
    let d := s.dev
    (2 ≤ r → exec (.ringDisable m r) s = .next s ∧ exec (.ringOff m r) s = .next s ∧ exec (.ringOn m r) s = .next s) ∧
    (1 ≤ p → p ≤ 64 → Makes (.ringGroupWrite m p v) s [.parts] fun e => (∀ j, j ≠ p → e.part j = d.part j) ∧
      let q := d.part p
      e.part p = { q with
        cut := if q.placement = none then v.getLsbD 63 else q.cut
        group := if q.placement = none then v.extractLsb' 48 8 else q.group
        gen := if q.state = .running then q.gen else v.extractLsb' 40 8 }) ∧
    ((p = 0 ∨ 64 < p) → exec (.ringGroupWrite m p v) s = .next s))

/-- R484. The reason of a refused disabling is that of the table of 0x0611. -/
def Obligations.CutBindingWrites : Prop :=
  ∀ (m : Master) (b : Nat) (v : BitVec 64) (s : State), Allowed m s → s.dev.rst.svc = none →
    let d := s.dev
    let old := tget d.ring.cuts b 0
    let c := Instr.ringCutWrite m b v
    let at_ := fun (j : Nat) => bindingOf (tget d.ring.cuts j 0)
    let ready := fun (x : Binding) =>
      let q := d.part x.part
      1 ≤ x.part ∧ x.part ≤ 64 ∧ q.state ≠ .none ∧ q.cut = true ∧ q.placement ≠ none ∧ q.state ≠ .running ∧ q.state ≠ .loading
    let mate := fun (x : Binding) (j : Nat) => j ≠ b ∧ (at_ j).en = true ∧ (at_ j).part = x.part ∧ (at_ j).inb = x.inb ∧
      (at_ j).peer = x.peer ∧ (at_ j).peerPart = x.peerPart ∧ (at_ j).round = x.round
    let refused := fun (reason part : Nat) => Makes c s [.evt] fun e =>
      ∃ src, e.evt = (d.postSrc 0x0611 (b + reason * 2 ^ 12) part src).evt
    let stores := fun (w : BitVec 64) => Makes c s [.ring] fun e => e.ring = { d.ring with cuts := tset d.ring.cuts b w }
    (4096 ≤ b → exec c s = .next s) ∧
    (b < 4096 → (d.ring.cuts.map (·.1)).Nodup →
      let x := bindingOf old
      let new := v &&& ~~~(0x3FF : BitVec 64)
      let y := bindingOf new
      let linked := y.slot = 0 ∨ ∃ j, mate y j ∧ (at_ j).slot + 1 = y.slot
      let blockFree := y.marker = true ∨ ((∀ pl, (d.part y.part).placement = some pl → bit (pl.freeMask.getD y.plot 0) y.block = true) ∧
        (d.part y.part).blockTaken y.plot y.block = false ∧
        ∀ j, j ≠ b → (at_ j).en = true → (at_ j).part = y.part → (at_ j).marker = false →
          ¬ ((at_ j).plot = y.plot ∧ (at_ j).block = y.block))
      let alone := y.marker = false ∨ (y.slot = 0 ∧ ∀ j, ¬ mate y j)
      (x.en = true →
        (v.getLsbD 63 = true → exec c s = .next s) ∧
        (v.getLsbD 63 = false → ¬ ready x → refused 1 x.part) ∧
        (v.getLsbD 63 = false → ready x → (∃ j, mate x j ∧ x.slot < (at_ j).slot) → refused 5 x.part) ∧
        (v.getLsbD 63 = false → ready x → (∀ j, mate x j → (at_ j).slot ≤ x.slot) → stores (old &&& 0x7FFFFFFFFFFFFFFF))) ∧
      (x.en = false →
        (v.getLsbD 63 = false → stores new) ∧
        (v.getLsbD 63 = true →
          (¬ ready y → refused 1 y.part) ∧
          (ready y → ¬ linked → refused 2 y.part) ∧
          (ready y → linked → ¬ blockFree → refused 3 y.part) ∧
          (ready y → linked → blockFree → ¬ alone → refused 4 y.part) ∧
          (ready y → linked → blockFree → alone → stores new))))

/-- R28, R525 to R540. -/
def Obligations.ThermalControl : Prop :=
  ∀ (mw : List (Option Nat)) (samples : List (Option Int)) (g n dom : Nat) (s : State), Out s →
    let d := s.dev
    let t := d.thm
    let shown := fun (e : Dev) =>
      let cells := fun k => tget e.thm.cellBand k 0
      let raised := fun k => if k ∈ e.thm.acts then max (cells k) (min 2 (cells k + 1)) else cells k
      let dev := if e.thm.trip then 3 else raised 0
      e.thm.band = dev ∧ e.thm.bandKA = max dev (cells 1) ∧ e.thm.bandKB = max dev (cells 2) ∧
      ∀ m, m < 4 → (e.tower m).band = if m ∈ e.thm.towerTrip then 3 else raised (4 + m)
    let hot := fun (e : Dev) (reading est : Int) =>
      (∃ k, k < 368 ∧ (e.sensor k).suspect = false ∧ reading < (e.sensor k).reading) ∨ ∃ k, k < 368 ∧ est < tget e.thm.est k 0
    let heard := fun k => (samples.getD k none).map fun v => v + d.sensorOffset k
    (Makes (.powerSample mw) s [.thm, .evt] fun e => e.thm.samples = t.samples ++ [mw] ∧
      (∀ k, k ∈ e.thm.pfault ↔ k ∈ t.pfault ∨ (k < 9 ∧ samplePower mw k = none)) ∧
      e.thm = { t with samples := e.thm.samples, pfault := e.thm.pfault, pfaults := e.thm.pfaults } ∧
      ((∀ k, k < 9 → samplePower mw k = none → k ∈ t.pfault) → e.evt = d.evt ∧ e.thm.pfaults = t.pfaults)) ∧
    ((∀ l ∈ t.samples, samplePower l g ≠ none) → Makes (.powerFaultRecovery g) s [.thm] fun e =>
      e.thm = { t with pfault := e.thm.pfault } ∧ ∀ k, k ∈ e.thm.pfault ↔ k ∈ t.pfault ∧ k ≠ g) ∧
    ((∃ l ∈ t.samples, samplePower l g = none) → exec (.powerFaultRecovery g) s = .next s) ∧
    (Makes (.thermalModelStep samples) s [.thm, .evt, .mem, .fab, .rel] fun e =>
      let power := fun k =>
        let l := t.samples.filterMap (fun x => samplePower x k)
        (if k ∈ t.pfault then powerMax k else if l = [] then tget t.power k 0 else l.sum / l.length : Nat)
      let params := if t.builtin then [] else d.boot.thermParams
      e.thm.steps = t.steps + 1 ∧ e.thm.stepTime = d.evt.time ∧ e.thm.samples = [] ∧
      (∀ k, k < 9 → tget e.thm.power k 0 = power k ∧ tget e.thm.peak k 0 = max (tget t.peak k 0) (power k)) ∧
      (∀ k, k < 368 → tget e.thm.est k 0 = Config.estimate params t.est ((span 0 368).map fun j =>
          nodePower (Config.activity params d.free) (Config.idleShare d.free) ((span 0 9).map power) j) t.plate k ∧
        (heard k = none → (e.sensor k).invalid = true ∧ (e.sensor k).suspect = true) ∧
        (∀ v, heard k = some v → (e.sensor k).reading = v ∧ (e.sensor k).invalid = false) ∧
        ((d.sensor k).suspect = true → (e.sensor k).suspect = true) ∧
        ((e.sensor k).suspect = false → (e.sensor k).guarded = false → k < 272 → (e.sensor k).control = (e.sensor k).reading)) ∧
      (∀ k ∈ bandDomains, tget e.thm.cellBand k 0 = max (tget t.cellBand k 0)
        (if 380 < e.domainHot k then 2 else if 340 < e.domainHot k then 1 else 0)) ∧
      (e.thm.trip = true ↔ t.trip = true ∨ hot e 420 432) ∧ (t.trip = true → e.thm.tripCold = t.tripCold) ∧
      e.thm.trips = (if t.trip = false ∧ e.thm.trip = true then sat1 t.trips else t.trips) ∧ e.thm.acts = t.acts ∧ shown e ∧
      e.mem = { d.mem with towers := e.mem.towers } ∧
      (e.thm.steps % 10000 ≠ 0 → e.rel = d.rel) ∧
      (e.thm.steps % 10000 = 0 → e.rel.lifePowered = d.rel.lifePowered + 1 ∧
        e.rel.lifeTrip = d.rel.lifeTrip + b2n (decide (e.thm.band = 3)))) ∧
    (n < 368 → (d.sensor n).suspect = true → (d.sensor n).invalid = false → Makes (.sensorRecovery n) s [.thm, .evt] fun e =>
      (e.sensor n).suspect = false ∧ (∀ k, k < 368 → (e.sensor k).reading = (d.sensor k).reading ∧
        (k ≠ n → (e.sensor k).suspect = (d.sensor k).suspect)) ∧
      e.thm = { t with sensors := e.thm.sensors } ∧ e.evt = (d.post 0x0705 n).evt) ∧
    ((368 ≤ n ∨ (d.sensor n).suspect = false ∨ (d.sensor n).invalid = true) → exec (.sensorRecovery n) s = .next s) ∧
    (let b := tget t.cellBand dom 0;
      (dom ∈ bandDomains → b ≠ 0 → d.domainHot dom ≤ (if b = 1 then 328 else 368) →
        Makes (.bandDownTimer dom) s [.thm, .evt, .mem, .fab] fun e => tget e.thm.cellBand dom 0 = b - 1 ∧
          (∀ k, k ≠ dom → tget e.thm.cellBand k 0 = tget t.cellBand k 0) ∧ e.thm.sensors = t.sensors ∧ e.thm.trip = t.trip ∧
          e.thm.acts = t.acts ∧ shown e) ∧
      ((dom ∉ bandDomains ∨ b = 0 ∨ (if b = 1 then 328 else 368) < d.domainHot dom) → exec (.bandDownTimer dom) s = .next s)) ∧
    (let l := (plateSensors.filter fun k => !(d.sensor k).suspect).map fun k => (k, (d.sensor k).reading);
      (l ≠ [] → Does .coldPlateFit s { d with thm := { t with
        plate := Config.plateFit (if t.builtin then [] else d.boot.thermParams) t.est l } }) ∧
      (l = [] → exec .coldPlateFit s = .next s)) ∧
    (Makes .rateOfRiseCheck s [.thm, .evt, .mem, .fab] fun e =>
      (∀ k ∈ [0, 4, 5, 6, 7],
        let warm := ∃ x ∈ d.rises k, 40 ≤ x.2
        let fast := ∃ x ∈ d.rises k, 80 ≤ x.2
        (warm → (k ∈ e.thm.acts ↔ k ∈ t.acts ∨ fast) ∧ tget e.thm.rateLast k 0 = d.evt.time ∧ e.thm.warn = true) ∧
        (¬ warm → (k ∈ e.thm.acts ↔ k ∈ t.acts ∧ d.lately t.rateLast k = true))) ∧
      e.thm.cellBand = t.cellBand ∧ e.thm.trip = t.trip ∧ e.thm.towerTrip = t.towerTrip ∧ e.thm.sensors = t.sensors ∧
      e.thm.est = t.est ∧ shown e) ∧
    (t.trip = true → Answers .tripWaitTimeout s fun t' => t'.dev.thm = t ∧ ((∀ o ∈ d.ops, o.dop ≠ 0x13) → t'.dev.mem = d.mem) ∧ ∀ p, 1 ≤ p → p ≤ 64 →
      ((d.part p).state ≠ .running → t'.dev.part p = d.part p) ∧
      ((d.part p).state = .running → (t'.dev.part p).state ≠ .running ∧
        (t'.dev.part p).cycle = (d.part p).cycle ∧ ∀ k ∈ d.plotsOf p, (t'.dev.plot k).rewind = true)) ∧
    (let still := ∀ p, 1 ≤ p → p ≤ 64 → (d.part p).state ≠ .running ∧ (d.part p).capture = [];
      (t.trip = true → still → Does .tripFreezeComplete s { d with thm := { t with tripCold := true } }) ∧
      (¬ still → exec .tripFreezeComplete s = .next s)) ∧
    (t.trip = true → ¬ hot d 400 412 → Makes .tripEnd s [.thm, .evt, .mem, .fab] fun e => e.thm.trip = false ∧
      e.thm.tripCold = false ∧ e.thm.towerTrip = [] ∧ e.thm.sensors = t.sensors ∧ e.thm.acts = t.acts ∧ shown e ∧
      ∀ k ∈ bandDomains, tget e.thm.cellBand k 0 = if k ≤ 2 ∨ k - 4 ∈ t.towerTrip then 2 else tget t.cellBand k 0) ∧
    (t.trip = true → hot d 400 412 → exec .tripEnd s = .next s) ∧
    (t.trip = false → exec .tripWaitTimeout s = .next s ∧ exec .tripFreezeComplete s = .next s ∧ exec .tripEnd s = .next s)

/-- R545 to R552. -/
def Obligations.ScrubbingAndFallback : Prop :=
  ∀ (m : Master) (n p : Nat) (overrun upset : List Nat) (hits : List CanaryHit) (l : CfgLoc) (j : Nat) (c : BitVec 80)
      (stored late : List (CfgLoc × Nat × BitVec 80)) (ms : BitVec 8)
      (s : State), Up s →
    let d := s.dev
    let r := d.rel
    let canary := r.canaryLost hits
    let now := fun (e : Dev) (t : Tab (BitVec 64)) => ∀ k, 1 ≤ k → k ≤ 64 → tget t k 0 = (e.part k).cycle
    let plot := d.plot l.plot
    let key := wordKey l
    let change := [(l, j, c)]
    let read := (d.upsetStored change).readQuarter key j
    let inUse := d.fab.kupsets = [] ∧ onTier l = true ∧ j < 4 ∧ plot.inDesign = true ∧
      1 ≤ plot.part ∧ plot.part ≤ 64 ∧ l.ctx < ctxCount (d.part plot.part).ctx ∧ plot.logical ∉ (d.part plot.part).damaged
    let corrects := fun (i : Instr) => read.1 = .corrected → Answers i s fun t => t.dev.fab.kupsets = [] ∧
      bits (t.dev.word l.plot l.ctx l.clod l.grain) (64 * j) 64 = read.2.toNat ∧
      ∀ z, z ≠ key → tget t.dev.fab.kaolin z 0 = tget d.fab.kaolin z 0
    let damages := fun (i : Instr) => (read.1 = .uncorrectable ∨ read.1 = .fold) → Answers i s fun t =>
      tget t.dev.fab.kupsets (4 * key + j) 0 = c ∧ t.dev.fab.kaolin = d.fab.kaolin ∧ plot.logical ∈ (t.dev.part plot.part).damaged ∧
      ((d.part plot.part).state = .running → Freeze.damage ∈ (t.dev.part plot.part).freeze) ∧
      (t.dev.part plot.part).state = (d.part plot.part).state ∧
      t.dev.mem.ueValid = true ∧ t.dev.mem.ueKind = (if read.1 = .fold then 2 else 1) ∧ t.dev.mem.ueClass = BitVec.ofNat 5 (kaolinClass l.plot)
    let matching := 1 ≤ p ∧ p ≤ 64 ∧ (d.part p).plots ≠ 0 ∧ (d.plotsOf p).length = (d.part p).plots ∧ (d.part p).damaged = [] ∧
      r.digestVote = true ∧ d.fab.kupsets = [] ∧ ∀ k ∈ d.plotsOf p, (d.plot k).inDesign = true ∧ (d.plot k).part = p ∧
        d.recorded p k = some (d.plotDigest k (ctxCount (d.part p).ctx))
    let judged := fun (c : Instr) (cycles : Tab (BitVec 64)) => Answers c s fun t =>
      let q := t.dev.part p
      q = { d.part p with root := q.root, rooted := true, cleanCycle := (tget cycles p 0).setWidth 48 }
    (d.clocked = true →
      (Answers (.scrubPassStart overrun upset) s fun t => t.dev.rel.passOn = true ∧ now d t.dev.rel.passCycles ∧
        SameBut [.rel, .evt, .start] d t.dev ∧
        (∃ a b, t.dev.rel.passMs = [a, a, a] ∧ t.dev.rel.digest = [b, b, b]) ∧
        (∀ a b, upset = [] → r.passMs = [a, a, a] → r.digest = [b, b, b] →
          t.dev.rel.passMs = r.passMs ∧ t.dev.rel.digest = r.digest ∧ t.dev.rel.votefix = r.votefix) ∧
        (∀ k, k ∈ overrun → k < 512 → r.passOn = true → k ∈ t.dev.rel.fallback) ∧
        (∀ k, k ∈ r.fallback → k ∈ t.dev.rel.fallback)) ∧
      (∀ a b, r.passMs = [a, a, a] → r.digest = [b, b, b] → n < 512 → n ∉ r.fallback → r.passOn = true → d.start.sfScrubEn = false →
        Makes (.scrubPassStart [n] []) s [.rel, .evt] fun e => e.rel.fallback = n :: r.fallback ∧
          e.evt = (d.post 0x0808 (n + 3 * 2 ^ 12)).evt)) ∧
    (d.clocked = false → exec (.scrubPassStart overrun upset) s = .next s) ∧
    (r.passOn = false → exec (.scrubPassEnd hits stored late ms) s = .next s) ∧
    (r.passOn = true →
      (Answers (.scrubPassEnd hits stored late ms) s fun t => t.dev.rel.passOn = false ∧
        t.dev.rel.lastMs.toNat = max r.lastMs.toNat ms.toNat ∧ t.fuse = s.fuse ∧ t.die = s.die ∧ t.pending = s.pending ∧
        (∀ k ∈ canary, k < 512 → k ∈ t.dev.rel.fallback) ∧
        (∀ k ∈ canary, k < 512 → k ∈ r.fallback → (∃ v, (k, v) ∈ r.retry) → tget t.dev.rel.retry k 1 = 0) ∧
        ∀ k ∉ canary, k < 512 → (∃ v, (k, v) ∈ r.retry) → (tget r.retry k 0 = 0 → tget t.dev.rel.retry k 0 = 1 ∧
          (k ∈ r.fallback → k ∈ t.dev.rel.fallback)) ∧ (tget r.retry k 0 ≠ 0 → k ∉ t.dev.rel.fallback ∧ ∀ v, (k, v) ∉ t.dev.rel.retry)) ∧
      (inUse → (l.plot ∉ r.fallback ∨ ∃ v, (l.plot, v) ∈ r.retry) → damages (.scrubPassEnd [] change [] ms) ∧ corrects (.scrubPassEnd [] change [] ms)) ∧
      (matching → (∀ k ∈ d.plotsOf p, k ∉ r.fallback ∨ ∃ v, (k, v) ∈ r.retry) → judged (.scrubPassEnd [] [] late ms) r.passCycles)) ∧
    (r.fallback = [] → exec (.fallbackSoftwarePass stored late) s = .next s) ∧
    (r.fallback ≠ [] →
      (Answers (.fallbackSoftwarePass stored late) s fun t => now d t.dev.rel.softCycles ∧ t.dev.rel.fallback = r.fallback ∧
        t.dev.rel.retry = r.retry) ∧
      (inUse → l.plot ∈ r.fallback → damages (.fallbackSoftwarePass change []) ∧ corrects (.fallbackSoftwarePass change [])) ∧
      (matching → (∃ k ∈ d.plotsOf p, k ∈ r.fallback) → judged (.fallbackSoftwarePass [] late) r.softCycles)) ∧
    (Allowed m s →
      (n ∈ r.fallback → Makes (.scrubRetry m n) s [.rel] fun e => e.rel = { r with retry := tset r.retry n 0 }) ∧
      (n ∉ r.fallback → exec (.scrubRetry m n) s = .next s))

/-- R553 to R563. -/
def Obligations.RepairsPatrolAndVacating : Prop :=
  (∀ (m : Master) (n c : Nat) (persist : Bool) (s : State), Allowed m s →
    let d := s.dev
    let r := d.rel
    let x := d.chan c
    let lo := x.base * 2 ^ 26
    let len := x.user * 2 ^ 26
    let st := (d.plot n).state
    let idle := st = .free ∨ st = .mappedOut ∨ st = .ready ∨ st = .frozen
    let chans := fun (e : Dev) => e.mem = { d.mem with chans := e.mem.chans } ∧ ∀ b, b ≠ c → e.chan b = d.chan b
    let stops := fun (e : Dev) => (∀ j, j ≠ 5 + c → e.stop j = d.stop j) ∧
      e.noc = { d.noc with stops := e.noc.stops, draining := e.noc.draining }
    let refused := fun (why : Nat) => Makes (.ddrVacate m c persist) s [.rel, .evt] fun e =>
      e.rel = { r with ddrResult := BitVec.ofNat 4 why } ∧ e.evt = (d.postSrc 0x0816 (c + why * 2 ^ 8) 0 (5 + c)).evt
    let hits := fun (a : Nat × Nat) => a.1 < lo + len ∧ lo < a.1 + a.2 ∧ 0 < a.2 ∧ 0 < len
    let used := ∃ p a, 1 ≤ p ∧ p ≤ 64 ∧ (d.part p).ddr = some a ∧ hits a
    let journal := ∃ p pl a, 1 ≤ p ∧ p ≤ 64 ∧ (d.part p).placement = some pl ∧ pl.jrnl = some a ∧ hits a
    let bound := ∃ g ∈ d.ime.granules, g.2 ≠ 0 ∧ x.base ≤ g.1 ∧ g.1 < x.base + x.user
    (n < 512 → r.diagBusy = false → idle → Makes (.bondTest m n) s [.rel] fun e =>
      e.rel = { r with diagPlot := BitVec.ofNat 9 n, diagBusy := true, diagNow := n }) ∧
    (n < 512 → (r.diagBusy = true ∨ ¬ idle) → Makes (.bondTest m n) s [.rel] fun e =>
      e.rel = { r with diagPlot := BitVec.ofNat 9 n }) ∧
    (c < 8 → x.state ≠ .active → refused 4) ∧
    (c < 8 → x.state = .active → used → refused 1) ∧
    (c < 8 → x.state = .active → ¬ used → journal → refused 2) ∧
    (c < 8 → x.state = .active → ¬ used → ¬ journal → bound → refused 3) ∧
    (c < 8 → x.state = .active → ¬ used → ¬ journal → ¬ bound → (d.stop (5 + c)).state = .on →
      Makes (.ddrVacate m c persist) s [.rel, .mem, .noc] fun e => e.rel = { r with ddrResult := 0 } ∧ chans e ∧ stops e ∧
        e.chan c = { x with state := .draining, persist := persist } ∧
        e.stop (5 + c) = { d.stop (5 + c) with state := .draining, forced := false } ∧
        e.noc.draining = d.noc.draining ++ [.stop (5 + c)]) ∧
    (c < 8 → x.state = .off → Makes (.ddrRestore m c) s [.rel, .mem, .noc] fun e => e.rel = { r with ddrResult := 0 } ∧
      chans e ∧ stops e ∧ e.chan c = { x with state := .training, restoring := true, metaReady := false } ∧
      e.stop (5 + c) = { d.stop (5 + c) with state := .on, offReq := false }) ∧
    (x.state ≠ .off → exec (.ddrRestore m c) s = .next s)) ∧
  (∀ (c i a : Nat) (bond : Nat × Nat × Nat) (ch : BitVec 80) (k : Nat) (w : PatrolAt) (s : State), Up s →
    let d := s.dev
    let r := d.rel
    let x := d.chan c
    let lo := x.base * 2 ^ 26
    let len := if x.mapped then x.user * 2 ^ 26 else 0
    let lowest := 16 ≤ i ∧ i < 256 ∧ d.keepVal i = 0 ∧ (∀ j, 16 ≤ j → j < i → d.keepVal j ≠ 0) ∧ (d.keepReg i).wcount < 100000
    let vacated := fun (e : Dev) => (∀ b, b ≠ c → e.chan b = d.chan b) ∧
      e.chan c = { x with state := .off, metaReady := false, persist := false } ∧
      (∀ j, j ≠ 5 + c → e.stop j = d.stop j) ∧ e.stop (5 + c) = { d.stop (5 + c) with state := .off, offReq := false } ∧
      ∀ z, cget e.mem.cells z = if lo ≤ z ∧ z < lo + len then none else cget d.mem.cells z
    (r.diagBusy = true →
      let n := r.diagNow
      let kind := if n < 256 then 2 else 3
      let word := kind * 2 ^ 28 + n % 256 * 2 ^ 20 + bond.1 * 2 ^ 10 + bond.2.1 * 2 ^ 6 + bond.2.2
      ((∀ y ∈ d.repairs, repairKind y.2 ≠ kind) → Makes (.bondTestDone []) s [.rel, .evt] fun e =>
        e.rel = { r with diagBusy := false, diagFailed := 0 } ∧ e.evt = (d.post 0x0817 (n * 2 ^ 23)).evt) ∧
      ((∀ y ∈ d.repairs, repairKind y.2 ≠ kind) → lowest → n < 512 → bond.1 < 1024 → bond.2.1 < 16 → bond.2.2 < 64 →
        Answers (.bondTestDone [bond]) s fun t => t.dev.keepVal i = word ∧ (∀ j, j ≠ i → t.dev.keepReg j = d.keepReg j) ∧
          t.dev.rel.diagBusy = false ∧ t.dev.rel.diagFailed = 1 ∧ t.dev.mem = d.mem)) ∧
    (r.diagBusy = false → exec (.bondTestDone [bond]) s = .next s) ∧
    (d.patrolOf w = none → ∀ rd, exec (.patrolRead w rd) s = .next s) ∧
    (∀ cl loc det src, d.patrolOf w = some (cl, loc, det, src) →
      let at_ := a / 64 * 64 + 8 * (k % 8)
      let word := fun (n j row : Nat) => ((d.row (rowKey n j row)).map (·.word)).getD 0 ^^^ ch
      let seen : Verdict × Nat := match w with
        | .line _ => (((d.upset at_ ch).readWord at_).1, d.locOf at_)
        | .bram n j row => ((readCode (rowLoc (rowKey n j row)) (word n j row)).1, rowLoc (rowKey n j row))
        | .tree b off => ((readChanged (locDdr b (off / 64 * 64 + 8 * (k % 8))) 0 ch).1, 0)
      let granted := fun (e : Dev) => e.noc = (d.patrolServed cl).noc
      let logged := fun (e : Dev) (kind : Nat) => granted e ∧ e.rel = { r with pUe := sat1 r.pUe } ∧ e.evt = (d.postSrc 0x0810 det 0 src).evt ∧
        e.mem = { d.mem with upsets := e.mem.upsets, ueValid := true, ueClass := BitVec.ofNat 5 cl, ueKind := BitVec.ofNat 2 kind,
                             ueAddr := BitVec.ofNat 48 loc }
      (w = .line a → loc = a / 64 * 64 ∧ cl = d.classOf a ∧ det = a / 4096 % 2 ^ 32) ∧
      (d.mem.upsets = [] → w = .line a → d.poisoned loc 64 = true → Makes (.patrolRead w .clean) s [.rel, .mem, .evt, .noc] fun e => logged e 3) ∧
      (Intact d → (w = .line a ∨ ∃ b off, w = .tree b off) → Makes (.patrolRead w .clean) s [.noc] granted) ∧
      (Intact d → (∀ b, w = .line b → b = a) → (∀ n j row, w = .bram n j row → d.row (rowKey n j row) ≠ none) →
        (seen.1 = .corrected → Makes (.patrolRead w (.upset k ch)) s [.rel, .mem, .fab, .evt, .noc] fun e =>
          granted e ∧ e.rel = { r with pCorrected := sat1 r.pCorrected } ∧ e.mem.upsets = [] ∧
          ((∀ b off, w ≠ .tree b off) → e.evt = (d.countCorrected cl seen.2).evt ∧ e.mem.buckets = (d.countCorrected cl seen.2).mem.buckets) ∧
          ((∀ n j row, w ≠ .bram n j row) → e.fab = d.fab) ∧
          ∀ n j row, w = .bram n j row → e.row (rowKey n j row) =
            some { word := codeword seen.2 (readCode seen.2 (word n j row)).2 }) ∧
        ((seen.1 = .uncorrectable ∨ seen.1 = .fold) → Makes (.patrolRead w (.upset k ch)) s [.rel, .mem, .fab, .evt, .noc] fun e =>
          logged e (if seen.1 = .fold then 2 else 1) ∧ (w = .line a → tget e.mem.upsets (at_ / 8) 0 = ch) ∧
          ((∀ n j row, w ≠ .bram n j row) → e.fab = d.fab) ∧
          ∀ n j row, w = .bram n j row → e.row (rowKey n j row) = some { word := word n j row }))) ∧
    (i ∉ r.copies → exec (.spareBankCopyDone i []) s = .next s) ∧
    (i ∈ r.copies → d.mem.upsets = [] →
      let word := d.keepVal i
      let m := word / 2 ^ 26 % 4
      let first := bankLine word k
      let poisons := fun (upset : List (Nat × BitVec 80)) (rows : List Nat) => Makes (.spareBankCopyDone i upset) s [.rel, .mem, .evt] fun e =>
        (∀ k, k ∈ e.rel.copies ↔ k ∈ r.copies ∧ k ≠ i) ∧ BitVec.ofNat 32 word ∈ e.rel.applied ∧
        e.rel = { r with copies := e.rel.copies, applied := e.rel.applied } ∧
        e.mem = { d.mem with poison := e.mem.poison, upsets := e.mem.upsets, towers := e.mem.towers, cells := e.mem.cells } ∧
        (upset = [] → e.mem.upsets = [] ∧ e.mem.cells = d.mem.cells) ∧
        (∀ z, z < 64 * first ∨ 64 * first + 1024 ≤ z → cget e.mem.cells z = cget d.mem.cells z) ∧
        (∀ q, q ≠ m → e.tower q = d.tower q) ∧ e.tower m = { d.tower m with rowMoves := satAdd (d.tower m).rowMoves 4096 } ∧
        (∀ z, z ∈ e.mem.poison ↔ z ∈ d.mem.poison ∨ ∃ k ∈ rows, bankLine word k ≤ z ∧ z < bankLine word k + 16) ∧
        e.evt = (d.postSrc 0x0813 (word % 2 ^ 28 + min 15 rows.length * 2 ^ 28) 0 (13 + m)).evt
      poisons [] ((span 0 4096).filter fun k => d.poisoned (64 * bankLine word k) 1024) ∧
      (d.mem.poison = [] → k < 4096 → a < 128 →
        let v := ((d.upset (64 * first + 8 * a) ch).readWord (64 * first + 8 * a)).1
        (v = .uncorrectable ∨ v = .fold) → poisons [(64 * first + 8 * a, ch)] [k])) ∧
    (c < 8 → x.state = .draining → (d.stop (5 + c)).state = .drained →
      (x.persist = false → Makes (.ddrVacateDone c) s [.noc, .mem, .evt] fun e => vacated e ∧
        e.evt = ((d.postSrc 0x0512 (5 + c) 0 (5 + c)).postSrc 0x0815 c 0 (5 + c)).evt) ∧
      (x.persist = true → (∀ y ∈ d.repairs, y.2 ≠ 9 * 2 ^ 28 + c) → lowest → Answers (.ddrVacateDone c) s fun t =>
        vacated t.dev ∧ t.dev.keepVal i = 9 * 2 ^ 28 + c ∧ ∀ j, j ≠ i → t.dev.keepReg j = d.keepReg j)) ∧
    ((x.state ≠ .draining ∨ (d.stop (5 + c)).state ≠ .drained) → exec (.ddrVacateDone c) s = .next s) ∧
    (let sum := r.lifeSum.toInt;
      let cold := 380 * (r.lifePowered : Int) < sum;
      let share := r.lifePowered < 10 * (r.lifeC + r.lifeTrip);
      let due := 2592000 ≤ r.lifePowered ∧ (cold ∨ share) ∧ ∀ z, r.lifeEvt = some z → z + 86400 ≤ r.lifePowered;
      (due → Makes .lifeCheck s [.rel, .evt] fun e => e.rel = { r with lifeEvt := some r.lifePowered } ∧
        ∃ det, e.evt = (d.post 0x0818 det).evt ∧ (det % 2 = 1 ↔ cold) ∧ (det / 2 = 1 ↔ share)) ∧
      (¬ due → exec .lifeCheck s = .next s)))

/-- R566, R568, R570 to R580. -/
def Obligations.MeterDieMeasuresAndLogs : Prop :=
  ∀ (mw len : Nat) (railsUp calOk : Bool) (ptr : BitVec 8) (data : List (BitVec 8)) (addr : BitVec 7) (v : BitVec 16) (s : State),
    let m := s.die
    let r := m.regs
    let makes := fun (c : Instr) (P : MeterDie → Prop) => Answers c s fun t =>
      t.dev = s.dev ∧ t.fuse = s.fuse ∧ t.pending = s.pending ∧ P t.die
    let logged := fun (a b : MeterRegs) (type dat : Nat) =>
      b.logseq = a.logseq + 1 ∧ b.logwraps = a.logwraps + (if 1024 ≤ a.log.length then 1 else 0) ∧ ∃ x : LogEntry,
        b.log = (if 1024 ≤ a.log.length then a.log.drop 1 else a.log) ++ [x] ∧ x.seq = b.logseq ∧
        x.seconds = a.seconds.setWidth 32 ∧ x.energy = a.energy.setWidth 48 ∧ x.type.toNat = type ∧ x.data.toNat = dat
    let shape := fun (a b : MeterRegs) => b = { a with log := b.log, logseq := b.logseq, logwraps := b.logwraps }
    let counted := { m with regs := { r with wrcount := r.wrcount + 1 }, wrMinute := m.wrMinute + 1 }
    (m.powered = true →
      (makes (.meterSample mw) fun e =>
        e = { m with power := mw, pulse := e.pulse, regs := { r with energy := e.regs.energy, energyFrac := e.regs.energyFrac } } ∧
        (r.calFault = true → e.regs = r ∧ e.pulse = m.pulse) ∧
        (r.calFault = false → e.regs.energyFrac < 14400000 ∧ ∃ k, r.energyFrac + mw = 14400000 * k + e.regs.energyFrac ∧
          e.regs.energy = r.energy + BitVec.ofNat 64 k ∧ e.pulse = m.pulse + k)) ∧
      (makes .meterSecond fun e => e = { m with regs := { r with
        seconds := r.seconds + 1, optime := if 1000 ≤ m.power ∧ r.calFault = false then r.optime + 1 else r.optime } }) ∧
      (makes .meterStore fun e => e = { m with store := r }) ∧
      (makes .mvddPowerFail fun e => e = { m with regs := e.regs, store := e.regs, powered := false } ∧ shape r e.regs ∧
        logged r e.regs 2 0) ∧
      (makes .meterTamper fun e => e = { m with regs := e.regs } ∧ shape { r with tamper := true } e.regs ∧ logged r e.regs 3 0) ∧
      (r.clockFault = false → makes .crystalFault (fun e => e = { m with regs := e.regs, internal := true } ∧
          shape { r with clockFault := true } e.regs ∧ logged r e.regs 5 1) ∧ exec .crystalRecovered s = .next s) ∧
      (r.clockFault = true → makes .crystalRecovered (fun e => e = { m with regs := e.regs, internal := false } ∧
          shape { r with clockFault := false } e.regs ∧ logged r e.regs 5 0) ∧ exec .crystalFault s = .next s) ∧
      (100 ≤ m.pulse → r.calFault = false → makes .mpulseImpulse fun e =>
        e = { m with pulse := m.pulse - 100, pulses := m.pulses + 1 }) ∧
      ((m.pulse < 100 ∨ r.calFault = true) → exec .mpulseImpulse s = .next s) ∧
      (r.seconds.toNat % 60 ≠ 0 → exec .meterMinute s = .next s) ∧
      (r.seconds.toNat % 60 = 0 → makes .meterMinute fun e =>
        e.regs.rseq = r.rseq + 1 ∧ shape { r with rseq := r.rseq + 1 } e.regs ∧ e.badCounts = 0 ∧ e.wrMinute = 0 ∧
        (m.badCounts = 0 → m.wrMinute = 0 → e.regs.log = r.log ∧ e.regs.logseq = r.logseq) ∧
        (m.badCounts ≠ 0 → m.wrMinute = 0 → logged r e.regs 7 (min 255 m.badCounts)) ∧
        (m.badCounts = 0 → m.wrMinute ≠ 0 → logged r e.regs 8 (min 255 m.wrMinute)) ∧
        (m.badCounts ≠ 0 → m.wrMinute ≠ 0 → e.regs.logseq = r.logseq + 2) ∧
        (m.nonce = none → e = { m with regs := e.regs, badCounts := 0, wrMinute := 0 }) ∧
        ∀ n, m.nonce = some n →
          e = { m with regs := e.regs, badCounts := 0, wrMinute := 0, nonce := none, rstat := 2, readout := e.readout,
                       ibi := m.ibi + (if m.ibiEn then 1 else 0) } ∧
          e.readout.length = 16864 ∧ field e.readout 0 4 = 0x524D5A56 ∧ field e.readout 4 2 = 1 ∧
          field e.readout 0x08 16 = m.serial.toNat ∧ field e.readout 0x78 8 = e.regs.rseq.toNat ∧
          field e.readout 0x80 8 = r.seconds.toNat ∧ field e.readout 0x88 8 = r.energy.toNat ∧
          field e.readout 0xA0 4 = e.regs.logseq.toNat ∧ field e.readout 0xA8 32 = n.toNat) ∧
      (data = [] → makes (.i3cPrivateWrite ptr data) fun e => e = { m with ptr := ptr }) ∧
      (data ≠ [] → ptr ≠ 0x20 → ptr ≠ 0x40 → makes (.i3cPrivateWrite ptr data) fun e => e = { counted with ptr := ptr }) ∧
      (∀ c, (c = .req data ∨ c = .i3cPrivateWrite 0x20 data) → 32 ≤ data.length →
        (m.nonce = none → makes c fun e => e = { counted with
          ptr := 0x20, nonce := some (BitVec.ofNat 256 (leNat (data.take 32))), rstat := 1 }) ∧
        (m.nonce ≠ none → makes c fun e => e = { counted with ptr := 0x20, rstat := 3 })) ∧
      (∀ c, (c = .logsel data ∨ c = .i3cPrivateWrite 0x40 data) → 2 ≤ data.length →
        makes c fun e => e = { counted with ptr := 0x40, logsel := leNat (data.take 2) }) ∧
      (makes (.i3cPrivateRead len) fun e => e = { m with bus := e.bus } ∧ e.bus.length = len ∧
        (∀ j, j < len → e.bus[j]? = some ((m.item m.ptr.toNat)[j]?.getD 0)) ∧
        (m.ptr = 0x10 → 48 ≤ len → field e.bus 0 8 = r.seconds.toNat ∧ field e.bus 8 8 = r.energy.toNat ∧
          field e.bus 16 8 = r.optime.toNat ∧ field e.bus 24 8 = r.wrcount.toNat ∧ field e.bus 32 4 = r.logseq.toNat ∧
          field e.bus 36 4 = r.logwraps.toNat ∧ field e.bus 40 2 = b2n r.tamper + 2 * b2n r.calFault + 4 * b2n r.clockFault +
            8 * b2n r.unmetered) ∧
        (m.ptr = 0x20 → ∀ j, j < len → e.bus[j]? = some 0)) ∧
      (m.dynAddr = none → (makes (.setdasa addr) fun e => e = { m with dynAddr := some addr }) ∧
        (makes (.entdaa addr) fun e => e = { m with dynAddr := some addr }) ∧ exec (.setnewda addr) s = .next s ∧
        exec (.setmwl v) s = .next s ∧ exec (.setmrl v) s = .next s) ∧
      (m.dynAddr ≠ none → (makes (.setnewda addr) fun e => e = { counted with dynAddr := some addr }) ∧
        (makes (.setmwl v) fun e => e = { counted with mwl := v }) ∧ (makes (.setmrl v) fun e => e = { counted with mrl := v }) ∧
        exec (.setdasa addr) s = .next s ∧ exec (.entdaa addr) s = .next s) ∧
      (makes .enec fun e => e = { m with ibiEn := true, ibi := e.ibi } ∧
        e.ibi = m.ibi + (if m.ibiEn = false ∧ m.rstat = 2 then 1 else 0)) ∧
      exec (.meterPowerUp railsUp calOk) s = .next s) ∧
    (m.powered = false →
      (makes (.meterPowerUp railsUp calOk) fun e =>
        let q := m.store
        let n := 1 + b2n (!calOk) + b2n railsUp
        e.powered = true ∧ e.store = q ∧ e.calOk = calOk ∧ e.regs.energy = q.energy ∧ e.regs.seconds = q.seconds ∧
        e.regs.optime = q.optime ∧ e.regs.wrcount = q.wrcount ∧ e.regs.tamper = q.tamper ∧ e.regs.dcyc = q.dcyc ∧
        e.regs.plotms = q.plotms ∧ e.regs.rseq = q.rseq ∧ e.regs.clockFault = q.clockFault ∧
        e.regs.calFault = (q.calFault || !calOk) ∧ e.regs.unmetered = (q.unmetered || railsUp) ∧
        e.regs.logseq = q.logseq + BitVec.ofNat 32 n ∧ e.nonce = none ∧ e.rstat = 0 ∧ e.dynAddr = none ∧
        (calOk = true → railsUp = false → logged q e.regs 1 0) ∧
        (q.log.length + 3 ≤ 1024 → e.regs.log.take q.log.length = q.log ∧
          (e.regs.log.drop q.log.length).map (fun x => x.type.toNat) =
            1 :: ((if calOk then [] else [4]) ++ if railsUp then [6] else []))) ∧
      ∀ c, (c = .meterSample mw ∨ c = .meterSecond ∨ c = .meterStore ∨ c = .mvddPowerFail ∨ c = .meterTamper ∨
        c = .crystalFault ∨ c = .crystalRecovered ∨ c = .mpulseImpulse ∨ c = .meterMinute ∨ c = .i3cPrivateWrite ptr data ∨
        c = .req data ∨ c = .logsel data ∨ c = .i3cPrivateRead len ∨ c = .setdasa addr ∨ c = .entdaa addr ∨ c = .setnewda addr ∨
        c = .setmwl v ∨ c = .setmrl v ∨ c = .enec) → exec c s = .next s)

/-- R569, R581, R582, R584, R585. -/
def Obligations.MeterBridgeFrames : Prop :=
  ∀ (bytes : List (BitVec 8)) (crc secs : BitVec 32) (wire : BitVec 128) (upset : List (Nat × BitVec 8)) (s : State), Up s →
    let d := s.dev
    let x := d.mtr
    let r := s.die.regs
    (s.die.powered = true →
      let w := changeBytes s.die.valueFrame upset
      let takes := fun (r : MeterRegs) => Makes (.valueFrame upset) s [.mtr, .evt] fun e =>
        let y := e.mtr
        let flags := b2n r.tamper + 2 * b2n r.calFault + 4 * b2n r.clockFault + 8 * b2n r.unmetered
        let fresh := BitVec.ofNat 4 flags &&& ~~~x.flags
        let rise := (r.wrcount - x.wrPosted).toNat
        let tell := x.rxTime ≠ none ∧ rise ≠ 0 ∧ ∀ t, x.wrTime = some t → 250000000 ≤ (d.evt.time - t).toNat
        y.link = true ∧ y.lost = false ∧ y.flags = BitVec.ofNat 4 flags ∧ y.seconds = r.seconds ∧ y.energy = r.energy ∧
        y.optime = r.optime ∧ y.wrcount = r.wrcount ∧ y.logseq = r.logseq ∧ y.logwraps = r.logwraps ∧
        y.rxTime = some d.evt.time ∧ y.badFrames = x.badFrames ∧ y.sent = x.sent ∧ y.form1 = x.form1 ∧
        (∀ p, 1 ≤ p → p ≤ 64 → tget y.dcyc p 0 = tget r.dcyc p 0 ∧ tget y.plotms p 0 = tget r.plotms p 0) ∧
        ∃ d1 d2 d3, (x.lost = true ∧ d1 = d.post 0x0B02 0 ∨ x.lost = false ∧ d1 = d) ∧
          (fresh ≠ 0 ∧ d2 = d1.post 0x0B04 fresh.toNat ∨ fresh = 0 ∧ d2 = d1) ∧
          (x.flags.getLsbD 2 = true ∧ r.clockFault = false ∧ d3 = d2.post 0x0B05 0 ∨
            (x.flags.getLsbD 2 = false ∨ r.clockFault = true) ∧ d3 = d2) ∧
          (tell → e.evt = (d3.post 0x0B07 rise).evt ∧ y.wrPosted = r.wrcount ∧ y.wrTime = some d.evt.time) ∧
          (¬ tell → e.evt = d3.evt ∧ y.wrTime = x.wrTime)
      (w = s.die.valueFrame → takes r) ∧ (w ≠ s.die.valueFrame → valueOk w = true → takes (valuesOf w)) ∧
      (w ≠ s.die.valueFrame → valueOk w = false →
        Makes (.valueFrame upset) s [.mtr, .evt] fun e => e.mtr = { x with badFrames := sat1 x.badFrames } ∧
          e.evt = (d.post 0x0B06 1).evt) ∧
      (bytes.length = 16864 →
        (crc32c bytes ≠ crc → Makes (.signedReadoutFrame bytes crc) s [.mtr, .evt] fun e =>
          e.mtr = { x with badFrames := sat1 x.badFrames } ∧ e.evt = (d.post 0x0B06 1).evt) ∧
        (crc32c bytes = crc → (∀ o ∈ d.ops, waitsReadout o = false) → exec (.signedReadoutFrame bytes crc) s = .next s) ∧
        (∀ o, crc32c bytes = crc → d.ops.filter waitsReadout = [o] → d.op o.thread o.slot = some o → d.ime.sealed = false →
          Makes (.signedReadoutFrame bytes crc) s [.mtr, .mem, .seq, .ops] fun e =>
            let z := seqAddr o.b.toNat
            Finishes d e o ∧ e.mtr = { x with form1 := some d.evt.time } ∧
            (∀ j < 16864, cget e.mem.cells (z + j) = bytes[j]?) ∧
            (d.mem.upsets = [] → ∀ j, j < z ∨ z + 16864 ≤ j → cget e.mem.cells j = cget d.mem.cells j)))) ∧
    (s.die.powered = false → exec (.valueFrame upset) s = .next s ∧ exec (.signedReadoutFrame bytes crc) s = .next s) ∧
    (bytes.length ≠ 16864 → exec (.signedReadoutFrame bytes crc) s = .next s) ∧
    (d.feat 13 = false → exec .countFrameSend s = .next s) ∧
    (d.feat 13 = true → Makes .countFrameSend s [.mtr, .parts] fun e =>
      (∀ p, (1 ≤ p ∧ p ≤ 64 → e.part p = { d.part p with
          dcycInc := (d.part p).dcycInc - min (d.part p).dcycInc (2 ^ 48 - 1),
          plotmsInc := (d.part p).plotmsInc - min (d.part p).plotmsInc (2 ^ 32 - 1) }) ∧
        (p = 0 ∨ 64 < p → e.part p = d.part p)) ∧
      ∃ l : List CountFrame, e.mtr = { x with sent := x.sent ++ l, seqNo := x.seqNo + BitVec.ofNat 16 l.length } ∧
        l.map (fun f => f.part.toNat) = (span 1 64).filter (fun p => decide ((d.part p).dcycInc ≠ 0 ∨ (d.part p).plotmsInc ≠ 0)) ∧
        ∀ (j : Nat) (f : CountFrame), l[j]? = some f → f.type = 1 ∧ f.seq = x.seqNo + BitVec.ofNat 16 j ∧
          f.dcyc.toNat = min (d.part f.part.toNat).dcycInc (2 ^ 48 - 1) ∧
          f.plotms.toNat = min (d.part f.part.toNat).plotmsInc (2 ^ 32 - 1)) ∧
    (x.sent = [] → exec (.countFrame wire) s = .next s) ∧
    (∀ g rest, x.sent = g :: rest →
      let v := g.wire ^^^ wire
      let f := if wire = 0 then g else countOf v
      let good := (wire = 0 ∨ countOk v = true) ∧ f.type = 1 ∧ 1 ≤ f.part.toNat ∧ f.part.toNat ≤ 64 ∧ s.die.cntSeq ≠ some f.seq
      Answers (.countFrame wire) s fun t => t.fuse = s.fuse ∧ t.pending = s.pending ∧
        t.dev = { d with mtr := { x with sent := rest } } ∧
        (s.die.powered = false → t.die = s.die) ∧
        (s.die.powered = true → good → t.die = { s.die with cntSeq := some f.seq, regs := { r with
          dcyc := tset r.dcyc f.part.toNat (tget r.dcyc f.part.toNat 0 + f.dcyc.setWidth 64),
          plotms := tset r.plotms f.part.toNat (tget r.plotms f.part.toNat 0 + f.plotms.setWidth 64) } }) ∧
        (s.die.powered = true → ¬ good → t.die = { s.die with badCounts := s.die.badCounts + 1 })) ∧
    (x.lost = false → Makes (.meterLinkLost secs) s [.mtr, .evt] fun e => e.mtr = { x with lost := true, link := false } ∧
      e.evt = (d.post 0x0B01 secs.toNat).evt) ∧
    (x.lost = true → exec (.meterLinkLost secs) s = .next s)

/-- The Reset columns of the register tables (R91, R138, R220, R256, R294, R435, R466, R501, R544, R565). -/
def Obligations.ResetValues : Prop :=
  ∀ (f : Fuses) (n : Nat),
    let d := State.reset.dev
    let reads := fun (off : Nat) (w : Nat) => (d.readReg f off).toNat = w
    reads 0x20008 0x10 ∧ reads 0x20010 0x3E8 ∧ reads 0x200008 3 ∧ reads 0x200018 1 ∧ reads 0x300000 0x404 ∧
    reads 0x300010 0x8000040000080040 ∧ reads 0x100018 0x3E8 ∧ reads 0x600010 0x258000003E8 ∧
    reads 0x700008 0x2000004200 ∧ reads 0x700010 0x3E8 ∧ reads 0x700018 0 ∧ reads 0x900000 0x10 ∧ reads 0xA00008 0xA0 ∧
    reads 0xA00010 0x7890A0 ∧ reads 0xA00018 0xC8 ∧ reads 0xB00000 0x4001 ∧ reads 0xB00058 0x18 ∧
    (n ≤ 64 → reads (0x100100 + 8 * n) (if n = 0 then 0x4000000 else 0) ∧ reads (0x100400 + 8 * n) 0xA00000000000) ∧
    (n < 64 → reads (0x600200 + 8 * n) (if n = 0 then 0x4000000000000000 else 0)) ∧
    (n < 40 → reads (0x700100 + 8 * n) (if n ≤ 36 then 0x2000000000000000 else 0)) ∧
    (n ≤ 50 → 0 < arbReqs n → reads (0x700400 + 8 * n) (arbReqs n * 2 ^ 56 + 0x10000010000C0)) ∧
    (∀ p, (d.part p).state = .none) ∧ d.ops = [] ∧ d.mem.cells = [] ∧ State.reset.pending = []

/-- R566, R576 at reset, on the values that log 12 names. -/
def Obligations.MeterRegistersInOrderAtReset : Prop := State.reset.die.regs.InOrder ∧ State.reset.die.store.InOrder

/-- R566, R570, R576: entry sequence numbers run on without a break. -/
def Obligations.MeterRegistersStayInOrder : Prop :=
  ∀ s t : State, s.die.regs.InOrder → s.die.store.InOrder → step s = .next t → t.die.regs.InOrder ∧ t.die.store.InOrder

/-- R26, R27, R64, R568 to R571. -/
def Obligations.OnlyTheirCommandsChangeFusesAndMeter : Prop :=
  ∀ s t : State, step s = .next t →
    let a := s.die.regs
    let b := t.die.regs
    (∃ n, s.fuse.svnFused ≤ n ∧ t.fuse = { s.fuse with svnFused := n }) ∧
    (t.fuse ≠ s.fuse → s.pending.head? = some .svnFuseDone ∧ s.dev.boot.svnTarget = some t.fuse.svnFused) ∧
    (t.die ≠ s.die → ∃ c, s.pending.head? = some c ∧
      ((∃ x y, c = .meterPowerUp x y) ∨ c = .mvddPowerFail ∨ (∃ x, c = .meterSample x) ∨ c = .meterSecond ∨ c = .meterStore ∨
        c = .meterMinute ∨ c = .meterTamper ∨ c = .crystalFault ∨ c = .crystalRecovered ∨ c = .mpulseImpulse ∨
        (∃ x y, c = .i3cPrivateWrite x y) ∨ (∃ x, c = .req x) ∨ (∃ x, c = .logsel x) ∨ (∃ x, c = .i3cPrivateRead x) ∨
        (∃ x, c = .setdasa x) ∨ (∃ x, c = .entdaa x) ∨ (∃ x, c = .setnewda x) ∨ (∃ x, c = .setmwl x) ∨ (∃ x, c = .setmrl x) ∨
        c = .enec ∨ ∃ x, c = .countFrame x)) ∧
    (s.die.powered = true →
      (a.tamper = true → b.tamper = true) ∧ (a.unmetered = true → b.unmetered = true) ∧
      (b.seconds = a.seconds ∨ b.seconds = a.seconds + 1) ∧ (b.optime = a.optime ∨ b.optime = a.optime + 1) ∧
      (b.wrcount = a.wrcount ∨ b.wrcount = a.wrcount + 1) ∧ (b.rseq = a.rseq ∨ b.rseq = a.rseq + 1) ∧
      ((∀ x, s.pending.head? ≠ some (.countFrame x)) → b.dcyc = a.dcyc ∧ b.plotms = a.plotms))

/-- R77, R420. -/
def Obligations.SealHaltEndsOnlyInAColdReset : Prop :=
  ∀ s t : State, s.dev.ime.sealed = true → step s = .next t →
    t.dev.ime.sealed = true ∨
      (t.dev.boot.phase = .selftest ∧ t.dev.ops = [] ∧ t.dev.mem.cells = [] ∧ ∀ k, (t.dev.keyid k).key = 0)

end Statements
end

