-- ==== Sys2Proof/Laws/Caches.lean ====
section
/-! SUPPORT. What a lookup in the IME's caches can do (R397 to R399, R405). -/
namespace Sys2Proof.Machine

/-- The parts of a device that lookups of the counter cache change. -/
def Dev.sameBesideNodes (d e : Dev) : Prop :=
  e = { d with
    ime := { d.ime with
      ccLines := e.ime.ccLines, lagging := e.ime.lagging, ccHits := e.ime.ccHits, ccMisses := e.ime.ccMisses },
    free := e.free }

theorem sameBesideNodes_refl (d : Dev) : d.sameBesideNodes d := rfl

theorem sameBesideNodes_trans {a b c : Dev} (h : a.sameBesideNodes b) (g : b.sameBesideNodes c) : a.sameBesideNodes c := by
  unfold Dev.sameBesideNodes at *
  rw [g, h]

theorem countLookup_beside (d : Dev) (hit : Bool) : d.sameBesideNodes (d.countLookup hit) := by
  unfold Dev.countLookup; split <;> rfl

theorem writeBackNode_beside (d : Dev) (key : Nat) : d.sameBesideNodes (d.writeBackNode key) := by
  unfold Dev.writeBackNode Dev.dirtyNode
  split
  · rfl
  · dsimp only
    split
    · split <;> rfl
    · rfl

theorem putNode_beside (d : Dev) (entry key : Nat) : d.sameBesideNodes (d.putNode entry key) := rfl

theorem draw_beside (d : Dev) (n : Nat) : d.sameBesideNodes (d.draw n) := rfl

theorem withParent_beside {fetch : Dev → Nat → Dev × List Nat} (h : ∀ (e : Dev) k, e.sameBesideNodes (fetch e k).1) (x : Dev × List Nat) (key : Nat) :
    x.1.sameBesideNodes (Dev.withParent fetch x key).1 := by
  unfold Dev.withParent
  split
  · exact h _ _
  · rfl

theorem roomFor_beside {fetch : Dev → Nat → Dev × List Nat} (h : ∀ (e : Dev) k, e.sameBesideNodes (fetch e k).1) (x : Dev × List Nat) (base : Nat) :
    x.1.sameBesideNodes (Dev.roomFor fetch x base).1.1 := by
  unfold Dev.roomFor
  split
  · rfl
  · refine sameBesideNodes_trans ?_ (sameBesideNodes_trans (writeBackNode_beside _ _) (draw_beside _ 1))
    split
    · rfl
    · exact withParent_beside h _ _

/-- A lookup of the counter cache changes nothing beside the cache. -/
theorem bringNode_beside (f : Nat) : ∀ (d : Dev) (key : Nat), d.sameBesideNodes (d.bringNode f key).1 := by
  induction f with
  | zero => intro d key; rfl
  | succ f ih =>
    intro d key
    have room := sameBesideNodes_trans (countLookup_beside d (holds d.ime.ccLines key))
      (sameBesideNodes_trans (withParent_beside ih (_, []) key) (roomFor_beside ih _ (cacheBase false key)))
    simp only [Dev.bringNode]
    split
    · exact countLookup_beside _ _
    · split
      · exact room
      · exact sameBesideNodes_trans room (putNode_beside _ _ _)

/-- A node's key names a counter block. -/
def isBlock (key : Nat) : Prop := (nodeOf key).2.1 = 0

theorem nodeUp_not_block {key : Nat} (h : (nodeOf key).2.1 < 16) : ¬ isBlock (nodeUp key) := by
  simp only [isBlock, nodeUp, nodeKey, nodeOf] at *
  omega

/-- Counter blocks of the counter cache come from another list. -/
def Dev.blocksIn (d : Dev) (l : List Nat) : Prop := ∀ x ∈ d.ime.ccLines, isBlock x.2 → x.2 ∈ l

theorem mem_tset {α : Type} {t : Tab α} {k : Nat} {v : α} {x : Nat × α} : x ∈ tset t k v → x = (k, v) ∨ x ∈ t := by
  induction t with
  | nil => simp [tset]
  | cons y r ih =>
    obtain ⟨i, z⟩ := y
    simp only [tset]
    split
    · simp
    · split <;> simp only [List.mem_cons]
      · exact fun h => h.imp_right .inr
      · exact fun h => h.elim (fun e => .inr (.inl e)) fun e => (ih e).imp_right .inr

theorem withParent_blocks {fetch : Dev → Nat → Dev × List Nat} (h : ∀ (e : Dev) k l, ¬ isBlock k → e.blocksIn l → (fetch e k).1.blocksIn l)
    {x : Dev × List Nat} {l : List Nat} (hx : x.1.blocksIn l) (key : Nat) : (Dev.withParent fetch x key).1.blocksIn l := by
  unfold Dev.withParent
  split
  · rename_i lt
    exact h _ _ _ (nodeUp_not_block (by unfold Dev.treeTop at lt; omega)) hx
  · exact hx

theorem writeBackNode_blocks {d : Dev} {l : List Nat} (h : d.blocksIn l) (key : Nat) : (d.writeBackNode key).blocksIn l := by
  unfold Dev.writeBackNode Dev.dirtyNode
  split
  · exact h
  · dsimp only
    split
    · split <;> exact h
    · exact h

theorem roomFor_blocks {fetch : Dev → Nat → Dev × List Nat} (h : ∀ (e : Dev) k l, ¬ isBlock k → e.blocksIn l → (fetch e k).1.blocksIn l)
    {x : Dev × List Nat} {l : List Nat} (hx : x.1.blocksIn l) (base : Nat) : (Dev.roomFor fetch x base).1.1.blocksIn l := by
  unfold Dev.roomFor
  split
  · exact hx
  · apply writeBackNode_blocks
    split
    · exact hx
    · exact withParent_blocks h hx _

/-- A lookup of a tree node brings no counter block into the cache. -/
theorem bringNode_blocks (f : Nat) : ∀ (d : Dev) (key : Nat) (l : List Nat), ¬ isBlock key → d.blocksIn l → (d.bringNode f key).1.blocksIn l := by
  induction f with
  | zero => intro d key l _ h; exact h
  | succ f ih =>
    intro d key l hk h
    have hc : (d.countLookup (holds d.ime.ccLines key)).blocksIn l := by unfold Dev.countLookup; split <;> exact h
    have room := roomFor_blocks ih (withParent_blocks ih (x := (_, [])) hc key) (cacheBase false key)
    simp only [Dev.bringNode]
    split
    · exact hc
    · split
      · exact room
      · intro x hx hb
        rcases mem_tset hx with hx | hx
        · subst hx; exact absurd hb hk
        · exact room x hx hb

end Sys2Proof.Machine
end

