-- ==== Sys2Proof/Laws/State.lean ====
section
/-! SUPPORT. The fields of the device under its named updates: each update changes one group of state and leaves every other. -/
namespace Sys2Proof.Machine
variable (d : Dev)

@[simp] theorem Dev.updThr_keep (n : Nat) (f : Thread → Thread) : (d.updThr n f).keep = d.keep := rfl
@[simp] theorem Dev.updThr_boot (n : Nat) (f : Thread → Thread) : (d.updThr n f).boot = d.boot := rfl
@[simp] theorem Dev.updThr_pcie (n : Nat) (f : Thread → Thread) : (d.updThr n f).pcie = d.pcie := rfl
@[simp] theorem Dev.updThr_rst (n : Nat) (f : Thread → Thread) : (d.updThr n f).rst = d.rst := rfl
@[simp] theorem Dev.updThr_evt (n : Nat) (f : Thread → Thread) : (d.updThr n f).evt = d.evt := rfl
@[simp] theorem Dev.updThr_clk (n : Nat) (f : Thread → Thread) : (d.updThr n f).clk = d.clk := rfl
@[simp] theorem Dev.updThr_ops (n : Nat) (f : Thread → Thread) : (d.updThr n f).ops = d.ops := rfl
@[simp] theorem Dev.updThr_icp (n : Nat) (f : Thread → Thread) : (d.updThr n f).icp = d.icp := rfl
@[simp] theorem Dev.updThr_fab (n : Nat) (f : Thread → Thread) : (d.updThr n f).fab = d.fab := rfl
@[simp] theorem Dev.updThr_start (n : Nat) (f : Thread → Thread) : (d.updThr n f).start = d.start := rfl
@[simp] theorem Dev.updThr_plc (n : Nat) (f : Thread → Thread) : (d.updThr n f).plc = d.plc := rfl
@[simp] theorem Dev.updThr_parts (n : Nat) (f : Thread → Thread) : (d.updThr n f).parts = d.parts := rfl
@[simp] theorem Dev.updThr_pins (n : Nat) (f : Thread → Thread) : (d.updThr n f).pins = d.pins := rfl
@[simp] theorem Dev.updThr_mem (n : Nat) (f : Thread → Thread) : (d.updThr n f).mem = d.mem := rfl
@[simp] theorem Dev.updThr_ime (n : Nat) (f : Thread → Thread) : (d.updThr n f).ime = d.ime := rfl
@[simp] theorem Dev.updThr_noc (n : Nat) (f : Thread → Thread) : (d.updThr n f).noc = d.noc := rfl
@[simp] theorem Dev.updThr_ring (n : Nat) (f : Thread → Thread) : (d.updThr n f).ring = d.ring := rfl
@[simp] theorem Dev.updThr_obs (n : Nat) (f : Thread → Thread) : (d.updThr n f).obs = d.obs := rfl
@[simp] theorem Dev.updThr_tap (n : Nat) (f : Thread → Thread) : (d.updThr n f).tap = d.tap := rfl
@[simp] theorem Dev.updThr_thm (n : Nat) (f : Thread → Thread) : (d.updThr n f).thm = d.thm := rfl
@[simp] theorem Dev.updThr_rel (n : Nat) (f : Thread → Thread) : (d.updThr n f).rel = d.rel := rfl
@[simp] theorem Dev.updThr_mtr (n : Nat) (f : Thread → Thread) : (d.updThr n f).mtr = d.mtr := rfl
@[simp] theorem Dev.updThr_free (n : Nat) (f : Thread → Thread) : (d.updThr n f).free = d.free := rfl

@[simp] theorem Dev.updPart_keep (n : Nat) (f : Part → Part) : (d.updPart n f).keep = d.keep := rfl
@[simp] theorem Dev.updPart_boot (n : Nat) (f : Part → Part) : (d.updPart n f).boot = d.boot := rfl
@[simp] theorem Dev.updPart_pcie (n : Nat) (f : Part → Part) : (d.updPart n f).pcie = d.pcie := rfl
@[simp] theorem Dev.updPart_rst (n : Nat) (f : Part → Part) : (d.updPart n f).rst = d.rst := rfl
@[simp] theorem Dev.updPart_evt (n : Nat) (f : Part → Part) : (d.updPart n f).evt = d.evt := rfl
@[simp] theorem Dev.updPart_clk (n : Nat) (f : Part → Part) : (d.updPart n f).clk = d.clk := rfl
@[simp] theorem Dev.updPart_seq (n : Nat) (f : Part → Part) : (d.updPart n f).seq = d.seq := rfl
@[simp] theorem Dev.updPart_ops (n : Nat) (f : Part → Part) : (d.updPart n f).ops = d.ops := rfl
@[simp] theorem Dev.updPart_icp (n : Nat) (f : Part → Part) : (d.updPart n f).icp = d.icp := rfl
@[simp] theorem Dev.updPart_fab (n : Nat) (f : Part → Part) : (d.updPart n f).fab = d.fab := rfl
@[simp] theorem Dev.updPart_start (n : Nat) (f : Part → Part) : (d.updPart n f).start = d.start := rfl
@[simp] theorem Dev.updPart_plc (n : Nat) (f : Part → Part) : (d.updPart n f).plc = d.plc := rfl
@[simp] theorem Dev.updPart_pins (n : Nat) (f : Part → Part) : (d.updPart n f).pins = d.pins := rfl
@[simp] theorem Dev.updPart_mem (n : Nat) (f : Part → Part) : (d.updPart n f).mem = d.mem := rfl
@[simp] theorem Dev.updPart_ime (n : Nat) (f : Part → Part) : (d.updPart n f).ime = d.ime := rfl
@[simp] theorem Dev.updPart_noc (n : Nat) (f : Part → Part) : (d.updPart n f).noc = d.noc := rfl
@[simp] theorem Dev.updPart_ring (n : Nat) (f : Part → Part) : (d.updPart n f).ring = d.ring := rfl
@[simp] theorem Dev.updPart_obs (n : Nat) (f : Part → Part) : (d.updPart n f).obs = d.obs := rfl
@[simp] theorem Dev.updPart_tap (n : Nat) (f : Part → Part) : (d.updPart n f).tap = d.tap := rfl
@[simp] theorem Dev.updPart_thm (n : Nat) (f : Part → Part) : (d.updPart n f).thm = d.thm := rfl
@[simp] theorem Dev.updPart_rel (n : Nat) (f : Part → Part) : (d.updPart n f).rel = d.rel := rfl
@[simp] theorem Dev.updPart_mtr (n : Nat) (f : Part → Part) : (d.updPart n f).mtr = d.mtr := rfl
@[simp] theorem Dev.updPart_free (n : Nat) (f : Part → Part) : (d.updPart n f).free = d.free := rfl

@[simp] theorem Dev.updEng_keep (n : Nat) (f : Engine → Engine) : (d.updEng n f).keep = d.keep := rfl
@[simp] theorem Dev.updEng_boot (n : Nat) (f : Engine → Engine) : (d.updEng n f).boot = d.boot := rfl
@[simp] theorem Dev.updEng_pcie (n : Nat) (f : Engine → Engine) : (d.updEng n f).pcie = d.pcie := rfl
@[simp] theorem Dev.updEng_rst (n : Nat) (f : Engine → Engine) : (d.updEng n f).rst = d.rst := rfl
@[simp] theorem Dev.updEng_evt (n : Nat) (f : Engine → Engine) : (d.updEng n f).evt = d.evt := rfl
@[simp] theorem Dev.updEng_clk (n : Nat) (f : Engine → Engine) : (d.updEng n f).clk = d.clk := rfl
@[simp] theorem Dev.updEng_seq (n : Nat) (f : Engine → Engine) : (d.updEng n f).seq = d.seq := rfl
@[simp] theorem Dev.updEng_ops (n : Nat) (f : Engine → Engine) : (d.updEng n f).ops = d.ops := rfl
@[simp] theorem Dev.updEng_icp (n : Nat) (f : Engine → Engine) : (d.updEng n f).icp = d.icp := rfl
@[simp] theorem Dev.updEng_fab (n : Nat) (f : Engine → Engine) : (d.updEng n f).fab = d.fab := rfl
@[simp] theorem Dev.updEng_start (n : Nat) (f : Engine → Engine) : (d.updEng n f).start = d.start := rfl
@[simp] theorem Dev.updEng_plc (n : Nat) (f : Engine → Engine) : (d.updEng n f).plc = d.plc := rfl
@[simp] theorem Dev.updEng_pins (n : Nat) (f : Engine → Engine) : (d.updEng n f).pins = d.pins := rfl
@[simp] theorem Dev.updEng_mem (n : Nat) (f : Engine → Engine) : (d.updEng n f).mem = d.mem := rfl
@[simp] theorem Dev.updEng_ime (n : Nat) (f : Engine → Engine) : (d.updEng n f).ime = d.ime := rfl
@[simp] theorem Dev.updEng_noc (n : Nat) (f : Engine → Engine) : (d.updEng n f).noc = d.noc := rfl
@[simp] theorem Dev.updEng_ring (n : Nat) (f : Engine → Engine) : (d.updEng n f).ring = d.ring := rfl
@[simp] theorem Dev.updEng_obs (n : Nat) (f : Engine → Engine) : (d.updEng n f).obs = d.obs := rfl
@[simp] theorem Dev.updEng_tap (n : Nat) (f : Engine → Engine) : (d.updEng n f).tap = d.tap := rfl
@[simp] theorem Dev.updEng_thm (n : Nat) (f : Engine → Engine) : (d.updEng n f).thm = d.thm := rfl
@[simp] theorem Dev.updEng_rel (n : Nat) (f : Engine → Engine) : (d.updEng n f).rel = d.rel := rfl
@[simp] theorem Dev.updEng_mtr (n : Nat) (f : Engine → Engine) : (d.updEng n f).mtr = d.mtr := rfl
@[simp] theorem Dev.updEng_free (n : Nat) (f : Engine → Engine) : (d.updEng n f).free = d.free := rfl

@[simp] theorem Dev.updPlot_keep (n : Nat) (f : Plot → Plot) : (d.updPlot n f).keep = d.keep := rfl
@[simp] theorem Dev.updPlot_boot (n : Nat) (f : Plot → Plot) : (d.updPlot n f).boot = d.boot := rfl
@[simp] theorem Dev.updPlot_pcie (n : Nat) (f : Plot → Plot) : (d.updPlot n f).pcie = d.pcie := rfl
@[simp] theorem Dev.updPlot_rst (n : Nat) (f : Plot → Plot) : (d.updPlot n f).rst = d.rst := rfl
@[simp] theorem Dev.updPlot_evt (n : Nat) (f : Plot → Plot) : (d.updPlot n f).evt = d.evt := rfl
@[simp] theorem Dev.updPlot_clk (n : Nat) (f : Plot → Plot) : (d.updPlot n f).clk = d.clk := rfl
@[simp] theorem Dev.updPlot_seq (n : Nat) (f : Plot → Plot) : (d.updPlot n f).seq = d.seq := rfl
@[simp] theorem Dev.updPlot_ops (n : Nat) (f : Plot → Plot) : (d.updPlot n f).ops = d.ops := rfl
@[simp] theorem Dev.updPlot_icp (n : Nat) (f : Plot → Plot) : (d.updPlot n f).icp = d.icp := rfl
@[simp] theorem Dev.updPlot_start (n : Nat) (f : Plot → Plot) : (d.updPlot n f).start = d.start := rfl
@[simp] theorem Dev.updPlot_plc (n : Nat) (f : Plot → Plot) : (d.updPlot n f).plc = d.plc := rfl
@[simp] theorem Dev.updPlot_parts (n : Nat) (f : Plot → Plot) : (d.updPlot n f).parts = d.parts := rfl
@[simp] theorem Dev.updPlot_pins (n : Nat) (f : Plot → Plot) : (d.updPlot n f).pins = d.pins := rfl
@[simp] theorem Dev.updPlot_mem (n : Nat) (f : Plot → Plot) : (d.updPlot n f).mem = d.mem := rfl
@[simp] theorem Dev.updPlot_ime (n : Nat) (f : Plot → Plot) : (d.updPlot n f).ime = d.ime := rfl
@[simp] theorem Dev.updPlot_noc (n : Nat) (f : Plot → Plot) : (d.updPlot n f).noc = d.noc := rfl
@[simp] theorem Dev.updPlot_ring (n : Nat) (f : Plot → Plot) : (d.updPlot n f).ring = d.ring := rfl
@[simp] theorem Dev.updPlot_obs (n : Nat) (f : Plot → Plot) : (d.updPlot n f).obs = d.obs := rfl
@[simp] theorem Dev.updPlot_tap (n : Nat) (f : Plot → Plot) : (d.updPlot n f).tap = d.tap := rfl
@[simp] theorem Dev.updPlot_thm (n : Nat) (f : Plot → Plot) : (d.updPlot n f).thm = d.thm := rfl
@[simp] theorem Dev.updPlot_rel (n : Nat) (f : Plot → Plot) : (d.updPlot n f).rel = d.rel := rfl
@[simp] theorem Dev.updPlot_mtr (n : Nat) (f : Plot → Plot) : (d.updPlot n f).mtr = d.mtr := rfl
@[simp] theorem Dev.updPlot_free (n : Nat) (f : Plot → Plot) : (d.updPlot n f).free = d.free := rfl

@[simp] theorem Dev.updChan_keep (n : Nat) (f : Chan → Chan) : (d.updChan n f).keep = d.keep := rfl
@[simp] theorem Dev.updChan_boot (n : Nat) (f : Chan → Chan) : (d.updChan n f).boot = d.boot := rfl
@[simp] theorem Dev.updChan_pcie (n : Nat) (f : Chan → Chan) : (d.updChan n f).pcie = d.pcie := rfl
@[simp] theorem Dev.updChan_rst (n : Nat) (f : Chan → Chan) : (d.updChan n f).rst = d.rst := rfl
@[simp] theorem Dev.updChan_evt (n : Nat) (f : Chan → Chan) : (d.updChan n f).evt = d.evt := rfl
@[simp] theorem Dev.updChan_clk (n : Nat) (f : Chan → Chan) : (d.updChan n f).clk = d.clk := rfl
@[simp] theorem Dev.updChan_seq (n : Nat) (f : Chan → Chan) : (d.updChan n f).seq = d.seq := rfl
@[simp] theorem Dev.updChan_ops (n : Nat) (f : Chan → Chan) : (d.updChan n f).ops = d.ops := rfl
@[simp] theorem Dev.updChan_icp (n : Nat) (f : Chan → Chan) : (d.updChan n f).icp = d.icp := rfl
@[simp] theorem Dev.updChan_fab (n : Nat) (f : Chan → Chan) : (d.updChan n f).fab = d.fab := rfl
@[simp] theorem Dev.updChan_start (n : Nat) (f : Chan → Chan) : (d.updChan n f).start = d.start := rfl
@[simp] theorem Dev.updChan_plc (n : Nat) (f : Chan → Chan) : (d.updChan n f).plc = d.plc := rfl
@[simp] theorem Dev.updChan_parts (n : Nat) (f : Chan → Chan) : (d.updChan n f).parts = d.parts := rfl
@[simp] theorem Dev.updChan_pins (n : Nat) (f : Chan → Chan) : (d.updChan n f).pins = d.pins := rfl
@[simp] theorem Dev.updChan_ime (n : Nat) (f : Chan → Chan) : (d.updChan n f).ime = d.ime := rfl
@[simp] theorem Dev.updChan_noc (n : Nat) (f : Chan → Chan) : (d.updChan n f).noc = d.noc := rfl
@[simp] theorem Dev.updChan_ring (n : Nat) (f : Chan → Chan) : (d.updChan n f).ring = d.ring := rfl
@[simp] theorem Dev.updChan_obs (n : Nat) (f : Chan → Chan) : (d.updChan n f).obs = d.obs := rfl
@[simp] theorem Dev.updChan_tap (n : Nat) (f : Chan → Chan) : (d.updChan n f).tap = d.tap := rfl
@[simp] theorem Dev.updChan_thm (n : Nat) (f : Chan → Chan) : (d.updChan n f).thm = d.thm := rfl
@[simp] theorem Dev.updChan_rel (n : Nat) (f : Chan → Chan) : (d.updChan n f).rel = d.rel := rfl
@[simp] theorem Dev.updChan_mtr (n : Nat) (f : Chan → Chan) : (d.updChan n f).mtr = d.mtr := rfl
@[simp] theorem Dev.updChan_free (n : Nat) (f : Chan → Chan) : (d.updChan n f).free = d.free := rfl

@[simp] theorem Dev.updTower_keep (n : Nat) (f : Tower → Tower) : (d.updTower n f).keep = d.keep := rfl
@[simp] theorem Dev.updTower_boot (n : Nat) (f : Tower → Tower) : (d.updTower n f).boot = d.boot := rfl
@[simp] theorem Dev.updTower_pcie (n : Nat) (f : Tower → Tower) : (d.updTower n f).pcie = d.pcie := rfl
@[simp] theorem Dev.updTower_rst (n : Nat) (f : Tower → Tower) : (d.updTower n f).rst = d.rst := rfl
@[simp] theorem Dev.updTower_evt (n : Nat) (f : Tower → Tower) : (d.updTower n f).evt = d.evt := rfl
@[simp] theorem Dev.updTower_clk (n : Nat) (f : Tower → Tower) : (d.updTower n f).clk = d.clk := rfl
@[simp] theorem Dev.updTower_seq (n : Nat) (f : Tower → Tower) : (d.updTower n f).seq = d.seq := rfl
@[simp] theorem Dev.updTower_ops (n : Nat) (f : Tower → Tower) : (d.updTower n f).ops = d.ops := rfl
@[simp] theorem Dev.updTower_icp (n : Nat) (f : Tower → Tower) : (d.updTower n f).icp = d.icp := rfl
@[simp] theorem Dev.updTower_fab (n : Nat) (f : Tower → Tower) : (d.updTower n f).fab = d.fab := rfl
@[simp] theorem Dev.updTower_start (n : Nat) (f : Tower → Tower) : (d.updTower n f).start = d.start := rfl
@[simp] theorem Dev.updTower_plc (n : Nat) (f : Tower → Tower) : (d.updTower n f).plc = d.plc := rfl
@[simp] theorem Dev.updTower_parts (n : Nat) (f : Tower → Tower) : (d.updTower n f).parts = d.parts := rfl
@[simp] theorem Dev.updTower_pins (n : Nat) (f : Tower → Tower) : (d.updTower n f).pins = d.pins := rfl
@[simp] theorem Dev.updTower_ime (n : Nat) (f : Tower → Tower) : (d.updTower n f).ime = d.ime := rfl
@[simp] theorem Dev.updTower_noc (n : Nat) (f : Tower → Tower) : (d.updTower n f).noc = d.noc := rfl
@[simp] theorem Dev.updTower_ring (n : Nat) (f : Tower → Tower) : (d.updTower n f).ring = d.ring := rfl
@[simp] theorem Dev.updTower_obs (n : Nat) (f : Tower → Tower) : (d.updTower n f).obs = d.obs := rfl
@[simp] theorem Dev.updTower_tap (n : Nat) (f : Tower → Tower) : (d.updTower n f).tap = d.tap := rfl
@[simp] theorem Dev.updTower_thm (n : Nat) (f : Tower → Tower) : (d.updTower n f).thm = d.thm := rfl
@[simp] theorem Dev.updTower_rel (n : Nat) (f : Tower → Tower) : (d.updTower n f).rel = d.rel := rfl
@[simp] theorem Dev.updTower_mtr (n : Nat) (f : Tower → Tower) : (d.updTower n f).mtr = d.mtr := rfl
@[simp] theorem Dev.updTower_free (n : Nat) (f : Tower → Tower) : (d.updTower n f).free = d.free := rfl

@[simp] theorem Dev.updRport_keep (n : Nat) (f : RingPort → RingPort) : (d.updRport n f).keep = d.keep := rfl
@[simp] theorem Dev.updRport_boot (n : Nat) (f : RingPort → RingPort) : (d.updRport n f).boot = d.boot := rfl
@[simp] theorem Dev.updRport_pcie (n : Nat) (f : RingPort → RingPort) : (d.updRport n f).pcie = d.pcie := rfl
@[simp] theorem Dev.updRport_rst (n : Nat) (f : RingPort → RingPort) : (d.updRport n f).rst = d.rst := rfl
@[simp] theorem Dev.updRport_evt (n : Nat) (f : RingPort → RingPort) : (d.updRport n f).evt = d.evt := rfl
@[simp] theorem Dev.updRport_clk (n : Nat) (f : RingPort → RingPort) : (d.updRport n f).clk = d.clk := rfl
@[simp] theorem Dev.updRport_seq (n : Nat) (f : RingPort → RingPort) : (d.updRport n f).seq = d.seq := rfl
@[simp] theorem Dev.updRport_ops (n : Nat) (f : RingPort → RingPort) : (d.updRport n f).ops = d.ops := rfl
@[simp] theorem Dev.updRport_icp (n : Nat) (f : RingPort → RingPort) : (d.updRport n f).icp = d.icp := rfl
@[simp] theorem Dev.updRport_fab (n : Nat) (f : RingPort → RingPort) : (d.updRport n f).fab = d.fab := rfl
@[simp] theorem Dev.updRport_start (n : Nat) (f : RingPort → RingPort) : (d.updRport n f).start = d.start := rfl
@[simp] theorem Dev.updRport_plc (n : Nat) (f : RingPort → RingPort) : (d.updRport n f).plc = d.plc := rfl
@[simp] theorem Dev.updRport_parts (n : Nat) (f : RingPort → RingPort) : (d.updRport n f).parts = d.parts := rfl
@[simp] theorem Dev.updRport_pins (n : Nat) (f : RingPort → RingPort) : (d.updRport n f).pins = d.pins := rfl
@[simp] theorem Dev.updRport_mem (n : Nat) (f : RingPort → RingPort) : (d.updRport n f).mem = d.mem := rfl
@[simp] theorem Dev.updRport_ime (n : Nat) (f : RingPort → RingPort) : (d.updRport n f).ime = d.ime := rfl
@[simp] theorem Dev.updRport_noc (n : Nat) (f : RingPort → RingPort) : (d.updRport n f).noc = d.noc := rfl
@[simp] theorem Dev.updRport_obs (n : Nat) (f : RingPort → RingPort) : (d.updRport n f).obs = d.obs := rfl
@[simp] theorem Dev.updRport_tap (n : Nat) (f : RingPort → RingPort) : (d.updRport n f).tap = d.tap := rfl
@[simp] theorem Dev.updRport_thm (n : Nat) (f : RingPort → RingPort) : (d.updRport n f).thm = d.thm := rfl
@[simp] theorem Dev.updRport_rel (n : Nat) (f : RingPort → RingPort) : (d.updRport n f).rel = d.rel := rfl
@[simp] theorem Dev.updRport_mtr (n : Nat) (f : RingPort → RingPort) : (d.updRport n f).mtr = d.mtr := rfl
@[simp] theorem Dev.updRport_free (n : Nat) (f : RingPort → RingPort) : (d.updRport n f).free = d.free := rfl

@[simp] theorem Dev.updNk_keep (n : Nat) (f : NkPort → NkPort) : (d.updNk n f).keep = d.keep := rfl
@[simp] theorem Dev.updNk_boot (n : Nat) (f : NkPort → NkPort) : (d.updNk n f).boot = d.boot := rfl
@[simp] theorem Dev.updNk_pcie (n : Nat) (f : NkPort → NkPort) : (d.updNk n f).pcie = d.pcie := rfl
@[simp] theorem Dev.updNk_rst (n : Nat) (f : NkPort → NkPort) : (d.updNk n f).rst = d.rst := rfl
@[simp] theorem Dev.updNk_evt (n : Nat) (f : NkPort → NkPort) : (d.updNk n f).evt = d.evt := rfl
@[simp] theorem Dev.updNk_clk (n : Nat) (f : NkPort → NkPort) : (d.updNk n f).clk = d.clk := rfl
@[simp] theorem Dev.updNk_seq (n : Nat) (f : NkPort → NkPort) : (d.updNk n f).seq = d.seq := rfl
@[simp] theorem Dev.updNk_ops (n : Nat) (f : NkPort → NkPort) : (d.updNk n f).ops = d.ops := rfl
@[simp] theorem Dev.updNk_icp (n : Nat) (f : NkPort → NkPort) : (d.updNk n f).icp = d.icp := rfl
@[simp] theorem Dev.updNk_fab (n : Nat) (f : NkPort → NkPort) : (d.updNk n f).fab = d.fab := rfl
@[simp] theorem Dev.updNk_start (n : Nat) (f : NkPort → NkPort) : (d.updNk n f).start = d.start := rfl
@[simp] theorem Dev.updNk_plc (n : Nat) (f : NkPort → NkPort) : (d.updNk n f).plc = d.plc := rfl
@[simp] theorem Dev.updNk_parts (n : Nat) (f : NkPort → NkPort) : (d.updNk n f).parts = d.parts := rfl
@[simp] theorem Dev.updNk_pins (n : Nat) (f : NkPort → NkPort) : (d.updNk n f).pins = d.pins := rfl
@[simp] theorem Dev.updNk_mem (n : Nat) (f : NkPort → NkPort) : (d.updNk n f).mem = d.mem := rfl
@[simp] theorem Dev.updNk_noc (n : Nat) (f : NkPort → NkPort) : (d.updNk n f).noc = d.noc := rfl
@[simp] theorem Dev.updNk_ring (n : Nat) (f : NkPort → NkPort) : (d.updNk n f).ring = d.ring := rfl
@[simp] theorem Dev.updNk_obs (n : Nat) (f : NkPort → NkPort) : (d.updNk n f).obs = d.obs := rfl
@[simp] theorem Dev.updNk_tap (n : Nat) (f : NkPort → NkPort) : (d.updNk n f).tap = d.tap := rfl
@[simp] theorem Dev.updNk_thm (n : Nat) (f : NkPort → NkPort) : (d.updNk n f).thm = d.thm := rfl
@[simp] theorem Dev.updNk_rel (n : Nat) (f : NkPort → NkPort) : (d.updNk n f).rel = d.rel := rfl
@[simp] theorem Dev.updNk_mtr (n : Nat) (f : NkPort → NkPort) : (d.updNk n f).mtr = d.mtr := rfl
@[simp] theorem Dev.updNk_free (n : Nat) (f : NkPort → NkPort) : (d.updNk n f).free = d.free := rfl

@[simp] theorem Dev.updStop_keep (n : Nat) (f : NocStop → NocStop) : (d.updStop n f).keep = d.keep := rfl
@[simp] theorem Dev.updStop_boot (n : Nat) (f : NocStop → NocStop) : (d.updStop n f).boot = d.boot := rfl
@[simp] theorem Dev.updStop_pcie (n : Nat) (f : NocStop → NocStop) : (d.updStop n f).pcie = d.pcie := rfl
@[simp] theorem Dev.updStop_rst (n : Nat) (f : NocStop → NocStop) : (d.updStop n f).rst = d.rst := rfl
@[simp] theorem Dev.updStop_evt (n : Nat) (f : NocStop → NocStop) : (d.updStop n f).evt = d.evt := rfl
@[simp] theorem Dev.updStop_clk (n : Nat) (f : NocStop → NocStop) : (d.updStop n f).clk = d.clk := rfl
@[simp] theorem Dev.updStop_seq (n : Nat) (f : NocStop → NocStop) : (d.updStop n f).seq = d.seq := rfl
@[simp] theorem Dev.updStop_ops (n : Nat) (f : NocStop → NocStop) : (d.updStop n f).ops = d.ops := rfl
@[simp] theorem Dev.updStop_icp (n : Nat) (f : NocStop → NocStop) : (d.updStop n f).icp = d.icp := rfl
@[simp] theorem Dev.updStop_fab (n : Nat) (f : NocStop → NocStop) : (d.updStop n f).fab = d.fab := rfl
@[simp] theorem Dev.updStop_start (n : Nat) (f : NocStop → NocStop) : (d.updStop n f).start = d.start := rfl
@[simp] theorem Dev.updStop_plc (n : Nat) (f : NocStop → NocStop) : (d.updStop n f).plc = d.plc := rfl
@[simp] theorem Dev.updStop_parts (n : Nat) (f : NocStop → NocStop) : (d.updStop n f).parts = d.parts := rfl
@[simp] theorem Dev.updStop_pins (n : Nat) (f : NocStop → NocStop) : (d.updStop n f).pins = d.pins := rfl
@[simp] theorem Dev.updStop_mem (n : Nat) (f : NocStop → NocStop) : (d.updStop n f).mem = d.mem := rfl
@[simp] theorem Dev.updStop_ime (n : Nat) (f : NocStop → NocStop) : (d.updStop n f).ime = d.ime := rfl
@[simp] theorem Dev.updStop_ring (n : Nat) (f : NocStop → NocStop) : (d.updStop n f).ring = d.ring := rfl
@[simp] theorem Dev.updStop_obs (n : Nat) (f : NocStop → NocStop) : (d.updStop n f).obs = d.obs := rfl
@[simp] theorem Dev.updStop_tap (n : Nat) (f : NocStop → NocStop) : (d.updStop n f).tap = d.tap := rfl
@[simp] theorem Dev.updStop_thm (n : Nat) (f : NocStop → NocStop) : (d.updStop n f).thm = d.thm := rfl
@[simp] theorem Dev.updStop_rel (n : Nat) (f : NocStop → NocStop) : (d.updStop n f).rel = d.rel := rfl
@[simp] theorem Dev.updStop_mtr (n : Nat) (f : NocStop → NocStop) : (d.updStop n f).mtr = d.mtr := rfl
@[simp] theorem Dev.updStop_free (n : Nat) (f : NocStop → NocStop) : (d.updStop n f).free = d.free := rfl

@[simp] theorem Dev.updTrig_keep (n : Nat) (f : TrigUnit → TrigUnit) : (d.updTrig n f).keep = d.keep := rfl
@[simp] theorem Dev.updTrig_boot (n : Nat) (f : TrigUnit → TrigUnit) : (d.updTrig n f).boot = d.boot := rfl
@[simp] theorem Dev.updTrig_pcie (n : Nat) (f : TrigUnit → TrigUnit) : (d.updTrig n f).pcie = d.pcie := rfl
@[simp] theorem Dev.updTrig_rst (n : Nat) (f : TrigUnit → TrigUnit) : (d.updTrig n f).rst = d.rst := rfl
@[simp] theorem Dev.updTrig_evt (n : Nat) (f : TrigUnit → TrigUnit) : (d.updTrig n f).evt = d.evt := rfl
@[simp] theorem Dev.updTrig_clk (n : Nat) (f : TrigUnit → TrigUnit) : (d.updTrig n f).clk = d.clk := rfl
@[simp] theorem Dev.updTrig_seq (n : Nat) (f : TrigUnit → TrigUnit) : (d.updTrig n f).seq = d.seq := rfl
@[simp] theorem Dev.updTrig_ops (n : Nat) (f : TrigUnit → TrigUnit) : (d.updTrig n f).ops = d.ops := rfl
@[simp] theorem Dev.updTrig_icp (n : Nat) (f : TrigUnit → TrigUnit) : (d.updTrig n f).icp = d.icp := rfl
@[simp] theorem Dev.updTrig_fab (n : Nat) (f : TrigUnit → TrigUnit) : (d.updTrig n f).fab = d.fab := rfl
@[simp] theorem Dev.updTrig_start (n : Nat) (f : TrigUnit → TrigUnit) : (d.updTrig n f).start = d.start := rfl
@[simp] theorem Dev.updTrig_plc (n : Nat) (f : TrigUnit → TrigUnit) : (d.updTrig n f).plc = d.plc := rfl
@[simp] theorem Dev.updTrig_parts (n : Nat) (f : TrigUnit → TrigUnit) : (d.updTrig n f).parts = d.parts := rfl
@[simp] theorem Dev.updTrig_pins (n : Nat) (f : TrigUnit → TrigUnit) : (d.updTrig n f).pins = d.pins := rfl
@[simp] theorem Dev.updTrig_mem (n : Nat) (f : TrigUnit → TrigUnit) : (d.updTrig n f).mem = d.mem := rfl
@[simp] theorem Dev.updTrig_ime (n : Nat) (f : TrigUnit → TrigUnit) : (d.updTrig n f).ime = d.ime := rfl
@[simp] theorem Dev.updTrig_noc (n : Nat) (f : TrigUnit → TrigUnit) : (d.updTrig n f).noc = d.noc := rfl
@[simp] theorem Dev.updTrig_ring (n : Nat) (f : TrigUnit → TrigUnit) : (d.updTrig n f).ring = d.ring := rfl
@[simp] theorem Dev.updTrig_tap (n : Nat) (f : TrigUnit → TrigUnit) : (d.updTrig n f).tap = d.tap := rfl
@[simp] theorem Dev.updTrig_thm (n : Nat) (f : TrigUnit → TrigUnit) : (d.updTrig n f).thm = d.thm := rfl
@[simp] theorem Dev.updTrig_rel (n : Nat) (f : TrigUnit → TrigUnit) : (d.updTrig n f).rel = d.rel := rfl
@[simp] theorem Dev.updTrig_mtr (n : Nat) (f : TrigUnit → TrigUnit) : (d.updTrig n f).mtr = d.mtr := rfl
@[simp] theorem Dev.updTrig_free (n : Nat) (f : TrigUnit → TrigUnit) : (d.updTrig n f).free = d.free := rfl

@[simp] theorem Dev.updOp_keep (n k : Nat) (f : Op → Op) : (d.updOp n k f).keep = d.keep := rfl
@[simp] theorem Dev.updOp_boot (n k : Nat) (f : Op → Op) : (d.updOp n k f).boot = d.boot := rfl
@[simp] theorem Dev.updOp_pcie (n k : Nat) (f : Op → Op) : (d.updOp n k f).pcie = d.pcie := rfl
@[simp] theorem Dev.updOp_rst (n k : Nat) (f : Op → Op) : (d.updOp n k f).rst = d.rst := rfl
@[simp] theorem Dev.updOp_evt (n k : Nat) (f : Op → Op) : (d.updOp n k f).evt = d.evt := rfl
@[simp] theorem Dev.updOp_clk (n k : Nat) (f : Op → Op) : (d.updOp n k f).clk = d.clk := rfl
@[simp] theorem Dev.updOp_seq (n k : Nat) (f : Op → Op) : (d.updOp n k f).seq = d.seq := rfl
@[simp] theorem Dev.updOp_icp (n k : Nat) (f : Op → Op) : (d.updOp n k f).icp = d.icp := rfl
@[simp] theorem Dev.updOp_fab (n k : Nat) (f : Op → Op) : (d.updOp n k f).fab = d.fab := rfl
@[simp] theorem Dev.updOp_start (n k : Nat) (f : Op → Op) : (d.updOp n k f).start = d.start := rfl
@[simp] theorem Dev.updOp_plc (n k : Nat) (f : Op → Op) : (d.updOp n k f).plc = d.plc := rfl
@[simp] theorem Dev.updOp_parts (n k : Nat) (f : Op → Op) : (d.updOp n k f).parts = d.parts := rfl
@[simp] theorem Dev.updOp_pins (n k : Nat) (f : Op → Op) : (d.updOp n k f).pins = d.pins := rfl
@[simp] theorem Dev.updOp_mem (n k : Nat) (f : Op → Op) : (d.updOp n k f).mem = d.mem := rfl
@[simp] theorem Dev.updOp_ime (n k : Nat) (f : Op → Op) : (d.updOp n k f).ime = d.ime := rfl
@[simp] theorem Dev.updOp_noc (n k : Nat) (f : Op → Op) : (d.updOp n k f).noc = d.noc := rfl
@[simp] theorem Dev.updOp_ring (n k : Nat) (f : Op → Op) : (d.updOp n k f).ring = d.ring := rfl
@[simp] theorem Dev.updOp_obs (n k : Nat) (f : Op → Op) : (d.updOp n k f).obs = d.obs := rfl
@[simp] theorem Dev.updOp_tap (n k : Nat) (f : Op → Op) : (d.updOp n k f).tap = d.tap := rfl
@[simp] theorem Dev.updOp_thm (n k : Nat) (f : Op → Op) : (d.updOp n k f).thm = d.thm := rfl
@[simp] theorem Dev.updOp_rel (n k : Nat) (f : Op → Op) : (d.updOp n k f).rel = d.rel := rfl
@[simp] theorem Dev.updOp_mtr (n k : Nat) (f : Op → Op) : (d.updOp n k f).mtr = d.mtr := rfl
@[simp] theorem Dev.updOp_free (n k : Nat) (f : Op → Op) : (d.updOp n k f).free = d.free := rfl

@[simp] theorem Dev.updArb_keep (n k : Nat) (f : ArbPri → ArbPri) : (d.updArb n k f).keep = d.keep := rfl
@[simp] theorem Dev.updArb_boot (n k : Nat) (f : ArbPri → ArbPri) : (d.updArb n k f).boot = d.boot := rfl
@[simp] theorem Dev.updArb_pcie (n k : Nat) (f : ArbPri → ArbPri) : (d.updArb n k f).pcie = d.pcie := rfl
@[simp] theorem Dev.updArb_rst (n k : Nat) (f : ArbPri → ArbPri) : (d.updArb n k f).rst = d.rst := rfl
@[simp] theorem Dev.updArb_evt (n k : Nat) (f : ArbPri → ArbPri) : (d.updArb n k f).evt = d.evt := rfl
@[simp] theorem Dev.updArb_clk (n k : Nat) (f : ArbPri → ArbPri) : (d.updArb n k f).clk = d.clk := rfl
@[simp] theorem Dev.updArb_seq (n k : Nat) (f : ArbPri → ArbPri) : (d.updArb n k f).seq = d.seq := rfl
@[simp] theorem Dev.updArb_ops (n k : Nat) (f : ArbPri → ArbPri) : (d.updArb n k f).ops = d.ops := rfl
@[simp] theorem Dev.updArb_icp (n k : Nat) (f : ArbPri → ArbPri) : (d.updArb n k f).icp = d.icp := rfl
@[simp] theorem Dev.updArb_fab (n k : Nat) (f : ArbPri → ArbPri) : (d.updArb n k f).fab = d.fab := rfl
@[simp] theorem Dev.updArb_start (n k : Nat) (f : ArbPri → ArbPri) : (d.updArb n k f).start = d.start := rfl
@[simp] theorem Dev.updArb_plc (n k : Nat) (f : ArbPri → ArbPri) : (d.updArb n k f).plc = d.plc := rfl
@[simp] theorem Dev.updArb_parts (n k : Nat) (f : ArbPri → ArbPri) : (d.updArb n k f).parts = d.parts := rfl
@[simp] theorem Dev.updArb_pins (n k : Nat) (f : ArbPri → ArbPri) : (d.updArb n k f).pins = d.pins := rfl
@[simp] theorem Dev.updArb_mem (n k : Nat) (f : ArbPri → ArbPri) : (d.updArb n k f).mem = d.mem := rfl
@[simp] theorem Dev.updArb_ime (n k : Nat) (f : ArbPri → ArbPri) : (d.updArb n k f).ime = d.ime := rfl
@[simp] theorem Dev.updArb_ring (n k : Nat) (f : ArbPri → ArbPri) : (d.updArb n k f).ring = d.ring := rfl
@[simp] theorem Dev.updArb_obs (n k : Nat) (f : ArbPri → ArbPri) : (d.updArb n k f).obs = d.obs := rfl
@[simp] theorem Dev.updArb_tap (n k : Nat) (f : ArbPri → ArbPri) : (d.updArb n k f).tap = d.tap := rfl
@[simp] theorem Dev.updArb_thm (n k : Nat) (f : ArbPri → ArbPri) : (d.updArb n k f).thm = d.thm := rfl
@[simp] theorem Dev.updArb_rel (n k : Nat) (f : ArbPri → ArbPri) : (d.updArb n k f).rel = d.rel := rfl
@[simp] theorem Dev.updArb_mtr (n k : Nat) (f : ArbPri → ArbPri) : (d.updArb n k f).mtr = d.mtr := rfl
@[simp] theorem Dev.updArb_free (n k : Nat) (f : ArbPri → ArbPri) : (d.updArb n k f).free = d.free := rfl

@[simp] theorem Dev.draw_keep (n : Nat) : (d.draw n).keep = d.keep := rfl
@[simp] theorem Dev.draw_boot (n : Nat) : (d.draw n).boot = d.boot := rfl
@[simp] theorem Dev.draw_pcie (n : Nat) : (d.draw n).pcie = d.pcie := rfl
@[simp] theorem Dev.draw_rst (n : Nat) : (d.draw n).rst = d.rst := rfl
@[simp] theorem Dev.draw_evt (n : Nat) : (d.draw n).evt = d.evt := rfl
@[simp] theorem Dev.draw_clk (n : Nat) : (d.draw n).clk = d.clk := rfl
@[simp] theorem Dev.draw_seq (n : Nat) : (d.draw n).seq = d.seq := rfl
@[simp] theorem Dev.draw_ops (n : Nat) : (d.draw n).ops = d.ops := rfl
@[simp] theorem Dev.draw_icp (n : Nat) : (d.draw n).icp = d.icp := rfl
@[simp] theorem Dev.draw_fab (n : Nat) : (d.draw n).fab = d.fab := rfl
@[simp] theorem Dev.draw_start (n : Nat) : (d.draw n).start = d.start := rfl
@[simp] theorem Dev.draw_plc (n : Nat) : (d.draw n).plc = d.plc := rfl
@[simp] theorem Dev.draw_parts (n : Nat) : (d.draw n).parts = d.parts := rfl
@[simp] theorem Dev.draw_pins (n : Nat) : (d.draw n).pins = d.pins := rfl
@[simp] theorem Dev.draw_mem (n : Nat) : (d.draw n).mem = d.mem := rfl
@[simp] theorem Dev.draw_ime (n : Nat) : (d.draw n).ime = d.ime := rfl
@[simp] theorem Dev.draw_noc (n : Nat) : (d.draw n).noc = d.noc := rfl
@[simp] theorem Dev.draw_ring (n : Nat) : (d.draw n).ring = d.ring := rfl
@[simp] theorem Dev.draw_obs (n : Nat) : (d.draw n).obs = d.obs := rfl
@[simp] theorem Dev.draw_tap (n : Nat) : (d.draw n).tap = d.tap := rfl
@[simp] theorem Dev.draw_thm (n : Nat) : (d.draw n).thm = d.thm := rfl
@[simp] theorem Dev.draw_rel (n : Nat) : (d.draw n).rel = d.rel := rfl
@[simp] theorem Dev.draw_mtr (n : Nat) : (d.draw n).mtr = d.mtr := rfl

@[simp] theorem Dev.updKey_keep (n : Nat) (f : KeyId → KeyId) : (d.updKey n f).keep = d.keep := by
  unfold Dev.updKey; split <;> rfl
@[simp] theorem Dev.updKey_boot (n : Nat) (f : KeyId → KeyId) : (d.updKey n f).boot = d.boot := by
  unfold Dev.updKey; split <;> rfl
@[simp] theorem Dev.updKey_pcie (n : Nat) (f : KeyId → KeyId) : (d.updKey n f).pcie = d.pcie := by
  unfold Dev.updKey; split <;> rfl
@[simp] theorem Dev.updKey_rst (n : Nat) (f : KeyId → KeyId) : (d.updKey n f).rst = d.rst := by
  unfold Dev.updKey; split <;> rfl
@[simp] theorem Dev.updKey_evt (n : Nat) (f : KeyId → KeyId) : (d.updKey n f).evt = d.evt := by
  unfold Dev.updKey; split <;> rfl
@[simp] theorem Dev.updKey_clk (n : Nat) (f : KeyId → KeyId) : (d.updKey n f).clk = d.clk := by
  unfold Dev.updKey; split <;> rfl
@[simp] theorem Dev.updKey_seq (n : Nat) (f : KeyId → KeyId) : (d.updKey n f).seq = d.seq := by
  unfold Dev.updKey; split <;> rfl
@[simp] theorem Dev.updKey_ops (n : Nat) (f : KeyId → KeyId) : (d.updKey n f).ops = d.ops := by
  unfold Dev.updKey; split <;> rfl
@[simp] theorem Dev.updKey_icp (n : Nat) (f : KeyId → KeyId) : (d.updKey n f).icp = d.icp := by
  unfold Dev.updKey; split <;> rfl
@[simp] theorem Dev.updKey_fab (n : Nat) (f : KeyId → KeyId) : (d.updKey n f).fab = d.fab := by
  unfold Dev.updKey; split <;> rfl
@[simp] theorem Dev.updKey_start (n : Nat) (f : KeyId → KeyId) : (d.updKey n f).start = d.start := by
  unfold Dev.updKey; split <;> rfl
@[simp] theorem Dev.updKey_plc (n : Nat) (f : KeyId → KeyId) : (d.updKey n f).plc = d.plc := by
  unfold Dev.updKey; split <;> rfl
@[simp] theorem Dev.updKey_parts (n : Nat) (f : KeyId → KeyId) : (d.updKey n f).parts = d.parts := by
  unfold Dev.updKey; split <;> rfl
@[simp] theorem Dev.updKey_pins (n : Nat) (f : KeyId → KeyId) : (d.updKey n f).pins = d.pins := by
  unfold Dev.updKey; split <;> rfl
@[simp] theorem Dev.updKey_mem (n : Nat) (f : KeyId → KeyId) : (d.updKey n f).mem = d.mem := by
  unfold Dev.updKey; split <;> rfl
@[simp] theorem Dev.updKey_noc (n : Nat) (f : KeyId → KeyId) : (d.updKey n f).noc = d.noc := by
  unfold Dev.updKey; split <;> rfl
@[simp] theorem Dev.updKey_ring (n : Nat) (f : KeyId → KeyId) : (d.updKey n f).ring = d.ring := by
  unfold Dev.updKey; split <;> rfl
@[simp] theorem Dev.updKey_obs (n : Nat) (f : KeyId → KeyId) : (d.updKey n f).obs = d.obs := by
  unfold Dev.updKey; split <;> rfl
@[simp] theorem Dev.updKey_tap (n : Nat) (f : KeyId → KeyId) : (d.updKey n f).tap = d.tap := by
  unfold Dev.updKey; split <;> rfl
@[simp] theorem Dev.updKey_thm (n : Nat) (f : KeyId → KeyId) : (d.updKey n f).thm = d.thm := by
  unfold Dev.updKey; split <;> rfl
@[simp] theorem Dev.updKey_rel (n : Nat) (f : KeyId → KeyId) : (d.updKey n f).rel = d.rel := by
  unfold Dev.updKey; split <;> rfl
@[simp] theorem Dev.updKey_mtr (n : Nat) (f : KeyId → KeyId) : (d.updKey n f).mtr = d.mtr := by
  unfold Dev.updKey; split <;> rfl
@[simp] theorem Dev.updKey_free (n : Nat) (f : KeyId → KeyId) : (d.updKey n f).free = d.free := by
  unfold Dev.updKey; split <;> rfl

@[simp] theorem Dev.updRctl_keep (n : Nat) (f : RingCtl → RingCtl) : (d.updRctl n f).keep = d.keep := by
  unfold Dev.updRctl; split <;> rfl
@[simp] theorem Dev.updRctl_boot (n : Nat) (f : RingCtl → RingCtl) : (d.updRctl n f).boot = d.boot := by
  unfold Dev.updRctl; split <;> rfl
@[simp] theorem Dev.updRctl_pcie (n : Nat) (f : RingCtl → RingCtl) : (d.updRctl n f).pcie = d.pcie := by
  unfold Dev.updRctl; split <;> rfl
@[simp] theorem Dev.updRctl_rst (n : Nat) (f : RingCtl → RingCtl) : (d.updRctl n f).rst = d.rst := by
  unfold Dev.updRctl; split <;> rfl
@[simp] theorem Dev.updRctl_evt (n : Nat) (f : RingCtl → RingCtl) : (d.updRctl n f).evt = d.evt := by
  unfold Dev.updRctl; split <;> rfl
@[simp] theorem Dev.updRctl_clk (n : Nat) (f : RingCtl → RingCtl) : (d.updRctl n f).clk = d.clk := by
  unfold Dev.updRctl; split <;> rfl
@[simp] theorem Dev.updRctl_seq (n : Nat) (f : RingCtl → RingCtl) : (d.updRctl n f).seq = d.seq := by
  unfold Dev.updRctl; split <;> rfl
@[simp] theorem Dev.updRctl_ops (n : Nat) (f : RingCtl → RingCtl) : (d.updRctl n f).ops = d.ops := by
  unfold Dev.updRctl; split <;> rfl
@[simp] theorem Dev.updRctl_icp (n : Nat) (f : RingCtl → RingCtl) : (d.updRctl n f).icp = d.icp := by
  unfold Dev.updRctl; split <;> rfl
@[simp] theorem Dev.updRctl_fab (n : Nat) (f : RingCtl → RingCtl) : (d.updRctl n f).fab = d.fab := by
  unfold Dev.updRctl; split <;> rfl
@[simp] theorem Dev.updRctl_start (n : Nat) (f : RingCtl → RingCtl) : (d.updRctl n f).start = d.start := by
  unfold Dev.updRctl; split <;> rfl
@[simp] theorem Dev.updRctl_plc (n : Nat) (f : RingCtl → RingCtl) : (d.updRctl n f).plc = d.plc := by
  unfold Dev.updRctl; split <;> rfl
@[simp] theorem Dev.updRctl_parts (n : Nat) (f : RingCtl → RingCtl) : (d.updRctl n f).parts = d.parts := by
  unfold Dev.updRctl; split <;> rfl
@[simp] theorem Dev.updRctl_pins (n : Nat) (f : RingCtl → RingCtl) : (d.updRctl n f).pins = d.pins := by
  unfold Dev.updRctl; split <;> rfl
@[simp] theorem Dev.updRctl_mem (n : Nat) (f : RingCtl → RingCtl) : (d.updRctl n f).mem = d.mem := by
  unfold Dev.updRctl; split <;> rfl
@[simp] theorem Dev.updRctl_ime (n : Nat) (f : RingCtl → RingCtl) : (d.updRctl n f).ime = d.ime := by
  unfold Dev.updRctl; split <;> rfl
@[simp] theorem Dev.updRctl_noc (n : Nat) (f : RingCtl → RingCtl) : (d.updRctl n f).noc = d.noc := by
  unfold Dev.updRctl; split <;> rfl
@[simp] theorem Dev.updRctl_obs (n : Nat) (f : RingCtl → RingCtl) : (d.updRctl n f).obs = d.obs := by
  unfold Dev.updRctl; split <;> rfl
@[simp] theorem Dev.updRctl_tap (n : Nat) (f : RingCtl → RingCtl) : (d.updRctl n f).tap = d.tap := by
  unfold Dev.updRctl; split <;> rfl
@[simp] theorem Dev.updRctl_thm (n : Nat) (f : RingCtl → RingCtl) : (d.updRctl n f).thm = d.thm := by
  unfold Dev.updRctl; split <;> rfl
@[simp] theorem Dev.updRctl_rel (n : Nat) (f : RingCtl → RingCtl) : (d.updRctl n f).rel = d.rel := by
  unfold Dev.updRctl; split <;> rfl
@[simp] theorem Dev.updRctl_mtr (n : Nat) (f : RingCtl → RingCtl) : (d.updRctl n f).mtr = d.mtr := by
  unfold Dev.updRctl; split <;> rfl
@[simp] theorem Dev.updRctl_free (n : Nat) (f : RingCtl → RingCtl) : (d.updRctl n f).free = d.free := by
  unfold Dev.updRctl; split <;> rfl

end Sys2Proof.Machine
end

