-- ==== Sys2Proof/Laws/Frames.lean ====
section
/-! SUPPORT. Changes confined to groups of state: how they compose, and that a record update of one group is confined to it. -/
namespace Sys2Proof.Machine
open Host

theorem SameBut.refl (l : List Sect) (d : Dev) : SameBut l d d := fun x _ => by cases x <;> rfl

theorem SameBut.trans {l : List Sect} {d e f : Dev} (h : SameBut l d e) (k : SameBut l e f) : SameBut l d f := by
  intro x hx
  have h1 := h x hx
  have h2 := k x hx
  cases x <;> exact Eq.trans h2 h1

theorem SameBut.mono {l m : List Sect} {d e : Dev} (h : SameBut l d e) (s : ∀ x ∈ l, x ∈ m) : SameBut m d e :=
  fun x hx => h x fun hl => hx (s x hl)

/-- A change confined to some groups, and one confined to fewer. -/
theorem SameBut.next {l m : List Sect} {d e f : Dev} (h : SameBut l d e) (k : SameBut m e f) (s : ∀ x ∈ m, x ∈ l) :
    SameBut l d f := h.trans (k.mono s)

/-- Groups of one list are among those of another. -/
theorem sect_sub {l m : List Sect} (h : m.all (fun x => l.contains x) = true) : ∀ x ∈ m, x ∈ l := by
  intro x hx
  simpa using List.all_eq_true.1 h x hx

/-- A fold changes only what each of its steps changes. -/
theorem SameBut.foldl {α : Type} {l : List Sect} {f : Dev → α → Dev} (h : ∀ d x, SameBut l d (f d x)) (r : List α)
    (d : Dev) : SameBut l d (r.foldl f d) := by
  induction r generalizing d with
  | nil => exact SameBut.refl l d
  | cons x r ih => exact (h d x).trans (ih (f d x))

theorem forAll_keeps {l : List Sect} {f : Dev → Nat → Dev} (h : ∀ d n, SameBut l d (f d n)) (r : List Nat) (d : Dev) :
    SameBut l d (forAll r d f) := SameBut.foldl h r d

/-- The device of a pair or an answer. -/
theorem SameBut.fst {α : Type} {l : List Sect} {d e : Dev} {a : α} {r : Dev × α} (h : SameBut l d r.1) (k : r = (e, a)) :
    SameBut l d e := by subst k; exact h

/-! ## Record updates of one group -/

theorem set_keep_only (d : Dev) (v0 : Keep) : SameBut [.keep] d { d with keep := v0 } := by
  intro x hx
  cases x <;> first | rfl | simp at hx

theorem set_boot_only (d : Dev) (v0 : Boot) : SameBut [.boot] d { d with boot := v0 } := by
  intro x hx
  cases x <;> first | rfl | simp at hx

theorem set_pcie_only (d : Dev) (v0 : Pcie) : SameBut [.pcie] d { d with pcie := v0 } := by
  intro x hx
  cases x <;> first | rfl | simp at hx

theorem set_rst_only (d : Dev) (v0 : Rst) : SameBut [.rst] d { d with rst := v0 } := by
  intro x hx
  cases x <;> first | rfl | simp at hx

theorem set_evt_only (d : Dev) (v0 : Evt) : SameBut [.evt] d { d with evt := v0 } := by
  intro x hx
  cases x <;> first | rfl | simp at hx

theorem set_clk_only (d : Dev) (v0 : Clk) : SameBut [.clk] d { d with clk := v0 } := by
  intro x hx
  cases x <;> first | rfl | simp at hx

theorem set_seq_only (d : Dev) (v0 : Seq) : SameBut [.seq] d { d with seq := v0 } := by
  intro x hx
  cases x <;> first | rfl | simp at hx

theorem set_ops_only (d : Dev) (v0 : List Op) : SameBut [.ops] d { d with ops := v0 } := by
  intro x hx
  cases x <;> first | rfl | simp at hx

theorem set_icp_only (d : Dev) (v0 : List IcpReq) : SameBut [.icp] d { d with icp := v0 } := by
  intro x hx
  cases x <;> first | rfl | simp at hx

theorem set_fab_only (d : Dev) (v0 : Fab) : SameBut [.fab] d { d with fab := v0 } := by
  intro x hx
  cases x <;> first | rfl | simp at hx

theorem set_start_only (d : Dev) (v0 : Start) : SameBut [.start] d { d with start := v0 } := by
  intro x hx
  cases x <;> first | rfl | simp at hx

theorem set_plc_only (d : Dev) (v0 : Plc) : SameBut [.plc] d { d with plc := v0 } := by
  intro x hx
  cases x <;> first | rfl | simp at hx

theorem set_parts_only (d : Dev) (v0 : Tab Part) : SameBut [.parts] d { d with parts := v0 } := by
  intro x hx
  cases x <;> first | rfl | simp at hx

theorem set_pins_only (d : Dev) (v0 : Tab PinOut) : SameBut [.pins] d { d with pins := v0 } := by
  intro x hx
  cases x <;> first | rfl | simp at hx

theorem set_mem_only (d : Dev) (v0 : Mem) : SameBut [.mem] d { d with mem := v0 } := by
  intro x hx
  cases x <;> first | rfl | simp at hx

theorem set_ime_only (d : Dev) (v0 : Ime) : SameBut [.ime] d { d with ime := v0 } := by
  intro x hx
  cases x <;> first | rfl | simp at hx

theorem set_noc_only (d : Dev) (v0 : Noc) : SameBut [.noc] d { d with noc := v0 } := by
  intro x hx
  cases x <;> first | rfl | simp at hx

theorem set_ring_only (d : Dev) (v0 : Ring) : SameBut [.ring] d { d with ring := v0 } := by
  intro x hx
  cases x <;> first | rfl | simp at hx

theorem set_obs_only (d : Dev) (v0 : Obs) : SameBut [.obs] d { d with obs := v0 } := by
  intro x hx
  cases x <;> first | rfl | simp at hx

theorem set_tap_only (d : Dev) (v0 : Tap) : SameBut [.tap] d { d with tap := v0 } := by
  intro x hx
  cases x <;> first | rfl | simp at hx

theorem set_thm_only (d : Dev) (v0 : Thm) : SameBut [.thm] d { d with thm := v0 } := by
  intro x hx
  cases x <;> first | rfl | simp at hx

theorem set_rel_only (d : Dev) (v0 : Rel) : SameBut [.rel] d { d with rel := v0 } := by
  intro x hx
  cases x <;> first | rfl | simp at hx

theorem set_mtr_only (d : Dev) (v0 : Mtr) : SameBut [.mtr] d { d with mtr := v0 } := by
  intro x hx
  cases x <;> first | rfl | simp at hx

theorem set_free_only (d : Dev) (v0 : Nat) : SameBut [] d { d with free := v0 } := by
  intro x hx
  cases x <;> first | rfl | simp at hx

/-! ## Named updates and event delivery -/

theorem updThr_only (d : Dev) (n : Nat) (f : Thread → Thread) : SameBut [.seq] d (d.updThr n f) := set_seq_only d _
theorem updPart_only (d : Dev) (n : Nat) (f : Part → Part) : SameBut [.parts] d (d.updPart n f) := set_parts_only d _
theorem updPlot_only (d : Dev) (n : Nat) (f : Plot → Plot) : SameBut [.fab] d (d.updPlot n f) := set_fab_only d _
theorem updRport_only (d : Dev) (n : Nat) (f : RingPort → RingPort) : SameBut [.ring] d (d.updRport n f) := set_ring_only d _
theorem updNk_only (d : Dev) (n : Nat) (f : NkPort → NkPort) : SameBut [.ime] d (d.updNk n f) := set_ime_only d _
theorem updTower_only (d : Dev) (n : Nat) (f : Tower → Tower) : SameBut [.mem] d (d.updTower n f) := set_mem_only d _
theorem updChan_only (d : Dev) (n : Nat) (f : Chan → Chan) : SameBut [.mem] d (d.updChan n f) := set_mem_only d _
theorem updOp_only (d : Dev) (n s : Nat) (f : Op → Op) : SameBut [.ops] d (d.updOp n s f) := set_ops_only d _
theorem draw_only (d : Dev) (n : Nat) : SameBut [] d (d.draw n) := set_free_only d _

/-- Raising a vector changes the event block alone (R91). -/
theorem raise_only (d : Dev) (f : Nat) (v : Nat) : SameBut [.evt] d (d.raise f v) := by
  unfold Dev.raise
  split <;> exact set_evt_only _ _

theorem raiseAt_only (d : Dev) (f : Nat) (v : Option Nat) : SameBut [.evt] d (d.raiseAt f v) := by
  cases v
  · exact SameBut.refl _ d
  · exact raise_only d _ _

theorem postPf_only (d : Dev) (r : EvtRec) (v : Option Nat) : SameBut [.evt] d (d.postPf r v) :=
  (set_evt_only d _).trans (raiseAt_only _ _ _)

theorem postVf_only (d : Dev) (r : EvtRec) (w : Option Nat) : SameBut [.evt] d (d.postVf r w) :=
  (set_evt_only d _).trans (raiseAt_only _ _ _)

/-- Posting a record changes the event block alone (R84 to R91). -/
theorem postRec_only (d : Dev) (r : EvtRec) (v w : Option Nat) : SameBut [.evt] d (d.postRec r v w) := by
  unfold Dev.postRec
  dsimp only
  split
  · exact (postPf_only d _ _).trans (postVf_only _ _ _)
  · exact postPf_only d _ _

theorem postSrc_only (d : Dev) (code detail part src : Nat) : SameBut [.evt] d (d.postSrc code detail part src) := by
  unfold Dev.postSrc
  exact postRec_only d _ _ _

/-- Posting an event changes the event block alone (R84 to R91). -/
theorem post_only (d : Dev) (code detail part : Nat) : SameBut [.evt] d (d.post code detail part) := by
  unfold Dev.post
  exact postSrc_only d _ _ _ _

/-- An event whose SOURCE is free changes the event block alone. -/
theorem postFree_only (d : Dev) (code detail part : Nat) : SameBut [.evt] d (d.postFree code detail part) := by
  unfold Dev.postFree
  exact (postSrc_only _ _ _ _ _).trans ((draw_only _ _).mono (by simp))

end Sys2Proof.Machine
end

