-- ==== Sys2Proof/Laws/Tables.lean ====
section
/-! SUPPORT. Tables and memory cells: what is read after a write, and that every memory operation keeps the canonical
form. -/
namespace Sys2Proof.Machine
open Host

/-! ## Tables -/

@[simp] theorem tget_tset_same {α : Type} (t : Tab α) (k : Nat) (v e : α) : tget (tset t k v) k e = v := by
  induction t with
  | nil => simp [tset, tget]
  | cons h r ih =>
    obtain ⟨i, x⟩ := h
    simp only [tset]
    split
    · simp [tget]
    · split
      · simp [tget]
      · rename_i h1 h2
        simp only [tget, h2, if_false, ih]

theorem tget_tset_ne {α : Type} (t : Tab α) (k j : Nat) (v e : α) (h : k ≠ j) : tget (tset t k v) j e = tget t j e := by
  induction t with
  | nil => simp [tset, tget, h]
  | cons c r ih =>
    obtain ⟨i, x⟩ := c
    simp only [tset]
    split
    · simp [tget, h]
    · split
      · rename_i h2; subst h2; simp [tget, h]
      · simp only [tget, ih]

/-- A table read after a write: the written value at its key, the old value elsewhere. -/
theorem tget_tset {α : Type} (t : Tab α) (k j : Nat) (v e : α) :
    tget (tset t k v) j e = if k = j then v else tget t j e := by
  split
  · rename_i h; subst h; simp
  · rename_i h; exact tget_tset_ne t k j v e h

@[simp] theorem tget_tupd_same {α : Type} (t : Tab α) (k : Nat) (e : α) (f : α → α) :
    tget (tupd t k e f) k e = f (tget t k e) := by simp [tupd]

theorem tget_tupd_ne {α : Type} (t : Tab α) (k j : Nat) (e e' : α) (f : α → α) (h : k ≠ j) :
    tget (tupd t k e f) j e' = tget t j e' := by simp [tupd, tget_tset_ne, h]

@[simp] theorem tget_tdel_same {α : Type} (t : Tab α) (k : Nat) (e : α) : tget (tdel t k) k e = e := by
  induction t with
  | nil => rfl
  | cons c r ih =>
    obtain ⟨i, x⟩ := c
    simp only [tdel]
    split
    · exact ih
    · rename_i h; simp only [tget, h, if_false, ih]

theorem tget_tdel_ne {α : Type} (t : Tab α) (k j : Nat) (e : α) (h : k ≠ j) : tget (tdel t k) j e = tget t j e := by
  induction t with
  | nil => rfl
  | cons c r ih =>
    obtain ⟨i, x⟩ := c
    simp only [tdel]
    split
    · rename_i h2; subst h2; simp [tget, h, ih]
    · simp only [tget, ih]

/-! ## Cells -/

@[simp] theorem cget_cset_same (m : List Cell) (a : Nat) (b : Byte) : cget (cset m a b) a = some b := by
  induction m with
  | nil => simp [cset, cget]
  | cons c r ih =>
    obtain ⟨i, x⟩ := c
    simp only [cset]
    split
    · simp [cget]
    · split
      · simp [cget]
      · rename_i h1 h2; simp only [cget, h2, if_false, ih]

theorem cget_cset_ne (m : List Cell) (a j : Nat) (b : Byte) (h : a ≠ j) : cget (cset m a b) j = cget m j := by
  induction m with
  | nil => simp [cset, cget, h]
  | cons c r ih =>
    obtain ⟨i, x⟩ := c
    simp only [cset]
    split
    · simp [cget, h]
    · split
      · rename_i h2; subst h2; simp [cget, h]
      · simp only [cget, ih]

@[simp] theorem cget_cdel_same (m : List Cell) (a : Nat) : cget (cdel m a) a = none := by
  induction m with
  | nil => rfl
  | cons c r ih =>
    obtain ⟨i, x⟩ := c
    simp only [cdel]
    split
    · exact ih
    · rename_i h; simp only [cget, h, if_false, ih]

theorem cget_cdel_ne (m : List Cell) (a j : Nat) (h : a ≠ j) : cget (cdel m a) j = cget m j := by
  induction m with
  | nil => rfl
  | cons c r ih =>
    obtain ⟨i, x⟩ := c
    simp only [cdel]
    split
    · rename_i h2; subst h2; simp [cget, h, ih]
    · simp only [cget, ih]

/-- Bytes outside a written run are as before. -/
theorem cget_csetBytes_out (l : List Byte) (m : List Cell) (a j : Nat) (h : j < a ∨ a + l.length ≤ j) :
    cget (csetBytes m a l) j = cget m j := by
  induction l generalizing m a with
  | nil => rfl
  | cons b r ih =>
    simp only [List.length_cons] at h
    simp only [csetBytes]
    rw [ih (cset m a b) (a + 1) (by omega), cget_cset_ne m a j b (by omega)]

/-- The k-th byte of a written run is the k-th byte written. -/
theorem cget_csetBytes_in (l : List Byte) (m : List Cell) (a k : Nat) (h : k < l.length) :
    cget (csetBytes m a l) (a + k) = l[k]? := by
  induction l generalizing m a k with
  | nil => simp at h
  | cons b r ih =>
    simp only [csetBytes]
    cases k with
    | zero => rw [cget_csetBytes_out _ _ _ _ (by omega)]; simp
    | succ j =>
      have hj : j < r.length := by simpa using h
      have := ih (cset m a b) (a + 1) j hj
      simpa [Nat.add_assoc, Nat.add_comm 1 j] using this

@[simp] theorem leBytes_length (n w : Nat) : (leBytes n w).length = n := by
  induction n generalizing w with
  | zero => rfl
  | succ k ih => simp [leBytes, ih]

/-- Little-endian bytes read back as the number they were made of. -/
theorem leNat_leBytes (n w : Nat) : leNat (leBytes n w) = w % 256 ^ n := by
  induction n generalizing w with
  | zero => simp [leBytes, leNat, Nat.mod_one]
  | succ k ih =>
    simp only [leBytes, leNat, ih, BitVec.toNat_ofNat]
    rw [show 256 ^ (k + 1) = 256 * 256 ^ k from Nat.pow_succ', Nat.mod_mul]

/-! ## The canonical form -/

/-- Every address of the list is at least `a`. -/
def cellsFrom (a : Nat) (m : List Cell) : Prop := ∀ c ∈ m, a ≤ c.1

theorem cellsRise_cons (i : Nat) (x : Byte) (r : List Cell) :
    cellsRise ((i, x) :: r) = true ↔ cellsFrom (i + 1) r ∧ cellsRise r = true := by
  induction r generalizing i x with
  | nil => simp [cellsRise, cellsFrom]
  | cons c q ih =>
    obtain ⟨j, y⟩ := c
    have hj := ih j y
    simp only [cellsRise, Bool.and_eq_true, decide_eq_true_eq, cellsFrom, List.mem_cons, forall_eq_or_imp]
    constructor
    · rintro ⟨h1, h2⟩
      refine ⟨⟨by omega, fun c hc => ?_⟩, h2⟩
      have := (hj.1 h2).1 c hc
      omega
    · rintro ⟨⟨h1, _⟩, h2⟩
      exact ⟨by omega, h2⟩

theorem cellsFrom_cset {a k : Nat} {b : Byte} {m : List Cell} (hk : a ≤ k) (h : cellsFrom a m) :
    cellsFrom a (cset m k b) := by
  induction m with
  | nil => simpa [cset, cellsFrom] using hk
  | cons c r ih =>
    obtain ⟨i, x⟩ := c
    have h1 : a ≤ i := h (i, x) (by simp)
    have h2 : cellsFrom a r := fun c hc => h c (by simp [hc])
    have h3 := ih h2
    intro c hc
    simp only [cset] at hc
    split at hc
    · simp only [List.mem_cons] at hc
      obtain rfl | rfl | hc := hc
      · exact hk
      · exact h1
      · exact h2 c hc
    · split at hc <;> simp only [List.mem_cons] at hc <;> obtain rfl | hc := hc
      · exact hk
      · exact h2 c hc
      · exact h1
      · exact h3 c hc

theorem cellsFrom_cdel {a k : Nat} {m : List Cell} (h : cellsFrom a m) : cellsFrom a (cdel m k) := by
  induction m with
  | nil => simpa [cdel] using h
  | cons c r ih =>
    obtain ⟨i, x⟩ := c
    have h2 : cellsFrom a r := fun c hc => h c (by simp [hc])
    simp only [cdel]
    split
    · exact ih h2
    · intro c hc
      simp only [List.mem_cons] at hc
      obtain rfl | hc := hc
      · exact h (i, x) (by simp)
      · exact ih h2 c hc

/-- Writing a byte keeps addresses rising. -/
theorem cellsRise_cset {m : List Cell} (k : Nat) (b : Byte) (h : cellsRise m = true) : cellsRise (cset m k b) = true := by
  induction m with
  | nil => rfl
  | cons c r ih =>
    obtain ⟨i, x⟩ := c
    obtain ⟨hf, hr⟩ := (cellsRise_cons i x r).1 h
    simp only [cset]
    split
    · exact (cellsRise_cons _ _ _).2 ⟨by
        intro c hc
        simp only [List.mem_cons] at hc
        obtain rfl | hc := hc
        · simp only; omega
        · have := hf c hc; omega, h⟩
    · split
      · rename_i he; subst he; exact (cellsRise_cons _ _ _).2 ⟨hf, hr⟩
      · exact (cellsRise_cons _ _ _).2 ⟨cellsFrom_cset (by omega) hf, ih hr⟩

/-- Taking a byte out keeps addresses rising. -/
theorem cellsRise_cdel {m : List Cell} (k : Nat) (h : cellsRise m = true) : cellsRise (cdel m k) = true := by
  induction m with
  | nil => rfl
  | cons c r ih =>
    obtain ⟨i, x⟩ := c
    obtain ⟨hf, hr⟩ := (cellsRise_cons i x r).1 h
    simp only [cdel]
    split
    · exact ih hr
    · exact (cellsRise_cons _ _ _).2 ⟨cellsFrom_cdel hf, ih hr⟩

theorem cellsRise_csetBytes {m : List Cell} (a : Nat) (l : List Byte) (h : cellsRise m = true) :
    cellsRise (csetBytes m a l) = true := by
  induction l generalizing m a with
  | nil => exact h
  | cons b r ih => exact ih (a + 1) (cellsRise_cset a b h)

theorem cellsRise_zset {m : List Cell} (a : Nat) (b : Byte) (h : cellsRise m = true) : cellsRise (zset m a b) = true := by
  unfold zset
  split
  · exact cellsRise_cdel a h
  · exact cellsRise_cset a b h

theorem cellsRise_zsetBytes {m : List Cell} (a : Nat) (l : List Byte) (h : cellsRise m = true) :
    cellsRise (zsetBytes m a l) = true := by
  induction l generalizing m a with
  | nil => exact h
  | cons b r ih => exact ih (a + 1) (cellsRise_zset a b h)

/-- No listed byte is zero: the canonical form of cells whose unlisted bytes read zero. -/
def noZero (m : List Cell) : Prop := ∀ c ∈ m, c.2 ≠ 0

theorem noZero_cset {m : List Cell} (a : Nat) (b : Byte) (hb : b ≠ 0) (h : noZero m) : noZero (cset m a b) := by
  induction m with
  | nil => simpa [cset, noZero] using hb
  | cons c r ih =>
    obtain ⟨i, x⟩ := c
    have h1 : x ≠ 0 := h (i, x) (by simp)
    have h2 : noZero r := fun c hc => h c (by simp [hc])
    have h3 := ih h2
    intro c hc
    simp only [cset] at hc
    split at hc
    · simp only [List.mem_cons] at hc
      obtain rfl | rfl | hc := hc
      · exact hb
      · exact h1
      · exact h2 c hc
    · split at hc <;> simp only [List.mem_cons] at hc <;> obtain rfl | hc := hc
      · exact hb
      · exact h2 c hc
      · exact h1
      · exact h3 c hc

theorem noZero_cdel {m : List Cell} (a : Nat) (h : noZero m) : noZero (cdel m a) := by
  induction m with
  | nil => exact h
  | cons c r ih =>
    obtain ⟨i, x⟩ := c
    have h2 : noZero r := fun c hc => h c (by simp [hc])
    simp only [cdel]
    split
    · exact ih h2
    · intro c hc
      simp only [List.mem_cons] at hc
      obtain rfl | hc := hc
      · exact h (i, x) (by simp)
      · exact ih h2 c hc

/-- Writing bytes where unlisted ones read zero lists no zero. -/
theorem noZero_zsetBytes {m : List Cell} (a : Nat) (l : List Byte) (h : noZero m) : noZero (zsetBytes m a l) := by
  induction l generalizing m a with
  | nil => exact h
  | cons b r ih =>
    refine ih (a + 1) ?_
    unfold zset
    split
    · exact noZero_cdel a h
    · rename_i hb; exact noZero_cset a b hb h

theorem cellsRise_foldl_cdel {m : List Cell} (l : List Nat) (h : cellsRise m = true) :
    cellsRise (l.foldl cdel m) = true := by
  induction l generalizing m with
  | nil => exact h
  | cons a r ih => exact ih (cellsRise_cdel a h)

/-- Lines taken out where a test says so keep addresses rising. -/
theorem cellsRise_foldl_lines {m : List Cell} (keep : Nat → Bool) (l : List Nat) (h : cellsRise m = true) :
    cellsRise (l.foldl (fun m x => if keep x = true then m else cdelLine m x) m) = true := by
  induction l generalizing m with
  | nil => exact h
  | cons x r ih =>
    refine ih ?_
    show cellsRise (if keep x = true then m else cdelLine m x) = true
    split
    · exact h
    · exact cellsRise_foldl_cdel _ h

/-- Codewords written again as they read keep the canonical form. -/
theorem settle_wf (d : Dev) (lo hi : Nat) (h : d.mem.wf = true) : (d.settle lo hi).mem.wf = true := by
  unfold Mem.wf at *
  simp only [Dev.settle]
  split
  · exact h
  · generalize d.mem.upsets.filter (fun e => decide (lo ≤ e.1) && decide (e.1 < hi)) = hit
    generalize d.mem.cells = m at h ⊢
    induction hit generalizing m with
    | nil => exact h
    | cons e r ih =>
      refine ih _ ?_
      dsimp only
      split
      · exact h
      · split
        · exact cellsRise_csetBytes _ _ h
        · exact cellsRise_foldl_cdel _ h

/-- A write of memory keeps its canonical form. -/
theorem memWrite_wf (d : Dev) (k a : Nat) (l : List Byte) (h : d.mem.wf = true) : (d.memWrite k a l).mem.wf = true := by
  unfold Dev.memWrite
  split
  · exact h
  · dsimp only
    have hs (lo hi : Nat) : cellsRise (d.settle lo hi).mem.cells = true := settle_wf d lo hi h
    split
    all_goals
      refine cellsRise_csetBytes a l ?_
      first
      | exact hs _ _
      | simpa using cellsRise_foldl_lines (fun x => decide (tget (d.settle _ _).mem.tags x 0 = (d.settle _ _).keyTag k)) _ (hs _ _)

/-- Memory at reset is in canonical form. -/
theorem reset_mem_wf : State.reset.dev.mem.wf = true := rfl

end Sys2Proof.Machine
end

