-- ==== Sys2Proof/Laws/Issue.lean ====
section
/-! SUPPORT. The issue of an instruction: what a fetch leaves, and that an instruction that is ready has its own effect. -/
namespace Sys2Proof.Machine
open Host

@[simp] theorem thr_updThr_same (d : Dev) (n : Nat) (f : Thread → Thread) : (d.updThr n f).thr n = f (d.thr n) := by
  simp [Dev.thr, Dev.updThr]

theorem thr_updThr_ne (d : Dev) (n m : Nat) (f : Thread → Thread) (h : n ≠ m) : (d.updThr n f).thr m = d.thr m := by
  simp [Dev.thr, Dev.updThr, tget_tupd_ne, h]

@[simp] theorem applyWin_reg (t : Thread) (r : BitVec 5) : t.applyWin.reg r = t.reg r := by
  unfold Thread.applyWin
  split <;> rfl

@[simp] theorem applyWin_pc (t : Thread) : t.applyWin.pc = t.pc := by
  unfold Thread.applyWin
  split <;> rfl

@[simp] theorem applyWin_state (t : Thread) : t.applyWin.state = t.state := by
  unfold Thread.applyWin
  split <;> rfl

@[simp] theorem applyWin_slots (t : Thread) : t.applyWin.slots = t.slots := by
  unfold Thread.applyWin
  split <;> rfl

@[simp] theorem applyWin_wait (t : Thread) : t.applyWin.wait = t.wait := by
  unfold Thread.applyWin
  split <;> rfl

/-- A corrected codeword changes a bucket, and posts an event at most (R379). -/
theorem countCorrected_only (d : Dev) (cl loc : Nat) : SameBut [.mem, .evt] d (d.countCorrected cl loc) := by
  have set_mem : ∀ (d : Dev) (m : Mem), SameBut [.mem, .evt] d { d with mem := m } := by
    intro d m x hx
    cases x <;> first | rfl | simp at hx
  unfold Dev.countCorrected
  dsimp only
  repeat' split
  · exact SameBut.refl _ d
  · exact set_mem d _
  · exact set_mem d _
  · exact (set_mem d _).trans ((postSrc_only _ _ _ _ _).mono (by simp))

/-- Counting the corrected codewords of a range changes buckets, and posts events at most (R379). -/
theorem countRange_only (d : Dev) (a n : Nat) : SameBut [.mem, .evt] d (d.countRange a n) :=
  SameBut.foldl (fun e _ => countCorrected_only e _ _) _ d

/-- A read of a range changes the stored bits, buckets and events at most (R339, R379). -/
theorem absorb_only (d : Dev) (rd : ReadOutcome) (a n : Nat) : SameBut [.mem] d (d.absorb rd a n) := by
  unfold Dev.absorb
  split
  · split
    · exact set_mem_only d _
    · exact SameBut.refl _ d
  · split
    · exact set_mem_only d _
    · exact SameBut.refl _ d
  · exact SameBut.refl _ d

theorem lookPlain_only (d : Dev) (a n : Nat) (rd : ReadOutcome) : SameBut [.mem, .evt] d (d.lookPlain a n rd).1 :=
  ((absorb_only d rd a n).mono (by simp)).trans (countRange_only _ a n)

@[simp] theorem lookPlain_seq (d : Dev) (a n : Nat) (rd : ReadOutcome) : (d.lookPlain a n rd).1.seq = d.seq :=
  lookPlain_only d a n rd .seq (by simp)

@[simp] theorem lookPlain_thr (d : Dev) (a n : Nat) (rd : ReadOutcome) (m : Nat) : (d.lookPlain a n rd).1.thr m = d.thr m := by
  simp [Dev.thr]

@[simp] theorem lookPlain_rst (d : Dev) (a n : Nat) (rd : ReadOutcome) : (d.lookPlain a n rd).1.rst = d.rst :=
  lookPlain_only d a n rd .rst (by simp)

@[simp] theorem lookPlain_ops (d : Dev) (a n : Nat) (rd : ReadOutcome) : (d.lookPlain a n rd).1.ops = d.ops :=
  lookPlain_only d a n rd .ops (by simp)

/-- A corrected codeword changes no byte. -/
@[simp] theorem countCorrected_cells (d : Dev) (cl loc : Nat) : (d.countCorrected cl loc).mem.cells = d.mem.cells := by
  unfold Dev.countCorrected
  dsimp only
  repeat' split
  all_goals first | rfl | (
    have h := fun (e : Dev) (c x p s : Nat) => (postSrc_only e c x p s) .mem (by simp)
    simp only [Sect.same] at h
    rw [h])

/-- A read of a range changes no byte as written: what changes are the stored bits beside it (R339). -/
@[simp] theorem lookPlain_cells (d : Dev) (a n : Nat) (rd : ReadOutcome) : (d.lookPlain a n rd).1.mem.cells = d.mem.cells := by
  have hf : ∀ (l : List (Nat × Verdict)) (e : Dev),
      (l.foldl (fun x w => x.countCorrected (x.classOf w.1) (x.locOf w.1)) e).mem.cells = e.mem.cells := by
    intro l
    induction l with
    | nil => intro e; rfl
    | cons w l ih => intro e; rw [List.foldl_cons, ih]; exact countCorrected_cells _ _ _
  have ha : (d.absorb rd a n).mem.cells = d.mem.cells := by
    unfold Dev.absorb
    split
    · split <;> rfl
    · split <;> rfl
    · rfl
  unfold Dev.lookPlain Dev.countRange
  exact (hf _ _).trans ha

@[simp] theorem fetched_seq (d : Dev) (i : Issue) : (fetched d i).seq = (d.updThr i.thread Thread.applyWin).seq := by
  simp [fetched, fetchOf]

@[simp] theorem fetched_cells (d : Dev) (i : Issue) : (fetched d i).mem.cells = d.mem.cells := by
  simp [fetched, fetchOf, Dev.updThr]

@[simp] theorem fetched_thr (d : Dev) (i : Issue) : (fetched d i).thr i.thread = (d.thr i.thread).applyWin := by
  simp [fetched, fetchOf]

/-- A fetch changes the issuing thread's window, and by its read stored bits, buckets and events at most (R263, R379). -/
theorem fetched_only (d : Dev) (i : Issue) : SameBut [.seq, .mem, .evt] d (fetched d i) :=
  ((updThr_only d i.thread Thread.applyWin).mono (by simp)).trans ((lookPlain_only _ _ _ _).mono (by simp))

/-- The device is out of reset: a command of its own has its effect. -/
theorem run_out {s : State} (h : Out s) (f : Dev → Dev) : s.run f = .next { s with dev := f s.dev } := by
  obtain ⟨h1, h2⟩ := h
  simp [State.run, Dev.heldInReset, h1, h2]

/-- A device that is up is out of reset. -/
theorem run_up {s : State} (h : Up s) (f : Dev → Dev) : s.run f = .next { s with dev := f s.dev } := run_out h.1 f

/-- The clocks run: a command of the logic they feed has its effect. -/
theorem work_up {s : State} (h : Up s) (f : Dev → Dev) : s.work f = .next { s with dev := f s.dev } := by
  unfold State.work
  rw [run_up h]
  simp [h.2]

/-- An instruction that is ready issues: its own effect follows on what the fetch leaves (R258 to R264). -/
theorem issue_ready {d : Dev} {i : Issue} {w : Nat} (h : Ready d i w) (body : Dev → Dev) (illegal : Dev → Bool) :
    d.issue i w body illegal = body (fetched d i) := by
  obtain ⟨h1, h2, h3, h4, h5, h6⟩ := h
  have hs : ((d.updThr i.thread Thread.applyWin).thr i.thread).state = .run := by simp [h2]
  have hp : ((d.updThr i.thread Thread.applyWin).thr i.thread).pc = (d.thr i.thread).pc := by simp
  have hn : ¬ 64 < i.thread := by omega
  have hx : (d.updThr i.thread Thread.applyWin).lookPlain (seqAddr (d.thr i.thread).pc.toNat) 4 i.fetch = fetchOf d i := rfl
  have hf : (fetchOf d i).1 = fetched d i := rfl
  unfold Dev.issue
  simp only [h1, if_true, hs, hp, hn, ne_eq, not_true_eq_false, or_self, if_false, h3, hx, h4, hf, h5, Bool.not_true,
    Bool.false_eq_true, false_and]
  obtain h6 | h6 := h6 <;> simp [h6]

end Sys2Proof.Machine
end

