-- ==== Sys2Proof/Laws/Links.lean ====
section
/-! SUPPORT. Frames on a Norak link: what opening one can answer, and what a port does with one that arrives in order. -/
namespace Sys2Proof.Machine
open Host

/-- A frame opens under the secret whose tag it carries. -/
theorem openUnder_own (s : BitVec 384) (f : Frame) : openUnder (some s) f (frameTag s f) = some (frameCrypt s f) := by simp [openUnder]

/-- A frame that opens carries the tag of the secret, and its payload is the decrypted one. -/
theorem openUnder_some {secret : Option (BitVec 384)} {f : Frame} {tag : BitVec 128} {l : List Byte} (h : openUnder secret f tag = some l) :
    ∃ s, secret = some s ∧ frameTag s f = tag ∧ l = frameCrypt s f := by
  unfold openUnder at h
  split at h
  · rename_i s
    split at h
    · exact ⟨s, rfl, ‹_›, (Option.some.inj h).symm⟩
    · cases h
  · cases h

/-- A frame of the epoch of the receive secret opens under that secret alone. -/
theorem opens_same_epoch (k : NkPort) (f : Frame) (tag : BitVec 128) (now : BitVec 56) (h : f.epoch = k.rxEpoch) :
    k.opens f tag now = (openUnder k.rx f tag).map fun l => ({ k with rxSeq := k.rxSeq + 1 }, l) := by
  simp [NkPort.opens, h]

/-- A frame that arrives whole and in order is taken in, with its payload decrypted. -/
theorem receive_opens {d : Dev} {n : Nat} {f : Frame} {w : Arrival} {l : List Byte} (h : Opens d n f w l) (body : Dev → Frame → Dev) :
    d.receive n f w body = body (tookIn d n f w) { f with data := l } := by
  obtain ⟨⟨hn, hs, hk, hl, he⟩, hb, ho⟩ := h
  have hc : ¬ (4 ≤ n ∨ (d.rport n).state ≠ .up ∨ (d.nk n).state ≠ .sealed) := by simp [hs, hk]; omega
  simp [Dev.receive, hc, hb, opens_same_epoch _ _ _ _ he, ho, hl, tookIn]

end Sys2Proof.Machine
end

