-- ==== Sys2Proof/WellFormed.lean ====
section
/-! DEFINITION. Well-formed commands: every operand that numbers a part of the block lies in that part's range. A command
outside them names nothing of the block, and its meaning leaves the state as it was. -/
namespace Sys2Proof

/-- The numbered parts an operand can name, with the number it carries. -/
inductive Named where
  /-- thread 0 to 64 (R257) -/
  | thread (n : Nat)
  /-- partition 1 to 64 (R221) -/
  | part (n : Nat)
  /-- physical plot 0 to 511 (R93) -/
  | plot (n : Nat)
  /-- user pin 0 to 863 (R589) -/
  | pin (n : Nat)
  /-- I/O bank 0 to 17 (R589) -/
  | bank (n : Nat)
  /-- DDR5 channel 0 to 7 (R349) -/
  | channel (n : Nat)
  /-- marl tower 0 to 3 (R341) -/
  | tower (n : Nat)
  /-- memory unit 0 to 11: towers, then channels (R357) -/
  | unit (n : Nat)
  /-- ring stop 0 to 39 (R436) -/
  | stop (n : Nat)
  /-- arbiter requester 0 to 255 (R457) -/
  | requester (n : Nat)
  /-- Norak port 0 to 3 (R467) -/
  | port (n : Nat)
  /-- Norak ring 0 or 1 (R496) -/
  | ring (n : Nat)
  /-- KeyID 1 to 63 (R388) -/
  | key (n : Nat)
  /-- keep register 0 to 511 (R71) -/
  | keep (n : Nat)
  /-- ticket slot 0 to 15 (R278) -/
  | slot (n : Nat)
  /-- sensor 0 to 367 (R525) -/
  | sensor (n : Nat)
  /-- power group 0 to 8 of THM_POWER_g (R529, R544) -/
  | group (n : Nat)
  /-- thermal domain 0 to 7 (R538) -/
  | domain (n : Nat)
  /-- cut-net binding 0 to 4,095 (R501) -/
  | cut (n : Nat)
  /-- PCIe function 0 to 64 (R47) -/
  | function (n : Nat)
  /-- IDE stream 0 to 4 (R426) -/
  | stream (n : Nat)
  /-- IDE sub-stream 0 to 2 (R426) -/
  | substream (n : Nat)
  /-- VCCIO code 0 to 3 (R600) -/
  | volts (n : Nat)
  /-- DMA channel 0 to 64 (R320) -/
  | dma (n : Nat)
  /-- context 0 to 7 (R93) -/
  | context (n : Nat)
  /-- clod 0 to 1,023 (R93) -/
  | clod (n : Nat)
  /-- grain 0 to 63 (R93) -/
  | grain (n : Nat)
  /-- vertical lane 0 to 4,095 (R115) -/
  | lane (n : Nat)
  /-- block memory 0 to 31 of a plot (R120) -/
  | block (n : Nat)
  /-- row 0 to 1,023 of a block memory (R120) -/
  | row (n : Nat)
  /-- model port 0 to 4,095, numbered 4 × model + port (R361) -/
  | modelPort (n : Nat)
  /-- loam port stop 17 to 32 (R436) -/
  | loamPort (n : Nat)
  /-- on-chip ring 0 to 3 (R437) -/
  | nocRing (n : Nat)
  /-- arbiter 0 to 36 or 40 to 50 (R457) -/
  | arbiter (n : Nat)
  deriving DecidableEq, Repr

/-- The number lies in its part's range. -/
def Named.ok : Named → Bool
  | .thread n => decide (n ≤ 64)
  | .part n => decide (1 ≤ n) && decide (n ≤ 64)
  | .plot n => decide (n < 512)
  | .pin n => decide (n < 864)
  | .bank n => decide (n < 18)
  | .channel n => decide (n < 8)
  | .tower n => decide (n < 4)
  | .unit n => decide (n < 12)
  | .stop n => decide (n < 40)
  | .requester n => decide (n < 256)
  | .port n => decide (n < 4)
  | .ring n => decide (n < 2)
  | .key n => decide (1 ≤ n) && decide (n < 64)
  | .keep n => decide (n < 512)
  | .slot n => decide (n < 16)
  | .sensor n => decide (n < 368)
  | .group n => decide (n < 9)
  | .domain n => decide (n < 8)
  | .cut n => decide (n < 4096)
  | .function n => decide (n ≤ 64)
  | .stream n => decide (n ≤ 4)
  | .substream n => decide (n ≤ 2)
  | .volts n => decide (n ≤ 3)
  | .dma n => decide (n ≤ 64)
  | .context n => decide (n < 8)
  | .clod n => decide (n < 1024)
  | .grain n => decide (n < 64)
  | .lane n => decide (n < 4096)
  | .block n => decide (n < 32)
  | .row n => decide (n < 1024)
  | .modelPort n => decide (n < 4096)
  | .loamPort n => decide (17 ≤ n) && decide (n ≤ 32)
  | .nocRing n => decide (n < 4)
  | .arbiter n => decide (n ≤ 36) || (decide (40 ≤ n) && decide (n ≤ 50))

/-- The parts a master names. -/
def Master.parts : Master → List Named
  | .thread n => [.thread n]
  | .vf n => [.part n]
  | .pf0 | .debug => []

/-- The parts a rail group names (R28). -/
def RailGroup.parts : RailGroup → List Named
  | .vmarl m => [.tower m]
  | .vddq c => [.channel c]
  | .vccio b => [.bank b]
  | .vcoreHp | .vcoreLa | .vcoreLb | .vkaolA | .vkaolB | .vserdes | .vaux | .mvdd => []

/-- The parts a disabled function names (R452). -/
def DrainFn.parts : DrainFn → List Named
  | .dma p => [.dma p]
  | .vf p | .icp p => [.part p]
  | .ring r => [.ring r]
  | .stop s => [.stop s]

/-- The parts a TLP names (R47). -/
def HostTlp.parts : HostTlp → List Named
  | .read fn .. | .write fn .. | .cfgRead fn | .aerRead fn | .aerClear fn _ | .busMaster fn _ => [.function fn]
  | .barRead .. | .barWrite .. | .vfMse _ => []

/-- The parts a configuration word names (R93). -/
def CfgLoc.parts (l : CfgLoc) : List Named := [.plot l.plot, .context l.ctx, .clod l.clod, .grain l.grain]

/-- The parts a patrol read names (R553). -/
def PatrolAt.parts : PatrolAt → List Named
  | .bram p b r => [.plot p, .block b, .row r]
  | .line _ => []
  | .tree c _ => [.channel c]

/-- The parts of the block that a command names. -/
def Instr.parts : Instr → List Named
  | .powerRailUndervoltage g .. | .powerRailRestored g .. => g.parts
  | .vddqUndervoltage c | .ddr5TrainingDone c .. | .verifiedMetaInitDone c | .ddrVacateDone c => [.channel c]
  | .vccioUndervoltage b => [.bank b]
  | .perstAssert | .perstRelease .. | .pcieLinkUp | .selftestDone .. | .bar2Write .. | .firmwareVerifyDone | .firmwareLoaded |
    .downloadDeadlineExpiry | .svnFuseDone | .attestDone | .vfEnableWrite .. | .pcieLinkDown .. | .ideKmQuery |
    .serviceBoundaryWaitExpiry | .serviceInflightTimeout .. | .serviceSelfRefreshEntered | .serviceResetDone |
    .gclkTargetChange .. | .sparePllLocked | .sparePllRelocked | .gpllLossOfLock .. | .gpllRestartLock .. | .gpllRetryTimer .. |
    .refclkLost | .refclkFreezeTimeout | .holdoverEnd | .refclkRestored | .seqMemoryHostWrite .. | .placeSearchDone .. |
    .doneHoldRelease | .doneNRise .. | .startTimeReached | .donewTimeout | .startFrameTimeout | .hotswChecksDone .. |
    .hotswThreadsSuspended | .hotswHoldTimeout | .hotswAllHeld | .hotswSectionsWritten | .sysfaultNFall | .sysfaultNRise |
    .bucketLeak | .censusTimeout | .censusAutoPeriod | .ringTimeLock .. | .dbgaccUpdate .. | .idcode | .samplePreload .. |
    .extest | .extestPulse | .extestTrain | .dbgacc | .bypass .. | .powerSample .. | .thermalModelStep .. | .coldPlateFit |
    .rateOfRiseCheck | .tripWaitTimeout | .tripFreezeComplete | .tripEnd | .scrubPassStart .. | .bondTestDone .. | .lifeCheck |
    .meterPowerUp .. | .mvddPowerFail | .meterSample .. | .meterSecond | .meterStore | .meterMinute | .meterTamper |
    .crystalFault | .crystalRecovered | .mpulseImpulse | .i3cPrivateWrite .. | .req .. | .logsel .. | .i3cPrivateRead .. |
    .setdasa .. | .entdaa .. | .setnewda .. | .setmwl .. | .setmrl .. | .enec | .valueFrame .. | .signedReadoutFrame .. |
    .countFrameSend | .countFrame .. | .meterLinkLost .. | .doneNFall | .debugAccessDone .. | .spdmRequest .. => []
  | .bootGo m .. | .svnCommit m .. | .attestReq m | .featuresOk m | .registerWrite m .. | .rstCold m .. | .rstWarm m .. |
    .rstService m .. | .sysfaultClear m | .sysfaultFwAssert m .. | .sealForce m .. | .nocStatClear m | .nocStatFreeze m .. |
    .gclkReqWrite m .. | .evtConsWrite m .. => m.parts
  | .vfFlr n => [.part n]
  | .hostTlpReceived t stream .. => t.parts ++ (stream.toList.map Named.stream)
  | .ideKmKeyProg n k .. | .ideKmKSetGo n k .. | .ideKmKSetStop n k .. => [.stream n] ++ [.substream k]
  | .keepWrite m i .. | .keepRead m i .. => m.parts ++ [.keep i]
  | .keepPersisted i | .spareBankCopyDone i .. => [.keep i]
  | .rstPartition m _ p | .ringGroupWrite m p .. | .traceAllocWrite m p .. | .obsTownWrite m p .. => m.parts ++ [.part p]
  | .partitionResetWaitExpiry p | .partitionResetDone p | .designCycleStart p | .modelWriteAck p .. | .autoRewindDone p .. |
    .imgldFrameGroup p .. | .imgldDone p .. | .migrCopyDone p | .migrPeriod p .. | .rewindDone p .. | .icpWriteDone p .. |
    .vfEvtConsWrite p .. => [.part p]
  | .userclkEdge pin .. => [.pin pin]
  | .dwellStart p u => [.part p] ++ (u.latch.flatMap fun x => x.1.parts)
  | .refillEnd p stored bonds => [.part p] ++ (stored.flatMap fun x => x.1.parts) ++ (bonds.flatMap fun x => x.1.parts)
  | .dwellEnd p latch slots .. => [.part p] ++ (latch.flatMap fun x => x.1.parts) ++ (slots.flatMap fun x => x.1.parts)
  | .vlaneContention p n lane latch => [.part p] ++ [.plot n] ++ [.lane lane] ++ (latch.flatMap fun x => x.1.parts)
  | .modelReadResponse p port .. => [.part p] ++ [.modelPort port]
  | .designCycleBoundary p _ slots .. | .snapshotCaptureDone p slots .. => [.part p] ++ (slots.flatMap fun x => x.1.parts)
  | .configFaultScrubDone x => [.part x.part] ++ (x.stored.flatMap fun y => y.1.parts)
  | .plotClearingDone n | .configRefreshTick n => [.plot n]
  | .verificationPassDone stored => (stored.flatMap fun x => x.1.parts)
  | .fallbackSoftwarePass stored late => ((stored ++ late).flatMap fun x => x.1.parts)
  | .scrubPassEnd hits stored late _ =>
    (hits.map fun h => .plot h.region) ++ (stored ++ late).flatMap fun x => x.1.parts
  | .illegalOpcode i .. | .add i .. | .sub i .. | .and i .. | .or i .. | .xor i .. | .sll i .. | .srl i .. | .sra i .. |
    .mul i .. | .mulhu i .. | .divu i .. | .remu i .. | .slt i .. | .sltu i .. | .popc i .. | .clz i .. | .ctz i .. |
    .addi i .. | .andi i .. | .ori i .. | .xori i .. | .slli i .. | .srli i .. | .srai i .. | .slti i .. | .sltiu i .. |
    .lui i .. | .shin i .. | .ld i .. | .lw i .. | .lb i .. | .st i .. | .sw i .. | .sb i .. | .swap i .. | .aadd i .. |
    .aand i .. | .aor i .. | .cas i .. | .lds i .. | .sts i .. | .beq i .. | .bne i .. | .blt i .. | .bge i .. | .bltu i .. |
    .bgeu i .. | .j i .. | .call i .. | .jalr i .. | .yield i | .halt i | .trapret i | .mfs i .. | .mts i .. | .waitt i .. |
    .fence i .. | .imgchk i .. | .place i .. | .imgld i .. | .migr i .. | .act i .. | .frz i .. | .step i .. | .run i .. |
    .stop i .. | .snap i .. | .rwnd i .. | .fill i .. | .rmov i .. | .dma i .. | .prb i .. | .trig i .. | .censRegister i .. |
    .censRound i .. | .donewHold i .. | .donewRelease i .. | .keysetMemoryKey i .. | .keysetImageKey i .. |
    .keysetTenantHashes i .. | .keyretRetire i .. | .keyretFree i .. | .evt i .. | .thrm i .. | .mtrdRegisters i .. |
    .mtrdSigned i .. | .icpgGrant i .. | .icpgRevoke i .. | .partCreate i .. | .partChange i .. | .partRelease i .. |
    .partDelete i .. | .hotsw i .. => [.thread i.thread]
  | .systemAccessComplete n .. | .waittTimeout n | .fenceTimeout n => [.thread n]
  | .threadStart m n .. | .threadResume m n | .threadStop m n | .seqWinWrite m n .. => m.parts ++ [.thread n]
  | .fillDone n slot .. | .rmovDone n slot .. | .dmaDone n slot .. | .mtrdTimeout n slot => [.thread n] ++ [.slot slot]
  | .startFrameReceived n .. | .norakPortTrained n .. | .norakTrainingRetry n | .norakLinkDrop n .. | .helloI n .. |
    .helloR n .. | .auth n .. | .finished n .. | .norakHandshakeTimeout n | .norakHandshakeRetry n | .norakKeyUpdate n |
    .norakNak n .. | .norakAck n .. | .cutnet n .. | .gfreeze n .. | .census n .. | .time n .. | .malformedFrame n .. =>
    [.port n]
  | .keyidDrained k | .retireTimeout k .. | .keyidRetired k => [.key k]
  | .icpWriteRequest p port .. | .icpRejoinRequest p port .. => [.part p] ++ [.loamPort port]
  | .iobankWrite m b .. => m.parts ++ [.bank b]
  | .retrainPause u | .retrainPauseCut u | .dramRefreshTick u => [.unit u]
  | .sidebandUe n h => [.nocRing n] ++ [.stop h.stop]
  | .nocStopDisable m s | .nocStopOff m s | .nocStopOn m s => m.parts ++ [.stop s]
  | .drainComplete f | .drainTimeout f .. => f.parts
  | .fenceHandshakeDone s => [.stop s]
  | .arbWatchdogBite i r => [.arbiter i] ++ [.requester r]
  | .arbReenable m i r | .arbPriorityWrite m i r .. => m.parts ++ [.arbiter i] ++ [.requester r]
  | .ringDisable m r | .ringOff m r | .ringOn m r => m.parts ++ [.ring r]
  | .ringCutWrite m b .. => m.parts ++ [.cut b]
  | .bandDownTimer dom => [.domain dom]
  | .sensorRecovery n => [.sensor n]
  | .powerFaultRecovery g => [.group g]
  | .scrubRetry m n | .bondTest m n => m.parts ++ [.plot n]
  | .patrolRead w .. => w.parts
  | .ddrVacate m c .. | .ddrRestore m c => m.parts ++ [.channel c]
  | .vccioRestored b volts => [.bank b] ++ [.volts volts]
  | .marlTrainingDone m .. => [.tower m]

/-- Every part a command names exists. -/
def Instr.wellFormed (c : Instr) : Bool := c.parts.all Named.ok

end Sys2Proof
end

