-- ==== Sys2Proof/Tests/Slice0.lean ====
section
/-! SUPPORT. The model's own tests: ill-formed operands that the checks refuse, small steps computed by hand from the spec, and for
every obligation with hypotheses a state and operands that meet them. -/
namespace Sys2Proof.Tests
set_option Elab.async false
open Sys2Proof Sys2Proof.Machine Host

/-! ## States -/

/-- A device out of reset, in RUNNING, with every feature accepted. -/
def up : State :=
  { dev := { rst := { perst := false }
             boot := { phase := .running, started := true, locked := true, drv0 := 0xFFFFFFFFFFFFFFFF } } }

/-- `up` with the device changed. -/
def on (f : Dev → Dev) : State := { up with dev := f up.dev }

/-- `up` with one thread. -/
def thread (n : Nat) (t : Thread) : State := on fun d => d.updThr n fun _ => t

/-- T0 runs, with g1 = 5 and g2 = 3. -/
def run0 : State := thread 0 { state := .run, regs := [(1, 5), (2, 3)] }

/-- T1 runs with 1 MiB of code and data from offset 0, no register written. -/
def run1 : State := thread 1 { state := .run, win := 0x8001000000 }

/-- An instruction of a thread, well fetched. -/
def issued (n : Nat) : Issue := { thread := n, fetch := .clean }

/-- The device a command answers with; the state's own when it answers none. -/
def dev (c : Instr) (s : State) : Dev := match exec c s with
  | .next t => t.dev
  | _ => s.dev

/-- The meter die a command answers with. -/
def die (c : Instr) (s : State) : MeterDie := match exec c s with
  | .next t => t.die
  | _ => s.die

theorem up_up : Up up := ⟨⟨rfl, rfl⟩, rfl⟩

theorem allowed_up : Allowed .pf0 up ∧ Allowed (.thread 0) up := ⟨⟨up_up.1, rfl, .inl rfl⟩, up_up.1, rfl, .inr rfl⟩

/-- A thread that may fetch where memory holds nothing is ready for any word. -/
theorem ready_any (d : Dev) (i : Issue) (w : Nat) (h : i.thread ≤ 64 ∧ (d.thr i.thread).state = .run ∧
    (d.thr i.thread).pc.toNat < 0x400000 ∧ (fetchOf d i).2 = none ∧
    (fetched d i).mayFetch i.thread (d.thr i.thread).pc.toNat = true ∧
    (fetched d i).wordAt (d.thr i.thread).pc.toNat = none) : Ready d i w :=
  ⟨h.1, h.2.1, h.2.2.1, h.2.2.2.1, h.2.2.2.2.1, .inl h.2.2.2.2.2⟩

theorem ready_run0 (w : Nat) : Ready run0.dev (issued 0) w := ready_any _ _ w (by decide)

theorem ready_run1 (w : Nat) : Ready run1.dev (issued 1) w := ready_any _ _ w (by decide)
/-! ## Witnesses: the sequencer -/

theorem witness_AluRegisterResults : Up run0 ∧ ∀ w, Ready run0.dev (issued 0) w := ⟨⟨⟨rfl, rfl⟩, rfl⟩, ready_run0⟩

theorem witness_AluImmediateResults : Up run1 ∧ ∀ w, Ready run1.dev (issued 1) w := ⟨⟨⟨rfl, rfl⟩, rfl⟩, ready_run1⟩

theorem witness_RegisterResultFrame : (2 : BitVec 5) ≠ 3 ∧ (1 : Nat) ≠ (issued 0).thread ∧ (issued 0).fetch = .clean ∧
    run0.dev.mem.upsets = [] := by decide

/-- T1 runs and the word at offset 0xFFFF8 is written. -/
def word1 : State := { run1 with dev := run1.dev.memWrite 0 (seqAddr 0xFFFF8) (leBytes 8 7) }

theorem ready_word1 (w : Nat) : Ready word1.dev (issued 1) w := ready_any _ _ w (by decide)

theorem witness_LoadResults : Up word1 ∧ (∀ w, Ready word1.dev (issued 1) w) ∧
    (let e := fetched word1.dev (issued 1)
     e.mayLoad 1 0xFFFF8 8 = true ∧ e.mayLoad 1 0xFFFFC 4 = true ∧ e.mayLoad 1 0xFFFFF 1 = true ∧ 0xFFFF8 % 8 = 0 ∧
     (e.lookPlain (seqAddr 0xFFFF8) 8 .clean).2 = none ∧ (e.lookPlain (seqAddr 0xFFFF8) 8 (.upset 0 1)).2 = none ∧
     ReadsTrue (e.lookPlain (seqAddr 0xFFFF8) 8 (.upset 0 1)) (seqAddr 0xFFFF8) 8) ∧
    cgetBytes word1.dev.mem.cells (seqAddr 0xFFFF8) 8 = some (leBytes 8 7) ∧ word1.dev.mem.upsets = [] := by
  refine ⟨⟨⟨rfl, rfl⟩, rfl⟩, ready_word1, ?_⟩
  and_intros <;> decide +kernel

theorem witness_StoreResults : Up word1 ∧ (∀ w, Ready word1.dev (issued 1) w) ∧
    (let e := fetched word1.dev (issued 1)
     e.mayStore 1 0x80000 8 = true ∧ e.mayStore 1 0x7FFF8 8 = false ∧ e.mayStore 1 0xFFFFF 1 = true ∧
     tget e.mem.ccUpsets (seqAddr 0x80000 / 64) 0 = 0 ∧ ReadsTrue (e.lookPlain (seqAddr 0xFFFFF) 1 .clean) (seqAddr 0xFFFFF) 1 ∧
     ReadsTrue (e.lookPlain (seqAddr 0xFFFFC) 4 .clean) (seqAddr 0xFFFFC) 4) := by
  refine ⟨⟨⟨rfl, rfl⟩, rfl⟩, ready_word1, ?_⟩
  and_intros <;> decide +kernel

/-- T0 runs and the word at offset 0x100 is written. -/
def atom0 : State := { run0 with dev := run0.dev.memWrite 0 (seqAddr 0x100) (leBytes 8 7) }

theorem ready_atom0 (w : Nat) : Ready atom0.dev (issued 0) w := ready_any _ _ w (by decide)

theorem witness_AtomicResults : Up atom0 ∧ (∀ w, Ready atom0.dev (issued 0) w) ∧
    (let e := fetched atom0.dev (issued 0)
     cgetBytes atom0.dev.mem.cells (seqAddr 0x100) 8 = some (leBytes 8 7) ∧
     ReadsTrue (e.lookPlain (seqAddr 0x100) 8 .clean) (seqAddr 0x100) 8 ∧
     e.mayLoad 0 0x100 8 = true ∧ e.mayStore 0 0x100 8 = true) := by
  refine ⟨⟨⟨rfl, rfl⟩, rfl⟩, ready_atom0, ?_⟩
  and_intros <;> decide +kernel

/-- A thread waits for a read or a write at an address; the first line of DDR5 and of sequencer memory are written. -/
def access (n : Nat) (w : Wait) : State := on fun d =>
  { d.updThr n fun _ => { state := .wait, wait := some w } with
    mem := { cells := ((span 0 8).map fun j => (0x40 + j, 9)) ++ (span 0 8).map fun j => (0x031000000000 + j, 7),
             chans := [(0, { state := .active, mapped := true, user := 16 })] } }

theorem witness_SystemAccessWaits : Up run0 ∧ (∀ w, Ready run0.dev (issued 0) w) ∧
    (let e := fetched run0.dev (issued 0)
     e.mayReach 0 0x032000700008 false = true ∧ e.mayReach 0 0x032000700008 true = true) ∧
    (let s := access 1 (.lds 0x032000700008 4)
     Up s ∧ (s.dev.thr 1).wait = some (.lds 0x032000700008 4) ∧ (s.dev.arb 1 1).quar = false ∧ s.dev.seq.swap.toNat < 2) ∧
    (let s := access 0 (.lds 0x032001000000 4)
     Up s ∧ (s.dev.thr 0).wait = some (.lds 0x032001000000 4) ∧ s.dev.seq.queue = [] ∧
     ReadsTrue (s.dev.lookPlain (seqAddr 0) 8 .clean) (seqAddr 0) 8 ∧
     cgetBytes s.dev.mem.cells (seqAddr 0) 8 = some [7, 7, 7, 7, 7, 7, 7, 7]) ∧
    (let s := access 1 (.lds 0x40 4)
     s.dev.refuse 0 (kidOf 0x40) (addrOf 0x40) 8 false = none ∧
     s.dev.look (kidOf 0x40) (addrOf 0x40) 8 .clean false = .good s.dev ∧ s.dev.wrongData 0x40 8 = false ∧
     cgetBytes s.dev.mem.cells 0x40 8 = some [9, 9, 9, 9, 9, 9, 9, 9] ∧ tget s.dev.mem.tags 1 0 = s.dev.keyTag (kidOf 0x40)) ∧
    (let s := access 0 (.sts 0x032000700008 4)
     Up s ∧ (s.dev.thr 0).wait = some (.sts 0x032000700008 4) ∧ lostOnWay .clean = none) := by
  refine ⟨⟨⟨rfl, rfl⟩, rfl⟩, ready_run0, ?_⟩
  and_intros <;> first | decide +kernel | rfl

theorem witness_BranchesAndJumps : Up run0 ∧ (∀ w, Ready run0.dev (issued 0) w) ∧ ((5 : Word) + 3).toNat % 4 = 0 ∧
    ((5 : Word) + 1).toNat % 4 ≠ 0 := ⟨⟨⟨rfl, rfl⟩, rfl⟩, ready_run0, by decide⟩

/-- T0 runs in trap mode. -/
def trapped0 : State := { run0 with dev := { run0.dev with seq := { run0.dev.seq with trapMode := true } } }

theorem witness_SystemGroup : Up run0 ∧ (∀ w, Ready run0.dev (issued 0) w) ∧ (∀ w, Ready run1.dev (issued 1) w) ∧
    run0.dev.seq.trapMode = false ∧ trapped0.dev.seq.trapMode = true ∧ Up trapped0 ∧
    (∀ w, Ready trapped0.dev (issued 0) w) :=
  ⟨⟨⟨rfl, rfl⟩, rfl⟩, ready_run0, ready_run1, rfl, rfl, ⟨⟨rfl, rfl⟩, rfl⟩, fun w => ready_any _ _ w (by decide)⟩

/-- T1 runs; slot 3 is occupied by generation 2, with a status or without. -/
def slot1 (done : Option Word) : State := thread 1
  { state := .run, win := 0x8001000000, regs := [(5, 0x10023)], slots := [(3, { gen := 2, busy := true, done := done })] }

/-- T1 waits, for a ticket or for all. -/
def waits1 (w : Wait) : State := thread 1 { state := .wait, wait := some w }

theorem witness_WaitsAndFences : Up (slot1 none) ∧ (∀ w, Ready (slot1 none).dev (issued 1) w) ∧
    (∀ w, Ready (slot1 (some 0)).dev (issued 1) w) ∧
    (let t := (slot1 none).dev.thr 1
     (t.reg 5).toNat / 2 ^ 16 = 1 ∧ (t.slot ((t.reg 5).toNat % 16)).busy = true ∧
     (t.reg 5).toNat / 16 % 4096 = (t.slot 3).gen.toNat ∧ (t.slot 3).done = none ∧ (t.reg 6).toNat / 2 ^ 16 ≠ 1) ∧
    (((slot1 (some 0)).dev.thr 1).slot 3).done = some 0 ∧
    (∀ j < 16, (((slot1 (some 0)).dev.thr 1).slot j).busy = true → (((slot1 (some 0)).dev.thr 1).slot j).done.isSome = true) ∧
    Up (waits1 (.waitt 3 4 2 9)) ∧ ((waits1 (.waitt 3 4 2 9)).dev.thr 1).wait = some (.waitt 3 4 2 9) ∧
    ((waits1 (.fence 4 9)).dev.thr 1).wait = some (.fence 4 9) := by
  refine ⟨⟨⟨rfl, rfl⟩, rfl⟩, fun w => ready_any _ _ w (by decide), fun w => ready_any _ _ w (by decide), ?_⟩
  and_intros <;> decide

theorem witness_TrapEntry : (run1.dev.thr 0).state ≠ .run ∧ (run0.dev.thr 0).state = .run ∧ run0.dev.seq.trapMode = false ∧
    trapped0.dev.seq.trapMode = true ∧ run0.dev.seq.tvec = 0 ∧
    ({ run0.dev with seq := { run0.dev.seq with tvec := 0x400 } }).seq.tvec ≠ 0 := by decide

/-- T1 runs and the word at its PC is written. -/
def code1 : State := { run1 with dev := run1.dev.memWrite 0 (seqAddr 0) (leBytes 8 7) }

theorem witness_IssueTraps : Up run1 ∧ (∀ w, Ready run1.dev (issued 1) w) ∧ legalWord 0 = true ∧ legalWord 0xFFFFFFFF = false ∧
    (run1.dev.updThr 1 Thread.applyWin).mayFetch 1 0x80000 = false ∧
    (run1.dev.updThr 1 Thread.applyWin).mayLoad 1 0xFFFFC 8 = false ∧
    (run1.dev.updThr 1 Thread.applyWin).mayLoad 1 4 8 = true ∧ 4 % 8 ≠ 0 ∧
    (fetchOf code1.dev { thread := 1, fetch := .abort }).2 = some (seqAddr 0, .abort) ∧
    (fetchOf code1.dev { thread := 1, fetch := .moved 1 }).2 = some (seqAddr 0, .moved) ∧
    (fetchOf code1.dev { thread := 1, fetch := .carry 0 1 }).2 = some (seqAddr 0, .carry) ∧
    ((fetchOf code1.dev { thread := 1, fetch := .upset 0 7 }).2.map (·.1)) = some (seqAddr 0) := by
  refine ⟨⟨⟨rfl, rfl⟩, rfl⟩, ready_run1, ?_⟩
  and_intros <;> decide +kernel

theorem witness_ThreadCommands : Up up ∧ up.dev.ime.sealed = false ∧ (up.dev.thr 64).state = .held ∧ (run0.dev.thr 0).state = .run ∧
    ((thread 64 { state := .trapped }).dev.thr 64).state = .trapped ∧ Up (thread 64 { state := .trapped }) ∧
    (let v : Word := 0x0000_0080_0100_0000
     v.toNat % 2 ^ 10 + v.toNat / 2 ^ 16 % 2 ^ 11 ≤ 1024 ∧ v.toNat / 2 ^ 32 % 2 ^ 11 ≤ v.toNat / 2 ^ 16 % 2 ^ 11) ∧
    0x3FFFF8 + (leBytes 8 1).length ≤ 0x400000 ∧ Intact up.dev ∧
    (up.dev.seqWindowStore 0x3FFFF8 (leBytes 8 1) .clean).2 = none ∧
    (word1.dev.seqWindowStore 0xFFFF8 [1] (.upset 0 1)).2 = none ∧
    ((word1.dev.absorb (.upset 0 1) (seqAddr 0xFFFF8) 1).wrongData (seqAddr 0xFFFF8) 8) = false ∧
    ((word1.dev.seqWindowStore 0xFFFF8 [1] (.upset 0 7)).2.map (·.1)) = some (seqAddr 0xFFFF8) := by
  and_intros <;> decide +kernel
/-! ## Witnesses: power, resets, boot -/

theorem witness_PowerAndPins : monitored .vaux = true ∧ ¬ RailGroup.vaux ∈ up.dev.rst.railLow ∧ monitored .mvdd = false ∧
    up.dev.rst.perst = false ∧ State.reset.dev.rst.perst = true ∧ State.reset.dev.boot.started = false ∧ Up up ∧
    up.dev.feat 14 = true ∧ (up.dev.chan 7).state ≠ .off ∧ (up.dev.chan 7).state ≠ .failed := by
  and_intros <;> first | decide +kernel | rfl | exact fun _ => rfl

/-- One keep register set. -/
def keep (i : Nat) (k : KeepReg) : State := on fun d => { d with keep := { regs := [(i, k)] } }

theorem witness_KeepRegisterWrites : Allowed .pf0 (keep 511 { wcount := 89999 }) ∧ Allowed .pf0 (keep 0 { wcount := 100000 }) ∧
    ((keep 511 { wcount := 89999 }).dev.keepReg 511).value ≠ 7 ∧ ((keep 511 { wcount := 89999 }).dev.keepReg 511).wcount < 100000 ∧
    ((keep 0 { wcount := 100000 }).dev.keepReg 0).value ≠ 7 ∧ 100000 ≤ ((keep 0 { wcount := 100000 }).dev.keepReg 0).wcount ∧
    ((keep 0 { value := 7 }).dev.keepReg 0).value = 7 := by
  and_intros <;> first | decide +kernel | rfl | exact fun _ => rfl

/-- A partition in a state, with link and virtual functions up. -/
def part (p : Nat) (q : Part) : State := on fun d => { d with parts := [(p, q)], pcie := { d.pcie with linkUp := true, vfEnable := true } }

/-- A sealed device. -/
def sealed0 : State := on fun d => { d with ime := { d.ime with sealed := true }, boot := { d.boot with phase := .sealed } }

theorem witness_ResetRequests : Up up ∧ up.dev.ime.sealed = false ∧ up.dev.boot.phase ≠ .selftest ∧ Up sealed0 ∧
    sealed0.dev.ime.sealed = true ∧ Up (part 64 { state := .running }) ∧ (part 64 { state := .running }).dev.rst.svc = none ∧
    (∀ r ∈ (part 64 { state := .running }).dev.rst.parts, r.part ≠ 64) ∧
    ((part 64 { state := .running }).dev.part 64).state = .running ∧ ((part 1 { state := .blank }).dev.part 1).state = .blank ∧
    (part 1 { state := .blank }).dev.pcie.vfEnable = true ∧ (part 1 { state := .blank }).dev.pcie.linkUp = true ∧
    ((part 1 {}).dev.part 1).state = .none ∧ (part 64 { state := .running }).dev.plc.migs = [] ∧
    ((part 64 { state := .running }).dev.migrSearch 64).isNone = true := by
  and_intros <;> first | decide +kernel | rfl | exact fun _ => rfl

/-- A SERVICE reset at a step. -/
def service (x : SvcStep) : State := on fun d => { d with rst := { d.rst with svc := some x } }

theorem witness_ServiceReset : Up up ∧ up.dev.rst.svc = none ∧ up.dev.seq.swap = 0 ∧ up.dev.plc.migs = [] ∧ up.dev.plc.search = none ∧
    Up (service .waiting) ∧ (service .waiting).dev.rst.svc = some .waiting ∧ (service .fenced).dev.rst.svc = some .fenced ∧
    (∀ o ∈ (service .fenced).dev.ops, o.phase ≠ .queued) ∧ (service .quiet).dev.rst.svc = some .quiet ∧
    (service .retraining).dev.rst.svc = some .retraining ∧ (service .retraining).dev.clk.ref = .good ∧
    (service .retraining).dev.rst.parts = [] ∧ (service .retraining).dev.rst.held = [] ∧
    (service .retraining).dev.noc.late = [] ∧ (∀ o ∈ (service .retraining).dev.ops, o.phase ≠ .held) ∧ ∀ p, ((service .retraining).dev.part p).load = none := by
  and_intros <;> first | decide +kernel | rfl | exact fun _ => rfl

/-- A PARTITION reset of partition 64 in progress. -/
def partReset (waiting : Bool) (q : Part) : State :=
  on fun d => { d with parts := [(64, q)], rst := { d.rst with parts := [{ part := 64, flr := false, waiting := waiting }] } }

theorem witness_PartitionReset : Up (partReset true { state := .running }) ∧
    (partReset true { state := .running }).dev.rst.parts.find? (fun r => decide (r.part = 64)) =
      some { part := 64, flr := false, waiting := true } ∧ ((partReset true { state := .running }).dev.part 64).state = .running ∧
    Up (partReset false { state := .draining }) ∧
    (partReset false { state := .draining }).dev.rst.parts.find? (fun r => decide (r.part = 64)) =
      some { part := 64, flr := false, waiting := false } ∧ (partReset false { state := .draining }).dev.partDrains 64 = false := by
  and_intros <;> first | decide +kernel | rfl | exact fun _ => rfl

/-- A boot phase. -/
def boot (b : Boot) : State := { dev := { rst := { perst := false }, boot := b } }

/-- An image of zeros fails its first check; a good one cannot be written out, since the signatures are the certified algorithms'
(log 14). -/
theorem witness_BootSequence : Up (boot { phase := .selftest, started := true }) ∧
    (boot { phase := .selftest, started := true }).dev.boot.straps.getLsbD 3 = false ∧
    (boot { phase := .selftest, started := true, straps := 8 }).dev.boot.straps.getLsbD 3 = true ∧
    0x7FFFFF + [(1 : Byte)].length ≤ 0x800000 ∧ Allowed .pf0 (boot { phase := .waitImage }) ∧
    Allowed (.thread 0) (boot { phase := .lowpwr }) ∧ (boot { phase := .loading }).dev.boot.phase = .loading ∧
    (boot { phase := .verify, deadlineOn := true }).dev.boot.timeout ≠ 0 := by
  and_intros <;> first | decide +kernel | rfl | exact fun _ => rfl

theorem witness_CountersAndReports : Allowed .pf0 (boot { phase := .running, svnImage := 64 }) ∧
    (boot { svnImage := 64 }).fuse.svnFused < (64 : BitVec 7).toNat ∧ (64 : BitVec 7).toNat ≤ 64 ∧
    (boot { svnTarget := some 64 }).dev.boot.svnTarget = some 64 ∧ (boot { attestPending := true }).dev.boot.attestPending = true ∧
    (boot { phase := .running }).dev.boot.attestLast = none ∧ (boot { phase := .running }).dev.boot.locked = false ∧
    rejectOf 0 0 1 0 = some (0, false) ∧ rejectOf 0x10 0 0x10 0 = some (4, true) ∧
    (span 0 128).all (fun k => !(if k < 64 then (0 : Word).getLsbD k else (0 : Word).getLsbD (k - 64))) = true := by
  and_intros <;> first | decide +kernel | rfl | exact fun _ => rfl
/-! ## Witnesses: host link, registers, clocks -/

/-- A partition of VF 64, the link up, an SPDM session, one IDE key. -/
def linked : State := on fun d =>
  { d with parts := [(64, { state := .blank })],
           pcie := { d.pcie with linkUp := true, vfEnable := true, vfMse := true, crs := false, session := 1, ide := [{}] } }

theorem witness_HostLinkCommands : Up linked ∧ linked.dev.pcie.linkUp = true ∧ linked.dev.feat 0 = true ∧
    up.dev.pcie.linkUp = false ∧ linked.dev.pcie.vfEnable = true ∧ (linked.dev.part 64).state ≠ .none ∧
    (∀ o ∈ linked.dev.ops, o.dop ≠ 0x0E) ∧ linked.dev.doeOpen = true ∧ linked.dev.pcie.session ≠ 0 ∧
    Up linked ∧ linked.dev.ideMay 4 2 = true ∧ linked.dev.ideMay 5 0 = false ∧
    (∃ x ∈ linked.dev.pcie.ide, x.named 0 0 false false = true) ∧
    (∀ x ∈ linked.dev.pcie.ide, x.stream = 0 → x.named 0 0 false false = true) ∧ (linked.dev.arb 0 0).quar = false ∧
    linked.dev.fnUp 64 = true ∧ linked.dev.fnUp 65 = false ∧ linked.dev.pcie.crs = false ∧ ¬ 4 ∈ linked.dev.pcie.ideSecure := by
  and_intros <;> first | decide +kernel | rfl | exact fun _ => rfl

theorem witness_RegisterWrites : Allowed .pf0 (boot { phase := .running }) ∧ Allowed (.thread 0) (boot { phase := .running }) ∧
    (boot { phase := .running }).dev.rst.svc = none ∧ (boot { phase := .running }).dev.boot.locked = false ∧
    0x20004 % 8 ≠ 0 ∧ Up sealed0 ∧ sealed0.dev.ime.sealed = true ∧ (0x3FFF8 < 0x40000 ∧ 0x3FFF8 ≠ 0x20000) ∧
    (run1.dev.thr 1).state = .run ∧ run1.dev.ime.sealed = false ∧ Up run1 ∧ linked.dev.vfUp 64 = true ∧
    linked.dev.feat 15 = true ∧ (linked.dev.part 64).state ≠ .none := by
  and_intros <;> first | decide +kernel | rfl | exact fun _ => rfl

/-- `up` with clocks as given. -/
def clk (c : Clk) : State := on fun d => { d with clk := c, parts := [(1, { state := .running, cycle := 9 })] }

theorem witness_Clocks : Up (clk {}) ∧ Up (clk { target := 144 }) ∧ (clk { target := 144, g0 := { freq := 144 } }).dev.thm.wanted = 160 ∧
    (160 : Nat) ≠ (clk { target := 144, g0 := { freq := 144 } }).dev.clk.target ∧
    160 ≠ ((clk { target := 144, g0 := { freq := 144 } }).dev.clk.pll false).freq ∧ 161 ≠ (clk {}).dev.thm.wanted ∧
    (clk { switching := true }).dev.pllsRun = true ∧ (clk { switching := true }).dev.clk.switching = true ∧
    (clk {}).dev.pllsRun = true ∧ (clk {}).dev.clk.switching = false ∧
    ((clk {}).dev.clk.pll true).locked = true ∧ true ≠ (clk {}).dev.clk.active ∧ false = (clk {}).dev.clk.active ∧
    ((clk { g1 := { locked := false } }).dev.clk.pll true).locked = false ∧
    (clk { bothLost := true }).dev.clk.bothLost = true ∧ (clk { bothLost := true }).dev.clk.ref = .good ∧
    (clk { bothLost := true }).dev.clk.lastLoss = none ∧ (clk { ref := .holdover }).dev.clk.ref = .holdover ∧
    (clk { ref := .stopped, stopped := true }).dev.clk.ref ≠ .good ∧ (clk { ref := .holdover }).dev.svcCut = false ∧
    (clk { ref := .holdover }).dev.mem.selfRefresh = false := by
  and_intros <;> first | decide +kernel | rfl | exact fun _ => rfl

theorem witness_TimePasses : up.pending = [] ∧ Up up ∧ State.reset.pending = [] ∧ State.reset.dev.heldInReset = true ∧
    up.dev.clk.ref ≠ .stopped ∧ (clk { ref := .stopped }).dev.clk.ref = .stopped ∧ Out (clk { ref := .stopped }) ∧
    (clk { ref := .stopped }).dev.sysClocked = false ∧ up.dev.sysClocked = true := by
  and_intros <;> first | decide +kernel | rfl | exact fun _ => rfl

/-! ## Witnesses: design cycles -/

/-- A placement with entries, one model in marl and one plot pair. -/
def placed (l : List Entry) : Placement :=
  { map := [0], sched := { entries := l },
    models := [{ model := 15, width := 8, size := 64, tier := 2, base := 0x020100000000 }] }

/-- Partition 1 runs with an engine. -/
def runs (l : List Entry) (e : Engine) : State := on fun d =>
  { d with parts := [(1, { state := .running, placement := some (placed l), eng := e })],
           fab := { d.fab with plots := [(0, { part := 1, state := .running }), (256, { part := 1, state := .running })] } }

theorem witness_DesignCycleRuns : Up (runs [{}] {}) ∧ (runs [{}] {}).dev.clocked = true ∧ ((runs [{}] {}).dev.part 1).placement ≠ none ∧
    ((runs [{}] {}).dev.part 2).placement = none ∧ (runs [{}] {}).dev.mayStart 1 = true ∧
    (let s := runs [{}] { running := true }
     (s.dev.part 1).mayRefill = true ∧ s.dev.fab.kupsets = [] ∧ 256 ∈ s.dev.running 1) ∧
    (let s := runs [{}] { running := true, filled := true }
     s.dev.dwellReady 1 = true ∧ (s.dev.part 1).curEntry = some {} ∧ (({} : Entry).xwait).isNone = true) ∧
    (let s := runs [{}] { running := true, inDwell := true, filled := true }
     (s.dev.part 1).curEntry = some {} ∧ (s.dev.part 1).eng.filled = true ∧ Intact s.dev) ∧
    (let q := (runs [{}] { running := true, inDwell := true }).dev.part 1
     q.eng.filled = false ∧ q.curEntry = some {}) ∧
    (let s := runs [{}] { running := true, entry := 1, ports := [(63, { req := some 7 })] }
     let q := s.dev.part 1
     (tget q.eng.ports 63 {}).req = some 7 ∧ (q.model (63 / 4)).isSome = true ∧
     s.dev.refuse 0 0 (0x020100000000 + 56) 8 false = none) ∧
    (let s := runs [{}] { running := true, entry := 1, writes := [{ entry := 0, port := 63, off := 63, bytes := [5] }] }
     let q := s.dev.part 1
     firstWrite q.eng.writes = some ({ entry := 0, port := 63, off := 63, bytes := [5] }, []) ∧ q.dwellsDone = true ∧
     s.dev.refuse 0 0 (0x020100000000 + 63) 1 true = none ∧ (s.dev.keyid 0).mode ≠ .verified ∧ Intact s.dev) ∧
    (let s := runs [{}] { running := true, entry := 1 }
     let q := s.dev.part 1
     q.dwellsDone = true ∧ q.eng.writes = [] ∧ s.dev.allArrived 1 = true ∧ s.dev.thm.trip = false ∧ s.dev.clk.ref = .good ∧
     q.snapReq = [] ∧ q.trace.state = 0 ∧ q.eng.faults = [] ∧ q.freeze = [] ∧ q.count ≠ some (q.cycle.toNat + 1) ∧ q.trigs = 0 ∧
     q.promote = [] ∧ q.sel = none ∧ ∀ x ∈ s.dev.fab.slots, slotWrong x.2 = none) ∧
    (let q := (runs [{}] { running := true, entry := 1, faults := [{ code := 0x0801, detail := 1, src := 0x45, plot := some 0 }] }).dev.part 1
     q.eng.faults = [{ code := 0x0801, detail := 1, src := 0x45, plot := some 0 }] ∧ q.cut = false ∧ ∀ x ∈ q.eng.ports, x.2.lost = 0) := by
  and_intros <;> first | decide +kernel | rfl

/-- `runs` with active latches that drive lane 4,095 on both plots of a pair. -/
def lane : State := { runs [{ ctx := 7 }] { running := true, inDwell := true } with
  dev := { (runs [{ ctx := 7 }] { running := true, inDwell := true }).dev with
    fab := { (runs [] {}).dev.fab with active := [(latchKey 0 1023 3, 1#256 <<< 169), (latchKey 256 1023 3, 1#256 <<< 169)] } } }

/-- Partition 1 frozen with an automatic rewind of a snapshot in progress. -/
def auto : State := desig1 { state := .frozen, rewinding := some { addr := 0x020100000000, auto := true, thread := 0, slot := 0 } }
where
  /-- partition 1 alone -/
  desig1 (q : Part) : State := on fun d => { d with parts := [(1, q)] }

/-- The marl at the snapshot's address is off. -/
def autoOff : State := { auto with dev := { auto.dev with noc := { stops := [(13, { state := .off })] } } }

/-- One, two and three changed bits of a stored quarter. -/
def changedBits (n : Nat) : BitVec 80 := BitVec.ofNat 80 (2 ^ n - 1)

/-- Partition 1 runs with a model of 8-byte entries at the start of DDR5, under a VERIFIED KeyID that its granule is bound to. -/
def verified (e : Engine) : State := let s := runs [{}] e
  { s with dev := { s.dev with
      parts := s.dev.parts.map fun x => (x.1, { x.2 with placement := x.2.placement.map fun pl => { pl with
        models := [{ model := 15, width := 8, size := 64, tier := 2, base := 0, keyid := 3 }] } }),
      ime := { s.dev.ime with keyids := [(3, { state := .active, mode := .verified })], granules := [(0, 3)] },
      mem := { s.dev.mem with
        chans := [(0, { state := .active, gib := 16, user := 203, mapped := true, verified := true, metaReady := true })],
        tags := [(0, 3 * 2 ^ 32)], cells := csetBytes [] 56 [1, 2, 3, 4, 5, 6, 7, 8] } } }

theorem witness_DesignCycleRuns_verified :
    (let s := verified { running := true, entry := 1, ports := [(63, { req := some 7 })] }
     let q := s.dev.part 1
     Up s ∧ (tget q.eng.ports 63 {}).req = some 7 ∧ ((q.model (63 / 4)).map (·.tier)) = some 2 ∧ q.state = .running ∧
     s.dev.refuse 0 3 56 8 false = none ∧ (s.dev.keyid 3).mode = .verified ∧ Intact s.dev ∧
     cgetBytes s.dev.mem.cells 56 8 = some [1, 2, 3, 4, 5, 6, 7, 8] ∧ tget s.dev.mem.tags 0 0 = s.dev.keyTag 3) ∧
    (let s := verified { running := true, entry := 1, writes := [{ entry := 0, port := 63, off := 63, bytes := [5] }] }
     let q := s.dev.part 1
     firstWrite q.eng.writes = some ({ entry := 0, port := 63, off := 63, bytes := [5] }, []) ∧ q.dwellsDone = true ∧
     ((q.model (63 / 4)).map (·.tier)) = some 2 ∧ s.dev.refuse 0 3 63 1 true = none ∧ s.dev.ime.sealed = false ∧
     s.dev.lineCounters 63 = (0, 0)) := by
  and_intros <;> first | decide +kernel | rfl | exact ⟨⟨rfl, rfl⟩, rfl⟩

theorem witness_FaultsInADesignCycle :
    (let s := runs [{}, {}] { running := true, inDwell := true }
     Up s ∧ s.dev.fab.kupsets = [] ∧ 256 ∈ s.dev.running 1 ∧ 0 = (s.dev.part 1).refillCtx ∧ (s.dev.part 1).mayRefill = true ∧
     (s.dev.part 1).eng.entry + 1 < (s.dev.part 1).entries ∧
     onTier { plot := 256, ctx := 0, clod := 1023, grain := 63 } = true) ∧
    (let s := runs [{}] { running := true, inDwell := true }
     (s.dev.part 1).mayRefill = true ∧ (s.dev.part 1).entries ≤ (s.dev.part 1).eng.entry + 1) ∧
    (let read := fun (n : Nat) => (up.dev.upsetStored [({ plot := 0, ctx := 0, clod := 0, grain := 0 }, 3, changedBits n)]).readQuarter 0 3
     (read 1).1 = .corrected ∧ ((read 3).1 = .uncorrectable ∨ (read 3).1 = .fold)) ∧
    (Up lane ∧ (lane.dev.part 1).curEntry = some { ctx := 7 } ∧ lane.dev.fenceOpen 0 256 = true ∧
     (bits (lane.dev.act 0 (4095 / 4) (4095 % 4)) 169 2 = 1 ∧ bits (lane.dev.act 256 (4095 / 4) (4095 % 4)) 169 2 = 1) ∧
     ¬ 4095 ∈ (lane.dev.plot 0).lanesOff) ∧
    (let q := (auto.desig1 { scrubbing := true, scrubPlots := [0] }).dev.part 1
     q.scrubbing = true ∧ q.lastSnap = none ∧ q.lastAuto = [] ∧ 0 ∈ q.scrubPlots) ∧
    ((auto.desig1 {}).dev.part 1).scrubbing = false ∧
    Up auto ∧ (auto.dev.part 1).rewinding = some { addr := 0x020100000000, auto := true, thread := 0, slot := 0 } ∧
    (auto.dev.keyid 0).mode ≠ .verified ∧ (auto.dev.arb 49 66).quar = false ∧ Intact auto.dev ∧
    (∀ r ∈ auto.dev.rewindReads 1 0x020100000000, auto.dev.refuse 0 r.1 r.2.1 r.2.2 false = none) ∧ auto.dev.ime.sealed = false ∧
    Up autoOff ∧ (autoOff.dev.refuse 0 0 0x020100000000 (autoOff.dev.snapNeed 1) false).isSome = true := by
  and_intros <;> first | decide +kernel | rfl

/-- A plot in a state. -/
def plot (n : Nat) (y : Plot) : State := on fun d => { d with fab := { d.fab with plots := [(n, y)] } }

theorem witness_ConfigurationUpkeep : Up (plot 511 { state := .clearing }) ∧ ((plot 511 { state := .clearing }).dev.plot 511).state = .clearing ∧
    ((plot 511 {}).dev.plot 511).state ≠ .clearing ∧ (clk { verify := true }).dev.clk.verify = true ∧ up.dev.clocked = true ∧
    (let s := plot 511 { state := .ready, part := 1 }
     (s.dev.plot 511).inDesign = true ∧ (s.dev.plot 511).part ≠ 0 ∧ 0 < s.dev.usedPlanes 511 ∧ s.dev.fab.kupsets = [] ∧
     onTier { plot := 511, ctx := 0, clod := 0, grain := 0 } = true ∧
     (s.dev.upsetStored [({ plot := 511, ctx := 0, clod := 0, grain := 0 }, 0, changedBits 3)]).readQuarter
       (wordKey { plot := 511, ctx := 0, clod := 0, grain := 0 }) 0 ≠ (.clean, 0)) ∧
    (∀ m < 512, up.dev.recorded (up.dev.plot m).part m = none) ∧ (clk {}).dev.clk.verify = false ∧
    tget up.dev.fab.refreshSeen 0 0 = gray (tget up.dev.fab.refreshTicks 0 0) ∧
    tget (plot 0 {}).dev.fab.refreshRow 0 0 + 16 < 16384 ∧
    (let s := on fun d => { d with fab := { d.fab with refreshRow := [(511, 16368)] } }
     16384 ≤ tget s.dev.fab.refreshRow 511 0 + 16) ∧ (clk { stopped := true }).dev.clocked = false := by
  and_intros <;> first | decide +kernel | rfl
/-! ## Witnesses: device operations -/

/-- Bytes of a number as cells from an address on, which lie in increasing order. -/
def bytesAt (a n v : Nat) : List Cell := ((span a n).zip (leBytes n v))

/-- T0 runs with g1 and g2 as given, partition 1 as given, memory as given, SYSFAULT_N high. -/
def ctl (va vb : Word) (q : Part) (m : List Cell := []) : State := on fun d =>
  { d.updThr 0 fun _ => { state := .run, regs := [(1, va), (2, vb)] } with
    parts := [(1, q)], mem := { d.mem with cells := m }, start := { d.start with sfLine := true } }

/-- On a state of T0 at PC 0 with no memory there, every DEV may post. -/
theorem posts (s : State) (h : (s.dev.thr 0).state = .run) (hp : (s.dev.thr 0).pc = 0) (hl : (fetchOf s.dev (issued 0)).2 = none)
    (hf : (fetched s.dev (issued 0)).mayFetch 0 0 = true) (hw : (fetched s.dev (issued 0)).wordAt 0 = none)
    (hs : (s.dev.thr 0).freeSlot = some 0) (hr : s.dev.rst.svc = none) (ho : s.dev.ops = []) (dop : Nat) (r a b : BitVec 5) (p : Nat) :
    CanPost s.dev (issued 0) dop r a b p 0 := by
  have hn : (s.dev.thr (issued 0).thread).pc.toNat = 0 := by show (s.dev.thr 0).pc.toNat = 0; rw [hp]; rfl
  refine ⟨ready_any _ _ _ ⟨by decide, h, by omega, hl, by rw [hn]; exact hf, by rw [hn]; exact hw⟩, hs, hr, .inr ?_⟩
  rw [ho]; intro x hx; cases hx

theorem posts_ctl (va vb : Word) (q : Part) (dop : Nat) (r a b : BitVec 5) (p : Nat) :
    CanPost (ctl va vb q).dev (issued 0) dop r a b p 0 := posts _ rfl rfl rfl rfl rfl rfl rfl rfl dop r a b p

/-- The same with memory that lies outside sequencer memory, as `m` says. -/
theorem posts_mem (va vb : Word) (q : Part) (m : List Cell) (h : (cgetBytes m (seqAddr 0) 4).isNone = true) (dop : Nat) (r a b : BitVec 5)
    (p : Nat) : CanPost (ctl va vb q m).dev (issued 0) dop r a b p 0 :=
  posts _ rfl rfl rfl rfl (by
    show (cgetBytes m (seqAddr 0) 4).map _ = none
    cases hc : cgetBytes m (seqAddr 0) 4 with
    | none => rfl
    | some l => rw [hc] at h; cases h) rfl rfl rfl dop r a b p

theorem witness_RunControl : Up (ctl 1 0 {}) ∧ (∀ dop r a b p, CanPost (ctl 1 0 {}).dev (issued 0) dop r a b p 0) ∧
    mayName 0 1 false = true ∧ mayName 0 64 false = true ∧ mayName 64 64 false = true ∧
    (0x301#64 &&& 0xFFFFFFFFFFFFFC80 = 0) ∧ (ctl 0x301 0 { state := .placed }).dev.runRefused 1 = none ∧
    (ctl 1 0 { state := .placed, startGrp := true }).dev.runRefused 1 = some 7 ∧ (ctl 1 0 {}).dev.runRefused 1 = some 1 ∧
    ((ctl 1 5 { state := .frozen, count := some 9 }).dev.part 1).count ≠ none ∧
    ((ctl 1 5 { state := .frozen }).dev.part 1).count = none ∧ (ctl 1 5 { state := .frozen }).dev.runRefused 1 = none ∧
    (0 < (0xFFFFFFFFFFFF : Word).toNat ∧ (0xFFFFFFFFFFFF : Word).toNat < 2 ^ 48) ∧
    ((ctl 1 0 { state := .running }).dev.part 1).state = .running ∧ ((ctl 1 0 { state := .halted }).dev.part 1).state ≠ .running ∧
    ((ctl 1 0 { state := .halted }).dev.part 1).stepOp = none ∧ ((ctl 1 0 { state := .halted }).dev.part 1).snapReq = [] ∧
    2 ^ 10 ≤ (0x400 : Word).toNat := by
  and_intros <;> first | decide +kernel | exact posts_ctl _ _ _ | exact posts_mem _ _ _ _ (by decide +kernel) | rfl

/-- The header of a valid snapshot of partition 1, sequence number 1. -/
def snapHead : List Cell := bytesAt 0x020100000000 72 (0x4E535A56 + 2 ^ 32 + 2 ^ 48 + 2 ^ 64 + 2 ^ 192)

/-- A partition that may be captured, in a state. -/
def shot (st : PState) : Part :=
  { state := st, plots := 1, placement := some { map := [0] }, marl := some (0x020100000000, 0x40000000), drainTo := 0 }

theorem witness_Snapshots : Up (ctl 1 0x020100000000 (shot .running)) ∧
    (∀ dop r a b p, CanPost (ctl 1 0x020100000000 (shot .running)).dev (issued 0) dop r a b p 0) ∧
    (∀ dop r a b p, CanPost (ctl 1 0x020100000000 (shot .frozen) snapHead).dev (issued 0) dop r a b p 0) :=
  ⟨⟨⟨rfl, rfl⟩, rfl⟩, posts_ctl _ _ _, posts_mem _ _ _ _ (by decide +kernel)⟩

theorem witness_Snapshots_areas :
    (ctl 1 0x020100000000 (shot .running)).dev.startAddrOk 0 0x020100000000 true = true ∧
    (0x020100000000 : Word).toNat / 2 ^ 48 = 0 ∧ (ctl 1 0x020100000000 (shot .running)).dev.rewindDue 1 = false ∧
    { (ctl 1 0 {}).dev with fab := { (ctl 1 0 {}).dev.fab with plots := [(5, { part := 1, rewind := true })] } : Dev }.rewindDue 1 = true ∧
    (ctl 1 0x020100000000 (shot .frozen)).dev.snapAreaOk 1 0x020100000000 = true ∧
    (ctl 1 0x020100000000 (shot .placed)).dev.snapAreaOk 1 0x020100000040 = false ∧ ¬ PState.halted ∈ [PState.running, .frozen, .placed] ∧
    ((ctl 1 0x020100000000 (shot .frozen)).dev.part 1).rewinding = none ∧
    (let d := (ctl 1 0x020100000000 (shot .frozen)).dev
     (d.arb 49 0).quar = false ∧ d.snapRefused 1 0x020100000000 = none ∧
     (d.snapRefused 1 0x0003020100000000).isSome = true ∧ d.refuse 0 0 0x020100000000 4096 false = none ∧
     (d.refuse 0 3 0x020100000000 4096 false).isSome = true) := by
  and_intros <;> decide +kernel

theorem witness_Snapshots_valid :
    (let s := ctl 1 0x020100000000 (shot .frozen) snapHead
     let q := posted s.dev (issued 0) 3 (posting s.dev (issued 0) 0x0B 1 2 1 0)
     q.snapValid 0 1 0x020100000000 = true ∧ q.snapValid 1 1 0x020100000000 = false ∧ Intact q) := by
  and_intros <;> decide +kernel

theorem witness_Snapshots_capture :
    (let c : Snap := { addr := 0x020100000000, thread := 64 }
     let s := ctl 1 0 { state := .frozen, capture := [c, { c with bad := some 64 }] }
     Up s ∧ (s.dev.part 1).capture = [c, { c with bad := some 64 }] ∧ (s.dev.op 64 0 = none) ∧
     (s.dev.part 1).eng.faults = [] ∧ (∀ z ∈ s.dev.fab.slots, slotWrong z.2 = none) ∧ (s.dev.keyid 0).mode ≠ .verified ∧
     s.dev.ime.sealed = false ∧ c.bad = none ∧ Intact s.dev ∧ s.dev.snapReads 1 = []) := by
  and_intros <;> decide +kernel

theorem witness_Snapshots_refused :
    (let m : ModelAt := { model := 15, width := 8, keyid := 3, size := 64, tier := 2, base := 0x020100000000 }
     let pl : Placement := { map := [0], models := [m] }
     let s := ctl 1 0 { state := .frozen, placement := some pl, capture := [{ addr := 0x020100000000, thread := 64 }] }
     s.dev.snapReads 1 ≠ [] ∧ ∃ y ∈ s.dev.snapReads 1, (s.dev.refuse 0 y.1 y.2.1 y.2.2 false).isSome = true) := by
  and_intros <;> decide +kernel

theorem witness_Snapshots_parity :
    (let s := { on (fun d => { d with fab := { d.fab with plots := [(5, { part := 1, state := .frozen })] } }) with pending := [] }
     5 ∈ s.dev.plotsOf 1 ∧ (s.dev.plot 5).part = 1 ∧ (s.dev.plot 5).inDesign = true ∧
     slotWrong (tget s.dev.fab.slots (wordKey { plot := 5, ctx := 0, clod := 0, grain := 0 }) 0 ^^^ 1) ≠ none) := by
  and_intros <;> decide +kernel

theorem witness_Snapshots_rewind :
    (let s := ctl 1 0 { state := .frozen, rewinding := some { addr := 0x020100000000, auto := false, thread := 64, slot := 0 } }
     Up s ∧ (s.dev.part 1).rewinding = some { addr := 0x020100000000, auto := false, thread := 64, slot := 0 } ∧
     (∀ y ∈ s.dev.rewindReads 1 0x020100000000, (s.dev.keyid y.1).mode ≠ .verified ∧ s.dev.refuse 0 y.1 y.2.1 y.2.2 false = none) ∧
     Intact s.dev) ∧
    (let s := ctl 1 0 { state := .frozen, rewinding := some { addr := 0x0003020100000000, auto := false, thread := 64, slot := 0 } }
     ∃ y ∈ s.dev.rewindReads 1 0x0003020100000000, (s.dev.refuse 0 y.1 y.2.1 y.2.2 false).isSome = true) := by
  and_intros <;> decide +kernel

/-! ## Witnesses: images -/

/-- A PARTIAL container with PLOTS 1, sections 1, 2 and 8 of 64 bytes each from offset 256, all zero; 384 bytes are listed. -/
def container : List Cell := bytesAt 0x020100000000 384
  (0x4154424D + 2 ^ 32 + 128 * 2 ^ 48 + 448 * 2 ^ 64 + 2 ^ (8 * 0x10) + 2 ^ (8 * 0x13) + 3 * 2 ^ (8 * 0x14) + 128 * 2 ^ (8 * 0x18) +
   2 ^ (8 * 0x1C) + sec 0 1 256 + sec 1 2 320 + sec 2 8 384)
where
  /-- a directory entry -/
  sec (i ty off : Nat) : Nat := (ty + off * 2 ^ 64 + 64 * 2 ^ 128) * 2 ^ (8 * (128 + 32 * i))

/-- Device once T0 has posted an operation. -/
def after (s : State) (dop : Nat) : Dev := posted s.dev (issued 0) 3 (posting s.dev (issued 0) dop 1 2 1 0)

/-- That operation. -/
def op (s : State) (dop : Nat) : Op := posting s.dev (issued 0) dop 1 2 1 0

/-- T0, partition 1 PLACED and the container at hand. -/
def imgchk : State := ctl 1 0x020100000000 { state := .placed } container

/-- T0, partition 1 BLANK and a container of zeros. -/
def imgzero : State := ctl 1 0x020100000000 { state := .blank } (bytesAt 0x020100000000 128 0)

/-- A head whose digest is that of the container of zeros, and one whose digest is not. -/
def imgld (ok : Bool) : State := ctl 0x101 0x020100000000 { state := .frozen, headPart := some {
  digest := Config.sha384 (leBytes 128 0) + if ok then 0 else 1 } } (bytesAt 0x020100000000 128 0)

theorem imgld_same : (imgld true).dev.part 1 = { state := .frozen, headPart := some { digest := Config.sha384 (leBytes 128 0) + 0 } } ∧
    (after (imgld true) 2).message (op (imgld true) 2) = leBytes 128 0 ∧
    (after (imgld false) 2).message (op (imgld false) 2) = leBytes 128 0 := by
  and_intros <;> first | decide +kernel | rfl | exact fun _ => rfl

/-- The digest compares as IMGLD compares it, and the other one does not. -/
theorem imgld_digests : ((((imgld true).dev.part 1).headPart.map (·.digest)) =
      some (Config.sha384 ((after (imgld true) 2).message (op (imgld true) 2)))) ∧
    ¬ ((((imgld false).dev.part 1).headPart.map (·.digest)) =
      some (Config.sha384 ((after (imgld false) 2).message (op (imgld false) 2)))) := by
  rw [imgld_same.2.1, imgld_same.2.2]
  have h1 : ((imgld true).dev.part 1).headPart.map (·.digest) = some (Config.sha384 (leBytes 128 0) + 0) := rfl
  have h2 : ((imgld false).dev.part 1).headPart.map (·.digest) = some (Config.sha384 (leBytes 128 0) + 1) := rfl
  refine ⟨by rw [h1]; simp, ?_⟩
  rw [h2]
  intro h
  injection h with h
  simp at h

/-- Partition 1 LOADING a head of one run of one frame; the frame group at hand names clod 0, and its words are zero. -/
def loading (first run : Nat) (dig : BitVec 384) : State := ctl 1 0
  { state := .loading, plots := 1, placement := some { map := [0] },
    headFull := some { runs := [{ plot := 0, ctx := 0, first := first, count := 1 }], secs := [{ type := 8, count := 1, off := 256, len := 2064 * (1 - run) }],
                       framesDigest := dig },
    load := some { addr := 0x020100000000, run := run } } (bytesAt 0x020100000100 144 (2 ^ 48))

/-- IMGCHK's success needs the tag or the signatures of the certified algorithms (log 14); the clause of a head accepted differs
from that of a head refused in `headCheck` alone. -/
theorem witness_ImagesCheckedAndLoaded : Up imgchk ∧ (∀ dop r a b p, CanPost imgchk.dev (issued 0) dop r a b p 0) ∧
    imgchk.dev.startAddrOk 0 0x020100000000 false = true ∧ ((ctl 1 0x020100000000 {}).dev.part 1).state = .none ∧
    (imgchk.dev.part 1).state ≠ .none ∧ (imgchk.dev.part 1).load = none ∧ ((after imgchk 1).keyid 0).mode ≠ .verified ∧
    (after imgchk 1).mem.poison = [] ∧ (after imgchk 1).refuse 0 0 0x020100000000 128 false = none ∧
    (imgchk.dev.part 1).chkState 1 = true ∧ (after imgchk 1).mayAccess 0 0x020100000000 448 true = true ∧
    (let h := (after imgchk 1).cont (op imgchk 1) 0 128
     field h 0x13 1 = 1 ∧ field h 8 8 = 448 ∧ headerFault h = none ∧ field h 0x14 2 = 3) ∧
    (after imgchk 1).refuse 0 0 (0x020100000000 + 128) 96 false = none ∧
    (let raw := (after imgchk 1).cont (op imgchk 1) 128 96
     dirFault raw (secsOf raw 3) 1 448 = none ∧ headEnd (secsOf raw 3) = 384) ∧
    (after imgchk 1).refuse 0 0 0x020100000000 384 false = none ∧
    (let raw := (after imgchk 1).cont (op imgchk 1) 128 96
     padFault ((after imgchk 1).cont (op imgchk 1) 0 384) (secsOf raw 3) = none) ∧
    (let h := (after imgchk 1).cont (op imgchk 1) 0 128
     let raw := (after imgchk 1).cont (op imgchk 1) 128 96
     (after imgchk 1).headCheck (op imgchk 1) h (secsOf raw 3) = .inl (0x0102, 0x10)) ∧
    Up imgzero ∧ (∀ dop r a b p, CanPost imgzero.dev (issued 0) dop r a b p 0) ∧
    (imgzero.dev.part 1).chkState 0 = true ∧ headerFault ((after imgzero 1).cont (op imgzero 1) 0 128) = some 0 ∧
    Up (imgld true) ∧ (∀ ok dop r a b p, CanPost (imgld ok).dev (issued 0) dop r a b p 0) ∧ 0x101#64 &&& 0xFFFFFFFFFFFFFE80 = 0 ∧
    (imgld true).dev.boot.locked = true ∧ (imgld true).dev.loadRefused 1 true = none ∧ imgzero.dev.loadRefused 1 false = some 2 ∧
    (imgld true).dev.plc.migs = [] ∧ (imgld true).dev.plc.search = none ∧
    ((after (imgld true) 2).message (op (imgld true) 2)).length = 128 ∧
    Up (loading 0 0 0) ∧ ((loading 0 0 0).dev.part 1).state = .loading ∧ (loading 0 0 0).dev.svcCut = false ∧
    ((loading 0 0 0).dev.arb 48 1).quar = false ∧ (loading 0 0 0).dev.refuse 0 0 (0x020100000000 + 256) 2064 false = none ∧
    (let g := (loading 0 0 0).dev.memRead 0 0x020100000100 2064
     field g 0 2 = 0 ∧ field g 2 1 = 0 ∧ field g 4 2 = 0 ∧ field g 6 2 = 1 ∧
     ({ map := [0] : Placement }).frameBad 0 0 0 ((g.drop 16).take 2048) = false) ∧
    ¬ (0 = 1023) ∧ (loading 0 1 (Config.sha384 [])).dev.svcCut = false ∧
    Config.sha384 [] ≠ Config.sha384 [] + 1 := by
  and_intros <;> first
    | decide +kernel
    | exact posts_mem _ _ _ _ (by decide +kernel)
    | exact fun ok => posts_mem _ _ _ _ (by decide +kernel)
    | rfl
    | (rw [imgld_same.2.1]; decide +kernel)
    | simp
/-! ## Witnesses: placement and migration -/

/-- A schedule of one entry of four steps on tick fields of zero. -/
def sched1 : List Byte := leBytes 20 (2 ^ 64 + 4 * 2 ^ (128 + 20))

/-- A FULL head for one plot: a schedule, and a MODELS section without models. -/
def head1 : Head := { plots := 1, secs := [{ type := 3, count := 1, off := 0, len := 0 }, { type := 7, count := 0, off := 0, len := 0 }],
                      tables := [(0, sched1), (1, leBytes 64 0)] }

/-- T0, with partition 1 BLANK and its head accepted; 4 GiB of buffer asked for, or less. -/
def place1 (va : Word) (q : Part) (c : Plc) : State := { ctl va 0x1000 q with dev := { (ctl va 0x1000 q).dev with plc := c } }

/-- What a search for one plot takes: two free plots, cold everywhere. -/
def inp1 (free : List Nat) : PlaceIn :=
  { plots := 1, cc := 1, free := free, left := (2000, 2000), lanes := [], est := (span 0 128).map fun _ => 0, wTherm := 4, improve := 0 }

/-- A search for partition 1 by T0, with its operation. -/
def searching (q : Part) (g : Option (Nat × Option Nat)) (free : List Nat := [300, 511]) : State := on fun d =>
  { d with parts := [(1, q)], ops := [{ dop := if g.isNone then 0x03 else 0x04, part := 1 }],
           fab := { d.fab with plots := [(9, { part := 1, state := .running })] },
           plc := { d.plc with search := some { part := 1, migr := g, head := 0, keys := [], marl := none, ddr := none,
                                                inp := inp1 free, base := if g.isNone then [] else [9], thread := 0, slot := 0 } } }

/-- A migration of logical plot 0 from plot 9 to plot 511, before its copy. -/
def migrating (st : PState) : State := on fun d =>
  { d with parts := [(1, { state := st, plots := 1, placement := some { map := [9] } })], fab := { d.fab with kaolin := [(9 * 524288, 1)] },
           plc := { d.plc with migs := [{ part := 1, moves := [(0, 9, 511)], transit := [], lens := [], copied := false, moved := false, thread := 0, slot := 0 }] } }

theorem witness_PlacementAndMigration :
    (let s := place1 0x10000000001 { state := .blank, plots := 1, headFull := some head1 } {}
     Up s ∧ s.dev.seq.swap = 0 ∧ (∀ y ∈ s.dev.ops, y.phase ≠ .queued) ∧
     (0x10000000001 : Word).toNat / 2 ^ 7 % 2 ^ 25 = 0 ∧ (fetched s.dev (issued 0)).mayStore 0 0x1000 256 = true ∧
     s.dev.plc.search = none ∧ s.dev.placeFault 1 256 = none ∧ s.dev.placeFault 1 0 = some (0x0209, 4)) ∧
    (searching {} none).dev.plc.search ≠ none ∧ (searching {} none).dev.feat 8 = true ∧ (searching {} none).dev.boot.locked = true ∧
    (let q : Part := { state := .frozen, plots := 1, placement := some { map := [9] } }
     (searching q none).dev.mayMigrate 1 0 = true ∧ (searching {} none).dev.mayMigrate 1 0 = false) ∧
    (0x7FFFF : Word).toNat < 2 ^ 19 ∧ (boot { phase := .running, locked := true }).dev.feat 8 = false := by
  and_intros <;> decide +kernel

theorem witness_PlacementAndMigration_posts (va : Word) (q : Part) (c : Plc) (dop : Nat) (r a b : BitVec 5) (p : Nat) :
    CanPost (place1 va q c).dev (issued 0) dop r a b p 0 := posts _ rfl rfl rfl rfl rfl rfl rfl rfl dop r a b p

theorem witness_PlacementAndMigration_search :
    (let s := searching { state := .blank, plots := 1, headFull := some head1 } none
     let nets := netsOf (head1.table 5).1 (head1.table 5).2
     let pairs := pairsOf (head1.table 6).1 (head1.table 6).2 1
     let sch := schedOf (head1.table 3).1
     Up s ∧ s.dev.op 0 0 = some { dop := 0x03, part := 1 } ∧ (∀ y ∈ s.dev.ops, y.phase ≠ .queued) ∧
     head1.digest = 0 ∧ ([300] : List Nat).Nodup ∧
     (inp1 [300, 511]).decide_ nets pairs sch { swaps := [], routes := [] } = some (.inr ([300], [])) ∧
     (inp1 [511]).decide_ nets pairs sch { swaps := [], routes := [] } = some (.inr ([511], [])) ∧
     (((inp1 []).decide_ nets pairs sch { swaps := [], routes := [] }).bind Sum.getLeft?).isSome = true ∧
     extensionFault nets (routeLens []) (extended sch (sch.entries.map (·.steps)) nets (routeLens [])) = none ∧
     ((s.dev.updPart 1 fun q => { q with keys := [], marl := none, ddr := none }).placeModels 1
       (modelRecs (head1.table 7).1 1 (head1.table 7).2) (masksOf (head1.table 7).1 1)).1 = none) := by
  and_intros <;> decide +kernel

theorem witness_PlacementAndMigration_migration :
    (let q : Part := { state := .frozen, plots := 1, placement := some { map := [9] } }
     let s := searching q (some (0, none)) [10]
     Up s ∧ s.dev.op 0 0 = some { dop := 0x04, part := 1 } ∧ s.dev.mayMigrate 1 0 = true ∧
     (∀ sr, s.dev.plc.search = some sr →
       sr.migrate { map := [9] } 0 (some 300) { swaps := [], routes := [] } = some none ∧
       sr.migrate { map := [9] } 0 none { swaps := [], routes := [] } = some (some ([10], [])))) ∧
    Up (migrating .running) ∧ ((migrating .running).dev.arb 48 0).quar = false ∧ 9 ≠ 511 ∧
    ((migrating .frozen).dev.fab.kaolin.map (·.1)).Nodup ∧ (migrating .frozen).dev.fab.kupsets = [] ∧
    ((migrating .placed).dev.part 1).state = .placed ∧ (migrating .frozen).dev.op 0 0 = none ∧
    (let x : Part := { state := .running, migrCycles := 1024 }
     max 16 x.migr.period.toNat ≤ x.migrCycles ∧ (({} : Part).migrCycles < max 16 ({} : Part).migr.period.toNat)) := by
  and_intros <;> first | decide +kernel | (intro sr h; injection h with h; subst h; and_intros <;> decide +kernel)

/-! ## Witnesses: FILL, RMOV, DMA -/

/-- T0, an operand block at sequencer memory offset 0x1000, partition 1 with plot 9. -/
def mover (va : Word) (v : Nat) (m : List Cell := []) : State :=
  { ctl va 0x1000 {} with dev := { (ctl va 0x1000 {}).dev with
      parts := [(1, { state := .placed, plots := 1, placement := some { map := [9] } })],
      mem := { (ctl va 0x1000 {}).dev.mem with cells := m ++ bytesAt (seqAddr 0x1000) 32 v } } }

/-- The same with an operation of T0 outstanding. -/
def moving (va : Word) (dop v : Nat) (m : List Cell := []) : State :=
  { mover va v m with dev := { (mover va v m).dev with
      pcie := { (mover va v m).dev.pcie with linkUp := true, vfEnable := true, busMaster := [1] },
      ops := [{ dop := dop, a := va, b := 0x1000, part := va.toNat }] } }

/-- FILL of 64 bytes of marl. -/
def fill1 : Nat := 0x020100000000 + 64 * 2 ^ 64 + 7 * 2 ^ 128
/-- FILL of a row of block memory. -/
def row1 : Nat := 1 * 2 ^ 14 + 2 ^ 64 + 7 * 2 ^ 128 + 2 ^ 200
/-- RMOV of 1 KiB. -/
def rmov1 : Nat := 0x020100000000 + 0x020100000400 * 2 ^ 64 + 2 ^ 128
/-- DMA of 64 bytes from host memory. -/
def dmaIn : Nat := 0x40 * 2 ^ 64 + 0x020100000000 * 2 ^ 128 + 64 * 2 ^ 192
/-- DMA of 64 bytes to host memory. -/
def dmaOut : Nat := dmaIn + 1

/-- The operation of `moving`. -/
def mop (va : Word) (dop : Nat) : Op := { dop := dop, a := va, b := 0x1000, part := va.toNat }

theorem witness_MemoryMovers : Up (mover 1 fill1) ∧ Intact (fetched (mover 1 fill1).dev (issued 0)) ∧
    (after (mover 1 dmaIn) 0x0E).dmaBehind (op (mover 1 dmaIn) 0x0E) = false ∧
    (∀ v ∈ [fill1, row1, rmov1, dmaIn, dmaOut], (mover 1 v).dev.wordAt 0 = none) ∧ mayName 0 0 true = true ∧
    (fetched (mover 1 0).dev (issued 0)).mayLoad 0 0x1000 32 = true ∧
    ((after (mover 0 fill1) 0x0C).fillArgs (op (mover 0 fill1) 0x0C)).isRight = true ∧
    ((after (mover 1 fill1) 0x0C).fillArgs (op (mover 1 fill1) 0x0C)).isRight = true ∧
    ((after (mover 1 row1) 0x0C).fillArgs (op (mover 1 row1) 0x0C)).isRight = true ∧
    (after (mover 1 1) 0x0C).fillArgs (op (mover 1 1) 0x0C) = .inl (0x0913, 0) ∧
    ((after (mover 1 rmov1) 0x0D).rmovArgs (op (mover 1 rmov1) 0x0D)).isRight = true ∧
    (after (mover 1 1) 0x0D).rmovArgs (op (mover 1 1) 0x0D) = .inl (0x0913, 0) ∧
    (moving 1 0x0E 0).dev.channelShut 1 = false ∧ (mover 0 0).dev.channelShut 0 = false ∧
    ((after (mover 0 dmaIn) 0x0E).dmaArgs (op (mover 0 dmaIn) 0x0E)).isRight = true ∧
    (after (mover 0 (2 ^ 16)) 0x0E).dmaArgs (op (mover 0 (2 ^ 16)) 0x0E) = .inl (0x0913, 2) ∧
    HasTurn (moving 1 0x0C fill1).dev 0 0 0x0C (mop 1 0x0C) ∧
    (moving 1 0x0C fill1).dev.fillArgs (mop 1 0x0C) = .inr { dest := .mem 0x020100000000 64, key := 0, pattern := 7, xor := false } ∧
    (moving 1 0x0C fill1).dev.refuse 0 0 0x020100000000 64 true = none ∧ ((moving 1 0x0C fill1).dev.arb 49 0).quar = false ∧
    (moving 1 0x0C row1).dev.fillArgs (mop 1 0x0C) = .inr { dest := .rows (rowKey 9 0 1) 1, key := 0, pattern := 7, xor := false } ∧
    HasTurn (moving 1 0x0D rmov1).dev 0 0 0x0D (mop 1 0x0D) ∧
    (moving 1 0x0D rmov1).dev.rmovArgs (mop 1 0x0D) = .inr (0, 0x020100000000, 0, 0x020100000400, 1024) ∧
    (moving 1 0x0D rmov1).dev.refuse 0 0 0x020100000400 1024 true = none ∧
    HasTurn (moving 1 0x0E dmaIn).dev 0 0 0x0E (mop 1 0x0E) ∧ ((moving 1 0x0E dmaIn).dev.arb 0 2).quar = false ∧
    (moving 1 0x0E dmaIn).dev.dmaArgs (mop 1 0x0E) =
      .inr { out := false, irq := false, host := 0x40, key := 0, addr := 0x020100000000, len := 64 } ∧
    (moving 0 0x0E dmaOut (bytesAt 0x020100000000 64 9)).dev.dmaArgs (mop 0 0x0E) =
      .inr { out := true, irq := false, host := 0x40, key := 0, addr := 0x020100000000, len := 64 } ∧
    cgetBytes (moving 0 0x0E dmaOut (bytesAt 0x020100000000 64 9)).dev.mem.cells 0x020100000000 64 = some (leBytes 64 9) ∧
    (let d := { (moving 0 0x0E 0).dev with ops := [mop 0 0x0E, { mop 0 0x0E with order := 1, slot := 1 }] }
     d.op 0 1 = some { mop 0 0x0E with order := 1, slot := 1 } ∧ d.mustWait { mop 0 0x0E with order := 1, slot := 1 } = true) := by
  and_intros <;> decide +kernel

theorem witness_MemoryMovers_posts (v dop : Nat) (r a b : BitVec 5) (p : Nat) : CanPost (mover 1 v).dev (issued 0) dop r a b p 0 :=
  posts _ rfl rfl rfl rfl rfl rfl rfl rfl dop r a b p
/-! ## Witnesses: observation, pins, the test port -/

/-- T0 with an operand block of n zero bytes but for the value given, and partition 1 as given. -/
def blk (va : Word) (n v : Nat) (q : Part) : State := { ctl va 0x1000 q with dev := { (ctl va 0x1000 q).dev with
  mem := { (ctl va 0x1000 q).dev.mem with cells := bytesAt (seqAddr 0x1000) n v } } }

theorem witness_ObservationSetup : Up (blk 1 144 0 {}) ∧ (∀ dop r a b p, CanPost (blk 1 144 0 {}).dev (issued 0) dop r a b p 0) ∧
    (fetched (blk 1 144 0 {}).dev (issued 0)).prbLen 0x1000 = 144 ∧ (fetched (blk 1 144 0 {}).dev (issued 0)).mayLoad 0 0x1000 144 = true ∧
    field ((after (blk 1 144 (2 ^ 95) {}) 0x0F).block (op (blk 1 144 (2 ^ 95) {}) 0x0F) 144) 8 4 ≠ 0 ∧
    (blk 1 144 0 {}).dev.boot.locked = true ∧ (blk 1 144 0 {}).dev.feat 10 = true ∧ (boot { phase := .running }).dev.feat 10 = false ∧
    (after (blk 1 144 0 {}) 0x0F).prbFault 1 (leBytes 144 0) = none ∧ (after (blk 1 144 0 {}) 0x0F).prbFault 1 (leBytes 144 0xFFFF) = some 0 ∧
    ((blk 1 144 0 { state := .running }).dev.part 1).state = .running ∧ ((blk 1 144 0 {}).dev.part 1).state ≠ .running ∧
    (fetched (blk 1 264 0x8000 { trigs := 0x8000 }).dev (issued 0)).trigLen 0x1000 = 264 ∧
    (after (blk 1 264 0x8000 { trigs := 0x8000 }) 0x10).trigFault 1 (leBytes 264 0x8000) = none ∧
    (after (blk 1 264 0x8000 { trigs := 0x8000 }) 0x10).trigFault 1 (leBytes 264 0x10000) = some 2 ∧
    Allowed .pf0 (ctl 1 0 {}) ∧ (ctl 1 0 {}).dev.rst.svc = none ∧ ((ctl 1 0 {}).dev.part 64).trace.state = 0 ∧
    (ctl 1 0 {}).dev.tallocOk 64 0x0300000100000000 = true ∧ (ctl 1 0 {}).dev.tallocOk 1 0xFFFF = false ∧
    ((ctl 1 0 { trace := { state := 2 } }).dev.part 1).trace.state ≠ 0 ∧
    (1 ≤ 1 ∧ 1 ≤ 64 ∧ 1 ≠ 64 ∧ ((ctl 1 0 { trigs := 0x8000, pout := 1 }).dev.part 1).trigs.getLsbD 15 = true) := by
  and_intros <;> first | decide +kernel | rfl | exact .inl rfl | exact posts _ rfl rfl rfl rfl rfl rfl rfl rfl

/-- The debug port is enabled by its strap and by OBS_DBG; DBGACC as given is selected. -/
def debug (v : BitVec 128) (busy : Bool) : State := on fun d =>
  { d with boot := { d.boot with straps := 4 }, obs := { d.obs with en := true }, tap := { d.tap with ir := .dbgacc, dbg := v, busy := busy } }

theorem witness_PinsAndTestPort : (debug 0 false).dev.boot.straps.getLsbD 2 = true ∧ up.dev.boot.straps.getLsbD 2 = false ∧
    ¬ 0xFF ∈ [0x01, 0x02, 0x03, 0x04, 0x05, 0x10] ∧ Up (debug 0 false) ∧
    (debug 0 false).dev.feat 11 = true ∧ (0x03200000000001 : BitVec 128).toNat % 4 = 1 ∧
    (debug 0 false).dev.debugMay up.fuse (dbgAddr 0x03200000000001) false = true ∧
    (debug 0 false).dev.debugMay up.fuse (dbgAddr 0x03200002000002) true = false ∧
    (debug 0x03200000000001 true).dev.tap.dbg.toNat % 4 = 1 ∧ 0x032000000000 ≤ addrOf (dbgAddr 0x03200000000001 &&& ~~~7) ∧
    Allowed .pf0 up ∧ (∀ p < 65, (up.dev.part p).state = .none) ∧ (ctl 1 0 { state := .blank, banks := 0x20000 }).dev.bankOwner 17 = 1 ∧
    ((ctl 1 0 { state := .blank, banks := 0x20000 }).dev.part 1).state = .blank ∧
    (ctl 1 0 { state := .placed, banks := 0x20000 }).dev.bankOwner 17 = 1 ∧
    ((ctl 1 0 { state := .placed, banks := 0x20000 }).dev.part 1).state ≠ .blank := by
  and_intros <;> first | decide +kernel | rfl | exact .inl rfl

/-! ## Witnesses: starts -/

/-- Partition 1 in the start group; the registers of the start round as given. -/
def start (q : Part) (x : Start) (r : Ring := {}) : State := on fun d =>
  { d with parts := [(1, q)], start := x, ring := r, ime := { d.ime with ports := [(0, { state := .sealed, rx := some 0 })] } }

/-- A ring of three devices, this one at position 1, port N0 up. -/
def ring3 : Ring := { size := 3, position := 1, enA := true, bypassed := false, ctlA := { state := .on }, ports := [(0, { state := .up })], locked := true,
                      time := 5000 }

/-- A frame that arrives with its tag opens, where it is in order and the receive secret is 0. -/
theorem opens0 (d : Dev) (n : Nat) (f : Frame) (h : InOrder d n f) (r : (d.nk n).rx = some 0) :
    Opens d n f { tag := frameTag 0 f } (frameCrypt 0 f) := ⟨h, rfl, by rw [r]; exact openUnder_own 0 f⟩

theorem witness_StartRoundAndSysfault : Up (blk 0x101 32 7 {}) ∧ (∀ dop r a b p, CanPost (blk 0x101 32 7 {}).dev (issued 0) dop r a b p 0) ∧
    (fetched (blk 0x101 32 7 {}).dev (issued 0)).mayLoad 0 0x1000 32 = true ∧ (0x140 : Word).toNat = 0x100 + 64 ∧
    (∀ dop r a b p, CanPost (ctl 1 0 {}).dev (issued 0) dop r a b p 0) ∧ (ctl 1 0 {}).dev.releases = [] ∧
    (let s := start { state := .placed, startGrp := true } { waiting := true }
     Up s ∧ s.dev.start.hold = true ∧ s.dev.start.waiting = true ∧ s.dev.ime.sealed = false ∧
     (∀ p ∈ s.dev.startGroup, (s.dev.part p).state = .placed) ∧ s.dev.startMaster = true ∧ (s.dev.onRing = false ∨ s.dev.ring.size ≤ 1)) ∧
    (let s := start { state := .blank, startGrp := true } {}
     ∃ p ∈ s.dev.startGroup, (s.dev.part p).state ≠ .placed) ∧
    (let s := start { state := .placed, startGrp := true } { waiting := true, hold := false } ring3
     s.dev.start.hold = false ∧ s.dev.start.th = none ∧ s.dev.startMaster = false ∧ InOrder s.dev 0 { type := 2 } ∧ (s.dev.nk 0).rx = some 0 ∧ s.dev.start.ts = none ∧
     s.dev.ring.locked = true ∧ s.dev.ring.time.toNat + 2000 ≤ 7000 ∧ 6999 < s.dev.ring.time.toNat + 2000) ∧
    (start {} {}).dev.start.waiting = false ∧
    (let s := start { state := .placed, startGrp := true } { waiting := true, ts := some 9, sfLine := true }
     s.dev.start.ts ≠ none ∧ s.dev.start.sfLine = true) ∧ (start {} { waiting := true, ts := some 9 }).dev.start.sfLine = false ∧
    (let d := { (start {} { waiting := true }).dev with ops := [{ dop := 0x12, b := 5 }] }
     ∃ y ∈ d.releases, y.b ≠ 0) ∧
    (let s := start {} { waiting := true, th := some 5 } ring3
     s.dev.start.th ≠ none ∧ s.dev.start.ts = none ∧ s.dev.startMaster = false) ∧
    (start {} {}).dev.drivesFault = false ∧ sealed0.dev.drivesFault = true ∧ Allowed .pf0 (start {} {}) ∧
    (start {} {}).dev.boot.phase = .running := by
  and_intros <;> first | decide +kernel | rfl | exact .inl rfl | exact posts _ rfl rfl rfl rfl rfl rfl rfl rfl

/-! ## Witnesses: Norak -/

/-- A port and its keys. -/
def port (n : Nat) (y : RingPort) (k : NkPort) (r : Ring := {}) : State := on fun d =>
  { d with ring := { r with ports := (n, y) :: r.ports }, ime := { d.ime with ports := [(n, k)] } }

/-- A Finished MAC that is not the one expected. -/
theorem other_mac (x : BitVec 384) : x + 1 ≠ x := by
  intro h
  simp at h

/-- A hello. -/
def hello : Hello := { serial := 7, random := 0, ecdh := [], kem := [] }

/-- Whether the chain and the signatures of an AUTH verify is the certified algorithms' (log 14); an AUTH whose chain does not
verify and one whose chain does are told apart by `authCause` alone. -/
theorem witness_NorakLinkAndKeys : Up (port 3 { state := .training } {}) ∧ ((port 3 { state := .training } {}).dev.rport 3).state = .training ∧
    ((port 3 {} {}).dev.rport 3).state = .down ∧ ((port 3 {} {}).dev.rport 3).state ≠ .training ∧
    (port 1 {} {} ring3).dev.mayTrain 1 = true ∧ ((port 1 { state := .up } {} ring3).dev.rport 1).state = .up ∧
    ((port 3 { state := .sealing } {}).dev.rport 3).state = .sealing ∧ (port 3 { state := .sealing } {}).dev.mayTrain 3 = false ∧
    ((port 0 {} { state := .handshake }).dev.nk 0).state = .handshake ∧ ((port 0 {} { state := .handshake }).dev.nk 0).helloI = none ∧
    (let k := (port 1 {} { state := .handshake, helloI := some hello }).dev.nk 1
     k.helloI ≠ none ∧ k.helloR = none) ∧
    (let k := (port 1 {} { state := .handshake, helloI := some hello, helloR := some hello }).dev.nk 1
     k.helloI = some hello ∧ k.helloR = some hello ∧ k.authPeer = none) ∧
    (∀ m, authCause {} 0 1 hello hello m = none ∨ ∃ c, authCause {} 0 1 hello hello m = some c) ∧
    (let s := port 2 {} { state := .handshake, helloI := some hello, helloR := some hello, authPeer := some { chain := [], rsa := [], slh := [] } }
     (s.dev.nk 2).authPeer = some { chain := [], rsa := [], slh := [] } ∧ (s.dev.rport 2).retry = [] ∧ (s.dev.rport 2).txq = []) ∧
    ((port 3 {} {}).dev.nk 3).state ≠ .handshake ∧
    (let s := port 3 { state := .sealing } { state := .retryWait }
     (s.dev.nk 3).state = .retryWait ∧ (s.dev.rport 3).state = .sealing) ∧
    (let k := (port 3 {} { state := .sealed, tx := some 0 }).dev.nk 3
     k.state = .sealed ∧ k.tx = some 0) := by
  and_intros <;> first | decide +kernel | rfl |
    (intro m; cases authCause {} 0 1 hello hello m with | none => exact .inl rfl | some c => exact .inr ⟨c, rfl⟩)

/-- Partition 1 in a cut group, with one inbound binding of position 0. -/
def cut (q : Part) (r : Ring := ring3) : State := { port 0 { state := .up } { state := .sealed, rx := some 0 } r with
  dev := { (port 0 { state := .up } { state := .sealed, rx := some 0 } r).dev with parts := [(1, { q with cut := true })] } }

theorem witness_opens : (∃ w l, Opens (cut {}).dev 0 { type := 1, dst := 1, dpart := 1 } w l) ∧
    ∃ w l, Opens (start { state := .placed, startGrp := true } { waiting := true, hold := false } ring3).dev 0 { type := 2 } w l :=
  ⟨⟨_, _, opens0 _ _ _ ⟨by decide, rfl, rfl, rfl, rfl⟩ rfl⟩, ⟨_, _, opens0 _ _ _ ⟨by decide, rfl, rfl, rfl, rfl⟩ rfl⟩⟩

theorem witness_NorakFrames : Up (ctl 0x201 0 {}) ∧ (∀ dop r a b p, CanPost (ctl 0x201 0 {}).dev (issued 0) dop r a b p 0) ∧
    (0x201 : Word).toNat = 0x200 + 1 ∧ ((ctl 0x201 0 {}).dev.part 1).exp = 0 ∧ ((ctl 0x201 0 { exp := 1 }).dev.part 1).exp ≠ 0 ∧
    (cut {} { ring3 with circulating := true }).dev.ring.circulating = true ∧ (ctl 0x201 0 {}).dev.ring.circulating = false ∧
    (ctl 0x201 0 {}).dev.onRing = false ∧ (ctl 0x201 0 {}).dev.ring.position < 64 ∧
    (let s := port 3 { state := .up, retry := [{ lfn := 4095 }] } {}
     (s.dev.rport 3).txq = [] ∧ ∃ g ∈ (s.dev.rport 3).retry, g.lfn = 4095) ∧
    Up (cut {}) ∧ InOrder (cut {}).dev 0 { type := 1, dst := 1, dpart := 1 } ∧
    (port 0 { state := .up } { state := .sealed } ring3).dev.nk 0 = { state := .sealed } ∧
    (∀ f tag now, f.epoch = false → ({ state := .sealed } : NkPort).opens f tag now = none) ∧ (cut {}).dev.goesOn { dst := 1 } = false ∧
    ((cut {}).dev.nk 0).txSeq + 1 ≤ 2 ^ 32 ∧ (cut {}).dev.ring.position = 1 ∧ ((cut {}).dev.part 1).cut = true ∧
    ((cut {}).dev.part 64).cut = false ∧ (1 : BitVec 8) ≠ ((cut {}).dev.part 1).gen ∧ (cut {}).dev.inSet 1 { type := 1, dst := 1, dpart := 1 } = false ∧
    ((cut { state := .running }).dev.part 1).eng.faults = [] ∧ (5 : BitVec 64) ≠ ((cut {}).dev.part 1).cycle + 1 ∧ 0 ≠ (cut {}).dev.ring.position ∧
    (∀ p < 65, (cut {}).dev.censusStatus p ≠ 2) ∧ (cut {} { ring3 with circulating := true }).dev.ring.waiters = [] ∧
    frameOk { type := 6 } = false ∧ ((cut {}).dev.nk 0).fails = [] ∧
    (let d := (port 1 { state := .up } {} { ring3 with position := 0, ports := [] }).dev
     d.feat 6 = true ∧ d.ring.auto = true ∧ d.onRing = true ∧ d.ring.position = 0 ∧ 1 < d.ring.size ∧ d.canCarry 0 true = true ∧
     (d.rport 1).retry.length < 256) ∧ (cut {}).dev.onRing = true ∧
    (cut {} { ring3 with locked := false }).dev.ring.locked = false := by
  and_intros <;> first | decide +kernel | exact posts _ rfl rfl rfl rfl rfl rfl rfl rfl |
    (intro f tag now h; rw [opens_same_epoch _ _ _ _ h]; rfl) | rfl

/-! ## Witnesses: keys -/

/-- A KeyID 63 as given. -/
def key63 (k : KeyId) : State := on fun d =>
  { d.updThr 0 fun _ => { state := .run, regs := [(1, 0x3F00)] } with ime := { d.ime with keyids := [(63, k)] } }

theorem witness_KeysAndRetirement : Up (blk 0x13F00 96 0 {}) ∧ (∀ dop r a b p, CanPost (blk 0x13F00 96 0 {}).dev (issued 0) dop r a b p 0) ∧
    (fetched (blk 0x13F00 96 0 {}).dev (issued 0)).mayStore 0 0x1000 80 = true ∧ (0x13F00 : Word).toNat = 0x10000 + 256 * 63 ∧
    (boot { phase := .running }).dev.boot.locked = false ∧ (blk 0x13F00 96 0 {}).dev.boot.locked = true ∧
    (blk 0x13F00 96 0 {}).dev.memoryKeyFault 63 (leBytes 96 0) = none ∧ (blk 0x13F00 96 0 {}).dev.memoryKeyFault 0 (leBytes 96 0) = some (0x0913, badA) ∧
    (blk 0x13F00 96 2 {}).dev.memoryKeyFault 63 (leBytes 96 2) = none ∧ (blk 0x13F00 96 2 {}).dev.metaReady = true ∧
    ((blk 0x20001 96 0 { state := .blank }).dev.part 1).state ≠ .none ∧ ((blk 0x20001 96 0 {}).dev.part 1).state = .none ∧
    (key63 { state := .active }).dev.keyid 63 = { state := .active } ∧ (key63 { state := .active }).dev.inSomeSet 63 = false ∧
    (∀ dop r a b p, CanPost (key63 { state := .active }).dev (issued 0) dop r a b p 0) ∧
    (let d := { (key63 { state := .active }).dev with parts := [(1, { state := .blank, keys := [63] })] }
     d.inSomeSet 63 = true) ∧
    ((key63 { state := .retired }).dev.keyid 63).state = .retired ∧ ((key63 {}).dev.keyid 63).state ≠ .retired ∧
    Up (key63 { state := .retiring }) ∧ ((key63 { state := .retiring }).dev.keyid 63).state = .retiring ∧
    ((key63 { state := .retiring }).dev.keyid 63).drained = false ∧ ((key63 { state := .retiring, drained := true }).dev.keyid 63).drained = true ∧
    (key63 {}).dev.rst.svc = none ∧ (key63 {}).dev.ime.sealed = false := by
  and_intros <;> first | decide +kernel | rfl | exact posts _ rfl rfl rfl rfl rfl rfl rfl rfl
/-! ## Witnesses: management operations -/

/-- A signed readout of T0 that waits. -/
def readout : State := on fun d => { d with ops := [{ dop := 0x17, a := 0x101 }], mtr := { d.mtr with rxTime := some 0, form1 := some 5 } }

theorem witness_ManagementOperations : Up (ctl 0xF0000001 9 {}) ∧ (∀ dop r a b p, CanPost (ctl 0xF0000001 9 {}).dev (issued 0) dop r a b p 0) ∧
    0xF0000001#64 &&& 0xFFFFF8C00000FF80 = 0 ∧ (0xF0000001 : Word).toNat / 2 ^ 16 % 2 ^ 16 = 0xF000 ∧
    (0x30F0000001 : Word).toNat / 2 ^ 32 % 2 ^ 6 = 48 ∧ (0x10F0000001 : Word).toNat / 2 ^ 16 % 2 ^ 16 = 0xF000 ∧
    (0x0F0000001 : Word).toNat / 2 ^ 40 % 2 ^ 3 ≠ 1 ∧ (0x100EFFF0001 : Word).toNat / 2 ^ 16 % 2 ^ 16 < 0xF000 ∧
    ((after (ctl 0xF0000001 9 {}) 0x15).evt.pf.prod + 1) % 4096 ≠ (after (ctl 0xF0000001 9 {}) 0x15).evt.pf.cons % 4096 ∧
    (fetched (ctl 0 0x1000 {}).dev (issued 0)).mayStore 0 0x1000 16864 = true ∧
    (∀ dop r a b p, CanPost (ctl 0x101 0x1000 {}).dev (issued 0) dop r a b p 0) ∧ (0x101 : Word).toNat = 0x100 + 1 ∧
    (ctl 1 0x1000 {}).dev.mtr.rxTime = none ∧ readout.dev.mtr.rxTime = some 0 ∧ (ctl 1 0x1000 {}).dev.mtr.form1 = none ∧
    ((5 : BitVec 56).toNat + 15000000000 - readout.dev.evt.time.toNat + 249999999) / 250000000 ≠ 0 ∧
    ((5 : BitVec 56).toNat + 15000000000 - 15000000005 + 249999999) / 250000000 = 0 ∧ Up readout ∧
    readout.dev.op 0 0 = some { dop := 0x17, a := 0x101 } ∧ up.dev.op 64 15 = none ∧ Allowed .pf0 up := by
  and_intros <;> first | decide +kernel | rfl | exact .inl rfl | exact posts _ rfl rfl rfl rfl rfl rfl rfl rfl

/-- Bytes of a partition block: 480 plots, form 3 contexts, 720 units of marl, every bank; every attribute selected. -/
def part480 : Nat := 480 + 3 * 2 ^ 16 + 0x1FF * 2 ^ 32 + 720 * 2 ^ 128 + 0x3FFFF * 2 ^ 160

theorem witness_PartitionsAndGrants : Up (blk 0x101 48 part480 {}) ∧
    (∀ dop r a b p, CanPost (blk 0x101 48 part480 {}).dev (issued 0) dop r a b p 0) ∧
    (blk 0x101 48 part480 {}).dev.boot.locked = true ∧ (fetched (blk 0x101 48 part480 {}).dev (issued 0)).mayStore 0 0x1000 48 = true ∧
    ((blk 0x101 48 part480 {}).dev.part 1).state = .none ∧ ((blk 0x101 48 part480 { state := .blank }).dev.part 1).state ≠ .none ∧
    ((blk 0x101 48 part480 { state := .blank }).dev.part 1).mayChange 0x1FF = true ∧
    ((blk 0x101 48 part480 { state := .running }).dev.part 1).mayChange 0x1FF = false ∧
    partFault (leBytes 48 part480) (partArgs (leBytes 48 part480) true) true = none ∧
    partFault (leBytes 48 0) (partArgs (leBytes 48 0) true) true = some 0 ∧
    (after (blk 0x101 48 2 {}) 0x19).partShort 1 (partArgs (leBytes 48 2) true) = none ∧
    (after (blk 0x101 48 2 {}) 0x19).partShort 1 (partArgs (leBytes 48 (2 + 63 * 2 ^ 64)) true) = some (0x0914, 2 ^ 24 + 63) ∧
    (0x301 : Word).toNat = 0x300 + 1 ∧ ((ctl 0x301 0 { state := .halted }).dev.part 1).sealHalted = false ∧
    ((ctl 0x301 0 { state := .running }).dev.part 1).state ≠ .blank ∧ (0x401 : Word).toNat = 0x400 + 1 ∧
    ((ctl 0x401 0 { state := .blank }).dev.part 1).placement = none ∧
    (blk 1 32 (2 ^ 48) {}).dev.feat 7 = true ∧ (fetched (blk 1 32 0 {}).dev (issued 0)).mayLoad 0 0x1000 32 = true ∧
    cgetBytes (blk 1 32 0 {}).dev.mem.cells (seqAddr 0x1000) 32 = some (leBytes 32 0) ∧
    (blk 1 32 0 { state := .blank }).dev.grantFault 1 (leBytes 32 0) = none ∧
    (blk 1 32 0 { state := .blank }).dev.grantFault 1 (leBytes 32 (2 * 2 ^ 48)) = some 6 ∧
    (blk 1 32 0 { state := .blank, keys := [5], marl := some (0x020100000000, 0x40000000) }).dev.grantFault 1
      (leBytes 32 (2 ^ 48 + 0x020100000000 * 2 ^ 64 + 0x40000000 * 2 ^ 128)) = none ∧
    Intact (fetched (blk 0x101 48 part480 {}).dev (issued 0)) ∧ Intact (blk 1 32 0 {}).dev ∧ (issued 0).fetch = .clean ∧
    OwnTickets (blk 1 32 0 {}).dev 0x18 ∧ ¬ DrainFn.icp 1 ∈ (blk 1 32 0 {}).dev.noc.draining ∧ ((blk 1 32 0 { grant := some {} }).dev.part 1).grant ≠ none := by
  and_intros <;> first | decide +kernel | rfl | exact fun _ h => (List.not_mem_nil h).elim | exact posts _ rfl rfl rfl rfl rfl rfl rfl rfl

/-! ## Witnesses: live swaps and the configuration port -/

/-- T0 with a swap at a step; the container at hand starts with twelve zero bytes. -/
def swap (n : BitVec 4) (f : Dev → Dev := id) : State :=
  let s := ctl 0 0x020100000000 {} (bytesAt 0x020100000000 12 0)
  let d := { s.dev with seq := { s.dev.seq with swap := n, swapAddr := 0x020100000000 } }
  { s with dev := f d }

/-- A staged container that lists one section of type 2, its manifest at 0x40. -/
def staged1 : State :=
  let l := bytesAt stagingBase 144 (0x40 * 2 ^ 160 + 80 * 2 ^ 192 + 2 ^ 560 + 2 * 2 ^ 640)
  swap 3 fun d => { d with mem := { d.mem with cells := l } }

/-- A container that passes every check would carry the certified algorithms' signatures (log 14). -/
theorem witness_LiveSwap : Up (swap 0) ∧ (∀ dop r a b p, CanPost (swap 0).dev (issued 0) dop r a b p 0) ∧ (swap 0).dev.startAddrOk 0 0x020100000000 false = true ∧
    (boot { phase := .running }).dev.boot.locked = false ∧ (swap 0).dev.boot.locked = true ∧ (swap 0).dev.feat 9 = true ∧ (swap 6).dev.seq.swap ≠ 0 ∧
    (swap 0 fun d => { d with boot := { d.boot with drv0 := 0 } }).dev.feat 9 = false ∧
    (let d := (swap 0 fun d => d.updThr 0 fun t => { t with slots := [(15, { busy := true })] }).dev
     ∃ j < 16, j ≠ 0 ∧ ((d.thr 0).slot j).busy = true) ∧ ¬ (∃ j < 16, j ≠ 0 ∧ (((swap 0).dev.thr 0).slot j).busy = true) ∧
    (let d := (swap 1).dev
     let n := min 0x800000 (max 256 (leNat (d.memRead 0 (0x020100000000 + 8) 4)))
     n = 256 ∧ d.mayAccess 0 0x020100000000 256 true = true ∧ 0x020100000000 + 256 ≤ marlEnd ∧ (d.keyid 0).mode ≠ .verified ∧ Intact d ∧
     d.op 0 d.seq.swapSlot = none ∧ d.refuse 0 0 0x020100000000 256 false = none ∧
     (let new := ((d.memWrite 0 stagingBase (d.memRead 0 0x020100000000 256)).draw 256).staged 256
      up.fuse.checkFirmware new (fwLen new) = some (0x0A04, 0))) ∧
    (swap 2).dev.plc.search = none ∧ (∀ n < 65, ((swap 2).dev.thr n).inAccess = false) ∧
    (∀ o ∈ (swap 3).dev.ops, o.phase ≠ .queued) ∧ (swap 3).dev.allHeld = true ∧
    (swap 3 fun d => { d with parts := [(64, { state := .running })] }).dev.allHeld = false ∧
    (let img := staged1.dev.staged 0x800000
     ((fwSecs img).filter fun y => decide (y.type = 2)).map (fun y => (y.type, y.target, y.off, y.len)) = [(2, 0, 0, 0)]) ∧
    (swap 4).dev.seq.swap = 4 := by
  and_intros <;> first | decide +kernel | rfl | exact posts _ rfl rfl rfl rfl rfl rfl rfl rfl

/-- Partition 1 with a grant of its one logical plot, on plot 9. -/
def granted (st : PState) (y : Plot) (icp : List IcpReq := []) : State := on fun d =>
  { d with parts := [(1, { state := st, plots := 1, placement := some { map := [9] }, grant := some { len := 0x1000, ctxMask := 1, base := 0x020100000000 } })],
           fab := { d.fab with plots := [(9, y)] }, icp := icp, mem := { d.mem with cells := bytesAt 0x020100000000 128 0 } }

/-- A WRITE request of one frame, and a REJOIN request. -/
def icpMsg (write : Bool) : List (BitVec 8) := leBytes 64 (if write then 1 + 2 ^ 64 else 2)

/-- A WRITE in progress. -/
def icp1 : IcpReq := { part := 1, tag := 7, plot := 0, count := 1, addr := 0x020100000000 }

theorem witness_ConfigurationPort : Up (granted .running {}) ∧ ((granted .running {}).dev.part 1).state ≠ .none ∧
    ((granted .running {}).dev.arb 48 65).quar = false ∧ (granted .running {}).dev.icpRefused 1 [] = some 9 ∧
    field (icpMsg true) 0 1 ≠ 2 ∧ field (icpMsg false) 0 1 ≠ 1 ∧ (granted .running {}).dev.icpRefused 1 (icpMsg true) = none ∧
    (granted .running {}).dev.physical 1 0 = some 9 ∧ ((granted .running {}).dev.part 1).grant.isSome = true ∧ field (icpMsg true) 0 1 = 1 ∧
    (granted .running {}).dev.icpRefused 1 (icpMsg false) = none ∧ field (icpMsg false) 0 1 = 2 ∧
    ((granted .running {}).dev.plot 9).icpLoading = false ∧
    (let s := granted .running { state := .loading, icpLoading := true }
     s.dev.icpRefused 1 (icpMsg false) = none ∧ (s.dev.plot 9).icpLoading = true) ∧
    (let s := granted .frozen { state := .loading, icpLoading := true }
     s.dev.icpRefused 1 (icpMsg false) = none ∧ (s.dev.plot 9).logical = 0 ∧ s.dev.icpBusy 1 0 = false) ∧
    (let s := granted .running { state := .loading, icpLoading := true } [icp1]
     (s.dev.icp.find? fun r => decide (r.part = 1) && decide (r.tag = 7) && decide (r.count ≠ 0)) = some icp1 ∧
     s.dev.refuse 0 0 0x020100000000 2048 false = none ∧ (s.dev.keyid 0).mode ≠ .verified ∧ Intact s.dev ∧
     (let l := s.dev.memRead 0 0x020100000000 2048
      ({ map := [9] : Placement }).frameBad 0 0 0 ((l.drop 0).take 2048) = false ∧
      ({ map := [9], pairs := [{ p := 0, q := 1, lanes := [1] }] : Placement }).frameBad 0 0 0 ((l.drop 0).take 2048) = true)) := by
  and_intros <;> first | decide +kernel | rfl

/-! ## Witnesses: memory units -/

/-- A module. -/
def dimm (gib : Nat) (tds : Bool) : Module := { gib := gib, rdimm := true, tds := tds, wide := true, org := 0 }

/-- Channels and towers as given. -/
def dram (c : Tab Chan) (t : Tab Tower) (k : Tab KeepReg := []) : State := on fun d =>
  { d with mem := { d.mem with chans := c, towers := t }, keep := { d.keep with regs := k } }

theorem witness_MemoryTrainingAndUpkeep : Up (dram [] []) ∧ (dram [] []).dev.feat 14 = true ∧ ((dram [] []).dev.chan 7).state = .absent ∧
    (dram [] [] [(16, { value := 9 * 2 ^ 28 + 7 })]).dev.excluded 7 = true ∧ (dram [] []).dev.excluded 7 = false ∧
    (∀ y ∈ [dimm 128 false, dimm 128 false], y.rdimm = true ∧ y.wide = true ∧ y.gib ≤ 128) ∧
    (∀ y ∈ [dimm 128 false, dimm 128 false], ∀ z ∈ [dimm 128 false, dimm 128 false], y.org = z.org ∧ y.tds = z.tds) ∧
    ¬ (∀ y ∈ [dimm 256 false], y.rdimm = true ∧ y.wide = true ∧ y.gib ≤ 128) ∧
    ((dram [(7, { state := .training })] []).dev.chan 7).state = .training ∧ ((dram [(7, { state := .active })] []).dev.chan 7).state ≠ .absent ∧
    ((dram [] [(3, { state := .training })]).dev.tower 3).state = .training ∧ ((dram [] []).dev.tower 3).state ≠ .training ∧ ((dram [] [(3, { state := .failed })]).dev.tower 3).state ≠ .active ∧
    bits (3 * 2 ^ 26 + 1 : BitVec 28).toNat 26 2 = 3 ∧ (dram [] []).dev.bumpTaken (7 * 2 ^ 28 + 3 * 2 ^ 26 + 1) = false ∧
    (dram [] [] [(16, { value := BitVec.ofNat 32 (7 * 2 ^ 28 + 3 * 2 ^ 26) })]).dev.bumpTaken (7 * 2 ^ 28 + 3 * 2 ^ 26 + 1) = true ∧
    (∀ y ∈ (dram [] []).dev.repairs, y.2 ≠ 7 * 2 ^ 28 + 3 * 2 ^ 26 + 1) ∧ (dram [] []).dev.keepVal 16 = 0 ∧
    (∀ j < 16, 16 ≤ j → (dram [] []).dev.keepVal j ≠ 0) ∧ ((dram [] []).dev.keepReg 16).wcount < 100000 ∧
    (let s := dram [(7, { state := .active, mapped := true })] []
     s.dev.feat 4 = true ∧ (s.dev.chan 7).mapped = true ∧ (s.dev.chan 7).metaReady = false ∧
     (∀ b < 8, b ≠ 7 → (s.dev.chan b).mapped = true → (s.dev.chan b).metaReady = true) ∧ ∀ o ∈ s.dev.ops, o.phase ≠ .queued) ∧
    (let s := dram [(0, { mapped := true }), (7, { state := .active, mapped := true })] []
     ∃ b, b < 8 ∧ b ≠ 7 ∧ (s.dev.chan b).mapped = true ∧ (s.dev.chan b).metaReady = false) ∧
    (dram [] [(3, { state := .active })]).dev.unitActive 3 = true ∧ (dram [] []).dev.unitActive 3 = false ∧ (dram [(7, { state := .active })] []).dev.unitActive 11 = true ∧ (dram [] []).dev.unitActive 11 = false ∧
    (dram [] [(0, { pause := true })]).dev.inPause 0 = true ∧ (dram [] []).dev.inPause 11 = false := by
  and_intros <;> first | decide +kernel | rfl
/-! ## Witnesses: ring stops, drains, arbiters -/

/-- One ring stop as given and what drains. -/
def net (n : Nat) (x : NocStop) (l : List DrainFn := []) (f : Dev → Dev := id) : State := on fun d =>
  f { d with noc := { d.noc with stops := [(n, x)], draining := l } }

/-- An operation of partition 1's DMA, and a revoking grant of it. -/
def dmaOp : Op := { dop := 0x0E, part := 1 }

def revoke : Op := { dop := 0x18, part := 1, phase := .run }

/-- With one operation outstanding, whoever shares its ticket is that operation. -/
theorem own_single (d : Dev) (o : Op) (dop : Nat) (h : d.ops = [o]) (k : o.dop = dop) : OwnTickets d dop := by
  intro y _ z hz _ _ _
  rw [h] at hz
  exact List.mem_singleton.1 hz ▸ k

theorem witness_StopsDrainAndSwitchOff : Allowed .pf0 (net 4 {}) ∧ (net 4 {}).dev.rst.svc = none ∧ ((net 16 {}).dev.stop 16).state = .on ∧
    (∀ k ∈ List.range 512, loamStop k = 32 → ((net 32 {}).dev.plot k).state = .free) ∧ ((net 32 {}).dev.stop 32).state = .on ∧
    ((net 17 {} [] fun d => { d with fab := { d.fab with plots := [(1, { state := .ready })] } }).dev.plot 1).state = .ready ∧ loamStop 1 = 17 ∧
    ((net 4 { state := .drained }).dev.stop 4).state = .drained ∧ ((net 12 { state := .fenced }).dev.stop 12).state = .fenced ∧
    ((net 16 { state := .off }).dev.stop 16).state = .off ∧ ((net 12 { state := .draining }).dev.stop 12).state = .draining ∧
    (4 ≤ 4 ∧ 32 ≤ 32 ∧ 3 < 4 ∧ 32 < 33) ∧ Up (net 5 { state := .drained, offReq := true }) ∧
    ((net 5 { state := .drained, offReq := true }).dev.stop 5).offReq = true ∧ ((net 16 { state := .drained, offReq := true }).dev.stop 16).offReq = true ∧
    ((net 5 { state := .draining, offReq := true }).dev.stop 5).state ≠ .drained ∧
    DrainFn.stop 5 ∉ (net 5 {}).dev.noc.draining ∧ DrainFn.stop 5 ∈ (net 5 { state := .draining } [.stop 5]).dev.noc.draining ∧
    (net 5 { state := .draining } [.stop 5] fun d => { d with rst := { d.rst with svc := some .fenced } }).dev.rst.svc ≠ none ∧
    (∀ j < 4, ((net 5 {} [.ring 1]).dev.rport j).txq = [] ∧ ((net 5 {} [.ring 1]).dev.rport j).retry = []) ∧
    (let s := net 5 {} [.ring 1] fun d => { d with ring := { d.ring with ports := [(3, { txq := [{ type := 2 }] })] } }
     3 / 2 = 1 ∧ (s.dev.rport 3).txq ≠ []) ∧
    ((net 5 {} [.icp 64]).dev.part 64).state ≠ .draining ∧ (∀ r ∈ (net 5 {} [.icp 64]).dev.icp, r.part ≠ 64) ∧
    (∀ o ∈ (net 5 {} [.icp 64]).dev.ops, isRevoke 64 o = false) ∧
    (net 5 {} [.icp 1] fun d => { d with ops := [revoke] }).dev.ops.filter (isRevoke 1) = [revoke] ∧
    OwnTickets (net 5 {} [.icp 1] fun d => { d with ops := [revoke] }).dev 0x18 ∧
    OwnTickets (net 5 {} [.dma 1] fun d => { d with ops := [dmaOp] }).dev 0x0E ∧
    (∀ o ∈ (net 5 {} [.vf 1]).dev.ops, o.dop = 0x0E → o.part ≠ 1) ∧ (dmaOp.dop = 0x0E ∧ dmaOp.part = 1) ∧
    ((net 5 {} [.dma 1] fun d => { d with ops := [dmaOp] }).dev.ops.filter fun y => decide (y.dop = 0x0E) && decide (y.part = 1)) = [dmaOp] ∧
    (let s := net 5 {} [.vf 1] fun d => { d with parts := [(1, { state := .draining, drainTo := 2 })] }
     (s.dev.part 1).state = .draining ∧ (s.dev.part 1).drainTo = 2 ∧
     ∀ g ∈ s.dev.noc.draining, g ≠ .vf 1 → g ≠ .dma 1 ∧ g ≠ .vf 1 ∧ g ≠ .icp 1) := by
  and_intros <;> first | decide +kernel | rfl | exact own_single _ _ _ rfl rfl | exact .inl rfl

/-- A device with a running partition, an operation outstanding, and the event queue empty. -/
def busy1 : State := on fun d => { d with
  parts := [(1, { state := .running })]
  fab := { d.fab with plots := [(5, { part := 1, state := .running })] }
  ops := [{ thread := 64, slot := 15, dop := 2 }]
  seq := { d.seq with threads := [(64, { state := .wait, slots := [(15, { busy := true })] })] } }

theorem witness_SealHaltAndSideband : Allowed .pf0 busy1 ∧ busy1.dev.rst.svc = none ∧ (0x5B : BitVec 8) ≠ 0x5A ∧ (busy1.dev.part 1).state ≠ .none ∧
    (busy1.dev.part 2).state = .none ∧ 5 ∈ busy1.dev.plotsOf 1 ∧ (∃ o ∈ busy1.dev.ops, o.thread ≤ 64 ∧ ((busy1.dev.thr o.thread).slot o.slot).busy = true ∧
      ((busy1.dev.thr o.thread).slot o.slot).done = none) ∧
    (busy1.dev.evt.pf.prod + 1) % 4096 ≠ busy1.dev.evt.pf.cons % 4096 ∧ busy1.dev.evt.pf.prod < 4096 ∧
    Up sealed0 ∧ sealed0.dev.ime.sealed = true ∧ (3 < 4 ∧ 39 < 40 ∧ 2 ≤ 2) ∧ (busy1.dev.part 1).state = .running ∧ (busy1.dev.part 1).eng.faults = [] ∧
    (∀ p < 65, (up.dev.part p).state ≠ .running) := by
  and_intros <;> first | decide +kernel | rfl | exact .inl rfl

/-- A request of stop 7 for channel 0, one flit of which is still to be placed. -/
def fronted : Header × Nat := ({ src := 7 }, 1)

/-- One requester of an arbiter as given. -/
def arb (i r : Nat) (x : ArbPri) (f : Dev → Dev := id) : State := on fun d => f { d with noc := { d.noc with pri := [(256 * i + r, x)] } }

theorem witness_ArbitersAndStatistics : Up (arb 0 65 {}) ∧ (65 < arbReqs 0 ∧ 64 < arbReqs 1 ∧ 40 < arbReqs 47) ∧
    ((arb 0 65 {}).dev.arbCfg 0).holder ≠ some 65 ∧
    ((arb 0 65 {} fun d => { d with noc := { d.noc with cfg := [(0, { holder := some 65 })] } }).dev.arbCfg 0).holder = some 65 ∧
    (∀ y ∈ (arb 40 7 {}).dev.noc.frontLeft, y.1 = 40 - 40 → y.2.1.src ≠ 7) ∧
    (arb 40 7 {} fun d => { d with noc := { d.noc with frontLeft := [(0, fronted)] } }).dev.noc.frontLeft = [(40 - 40, fronted)] ∧ fronted.1.src = 7 ∧ ((arb 0 65 {}).dev.arb 0 65).quar = false ∧
    (70 < arbReqs 49 ∧ 65 ≤ 70) ∧ (0 < arbReqs 48 ∧ (arb 48 0 {}).dev.plc.migs = []) ∧ (128 < arbReqs 48 ∧ (∀ y ∈ (arb 48 128 {}).dev.icp, y.part ≠ 64)) ∧
    ((arb 49 64 {}).dev.rowMoveOp 64 = none) ∧
    (let s := arb 49 0 {} fun d => { d with ops := [{ dop := 0x0A, part := 1 }] }
     s.dev.rowMoveOp 0 = some { dop := 0x0A, part := 1 } ∧ s.dev.op 0 0 = some { dop := 0x0A, part := 1 }) ∧
    (64 < arbReqs 48 ∧ 1 ≤ 64) ∧ 64 < arbReqs 50 ∧ (arbReqs 50 ≤ 65 ∧ arbReqs 37 = 0 ∧ arbReqs 51 = 0) ∧
    ((arb 0 65 { quar := true }).dev.arb 0 65).quar = true ∧ Allowed .pf0 (arb 0 65 { quar := true }) ∧ Allowed (.thread 0) (arb 0 65 {}) ∧
    (arb 0 65 {}).dev.rst.svc = none := by
  and_intros <;> first | decide +kernel | rfl | exact .inl rfl | exact .inr rfl

/-! ## Witnesses: rings -/

/-- Ring B in a state. -/
def ringB (x : RingCtl) (f : Ring → Ring := id) : State := on fun d => { d with ring := f { d.ring with ctlB := x } }

theorem witness_RingRegisters : Allowed .pf0 (ringB { state := .on }) ∧ (ringB {}).dev.rst.svc = none ∧ ((ringB { state := .on }).dev.rctl 1).state = .on ∧
    ((ringB { state := .drained }).dev.rctl 1).state = .drained ∧ ((ringB { state := .draining }).dev.rctl 1).state = .draining ∧
    (∀ j < 4, ((ringB { state := .draining }).dev.rport j).txq = []) ∧ ((ringB {}).dev.rctl 1).state = .off ∧
    ((ringB { state := .fenced }).dev.rctl 1).state = .fenced ∧
    (let s := ringB {} fun r => { r with enB := true, bypassed := false }
     s.dev.feat 5 = true ∧ s.dev.ring.enB = true ∧ s.dev.ring.bypassed = false) ∧ (ringB {}).dev.ring.enB = false ∧
    ((up.dev.part 64).placement = none ∧ (busy1.dev.part 1).state = .running ∧ (up.dev.part 64).state ≠ .running) ∧
    ((ctl 1 0 (shot .placed)).dev.part 1).placement ≠ none := by
  and_intros <;> first | decide +kernel | rfl | exact .inl rfl

/-- A binding of partition 1: slot, block, and whether it is a marker. -/
def cutW (slot block marker : Nat) : BitVec 64 := BitVec.ofNat 64 (2 ^ 63 + marker * 2 ^ 60 + 2 ^ 40 + slot * 2 ^ 24 + block * 2 ^ 10)

/-- Partition 1 takes bindings, its block 0 is free; bindings as given. -/
def cuts (t : Tab (BitVec 64)) (q : Part := { state := .placed, cut := true, placement := some { freeMask := [1] } }) : State := on fun d =>
  { d with ring := { d.ring with cuts := t }, parts := [(1, q)] }

/-- With one entry in the table, no other binding is enabled. -/
theorem one_binding (b j : Nat) (v : BitVec 64) (h : j ≠ b) : (bindingOf (tget [(b, v)] j 0)).en = false := by
  have e : tget [(b, v)] j 0 = 0 := by simp [tget, Ne.symm h]
  rw [e]; decide

theorem witness_CutBindingWrites : Allowed .pf0 (cuts []) ∧ (cuts []).dev.rst.svc = none ∧ 4095 < 4096 ∧
    ((cuts [(0, cutW 0 0 0), (1, cutW 1 1 0)]).dev.ring.cuts.map (·.1)).Nodup ∧ (bindingOf (cutW 0 0 0)).en = true ∧
    (cutW 0 0 0).getLsbD 63 = true ∧ (0 : BitVec 64).getLsbD 63 = false ∧ ((cuts [(0, cutW 0 0 0)] {}).dev.part 1).cut = false ∧
    (let q := (cuts []).dev.part 1
     (bindingOf (cutW 0 0 0)).part = 1 ∧ q.state ≠ .none ∧ q.cut = true ∧ q.placement ≠ none ∧ q.state ≠ .running ∧ q.state ≠ .loading) ∧
    (let x := bindingOf (tget (cuts [(0, cutW 0 0 0), (1, cutW 1 1 0)]).dev.ring.cuts 0 0)
     let y := bindingOf (tget (cuts [(0, cutW 0 0 0), (1, cutW 1 1 0)]).dev.ring.cuts 1 0)
     x.en = true ∧ y.en = true ∧ y.part = x.part ∧ y.inb = x.inb ∧ y.peer = x.peer ∧ y.peerPart = x.peerPart ∧ y.round = x.round ∧
     x.slot < y.slot ∧ x.slot + 1 = y.slot) ∧
    (∀ j, j ≠ 0 → (bindingOf (tget (cuts [(0, cutW 0 0 0)]).dev.ring.cuts j 0)).en = false) ∧
    (bindingOf (tget (cuts []).dev.ring.cuts 4095 0)).en = false ∧ (bindingOf (cutW 1 0 0)).slot ≠ 0 ∧ (bindingOf (cutW 0 0 1)).marker = true ∧
    (bindingOf (cutW 1 0 1)).marker = true ∧ (bindingOf (cutW 1 0 1)).slot ≠ 0 ∧
    (bit (({ freeMask := [1] } : Placement).freeMask.getD 0 0) 0 = true ∧ ((cuts []).dev.part 1).blockTaken 0 0 = false) ∧
    bit (({ freeMask := [1] } : Placement).freeMask.getD 0 0) 1 = false := by
  and_intros <;> first | exact fun j h => one_binding 0 j _ h | decide +kernel | rfl | exact .inl rfl
/-! ## Witnesses: thermal control -/

/-- Thermal state. -/
def heat (x : Thm) (f : Dev → Dev := id) : State := on fun d => f { d with thm := x }

/-- The 37 rails' samples, none missing. -/
def rails : List (Option Nat) := (List.range 37).map fun _ => some 100

/-- Ten milliseconds of history at 0, one sensor at a reading. -/
def rose (n : Nat) (v : Int) : Thm := { hist := List.replicate 101 ([], []), sensors := [(n, { reading := v })] }

theorem witness_ThermalControl : Up (heat {}) ∧ (∀ k < 9, samplePower rails k ≠ none) ∧ samplePower [] 8 = none ∧
    (∀ l ∈ (heat { samples := [rails] }).dev.thm.samples, samplePower l 8 ≠ none) ∧ (∃ l ∈ (heat { samples := [[]] }).dev.thm.samples, samplePower l 8 = none) ∧
    (heat { pfault := [8] }).dev.thm.pfault = [8] ∧ ([some (300 : Int)].getD 367 none = none ∧ [some (300 : Int)].getD 0 none = some 300) ∧
    (heat { trip := true, steps := 9999 }).dev.thm.trip = true ∧ (heat { steps := 9999 }).dev.thm.steps + 1 = 10000 ∧
    ((heat { sensors := [(367, { suspect := true })] }).dev.sensor 367).suspect = true ∧
    ((heat { sensors := [(367, { suspect := true })] }).dev.sensor 367).invalid = false ∧
    ((heat { sensors := [(367, { suspect := true, invalid := true })] }).dev.sensor 367).invalid = true ∧ ((heat {}).dev.sensor 367).suspect = false ∧
    (7 ∈ bandDomains ∧ tget (heat { cellBand := [(7, 1)] }).dev.thm.cellBand 7 0 = 1 ∧ (heat { cellBand := [(7, 1)] }).dev.domainHot 7 ≤ 328) ∧
    (tget (heat { cellBand := [(0, 2)] }).dev.thm.cellBand 0 0 = 2 ∧ 368 < (heat { cellBand := [(0, 2)], sensors := [(271, { control := 369 })] }).dev.domainHot 0) ∧
    3 ∉ bandDomains ∧ ((plateSensors.filter fun k => !((heat {}).dev.sensor k).suspect).map fun k => (k, ((heat {}).dev.sensor k).reading)) ≠ [] ∧
    ((plateSensors.filter fun k => !((heat { sensors := plateSensors.map fun k => (k, { suspect := true }) }).dev.sensor k).suspect).map
      fun k => (k, ((heat {}).dev.sensor k).reading)) = [] ∧
    ((0, 80) ∈ (heat (rose 0 80)).dev.rises 0 ∧ (343, 40) ∈ (heat (rose 343 40)).dev.rises 6) ∧
    (∀ x ∈ (heat (rose 343 40)).dev.rises 6, ¬ 80 ≤ x.2) ∧ (∀ x ∈ (heat (rose 0 39)).dev.rises 7, ¬ 40 ≤ x.2) ∧
    (heat { trip := true } fun d => { d with parts := [(1, { state := .running })] }).dev.parts = [(1, { state := .running })] ∧
    (busy1.dev.part 1).eng.faults = [] ∧ (∀ p < 65, 1 ≤ p → ((heat { trip := true }).dev.part p).state ≠ .running ∧ ((heat { trip := true }).dev.part p).capture = []) ∧
    (let d := (heat { trip := true, sensors := [(0, { reading := 400 })] }).dev
     d.thm.trip = true ∧ (∀ k < 368, (d.sensor k).reading ≤ 400) ∧ ∀ k < 368, tget d.thm.est k 0 < 412) ∧
    (let d := (heat { trip := true, sensors := [(367, { reading := 401 })] }).dev
     (d.sensor 367).suspect = false ∧ 400 < (d.sensor 367).reading) := by
  and_intros <;> first | decide +kernel | rfl

/-! ## Witnesses: scrubbing and repairs -/

/-- Reliability state. -/
def rel (x : Rel) (f : Dev → Dev := id) : State := on fun d => f { d with rel := x }

/-- Physical plot 511 holds logical plot 0 of partition 1, which uses context 0; the recorded digest as given. -/
def scrubbed (v : BitVec 256) (x : Rel := { passOn := true }) : State := rel x fun d =>
  let p : Part := { state := .frozen, plots := 1, digests := [(0, v)] }
  { d with parts := [(1, p)], fab := { d.fab with plots := [(511, { part := 1, logical := 0, state := .frozen })] } }

/-- What a quarter of a stored word reads as once some of its bits have changed. -/
def readStored (d : Dev) (l : CfgLoc) (q : Nat) (c : BitVec 80) : Verdict × BitVec 64 :=
  (d.upsetStored [(l, q, c)]).readQuarter (wordKey l) q

/-- The digest that the plot's configuration has. -/
theorem recorded_matches : (scrubbed ((scrubbed 0).dev.plotDigest 511 1)).dev.recorded 1 511 =
    some ((scrubbed ((scrubbed 0).dev.plotDigest 511 1)).dev.plotDigest 511 (ctxCount ((scrubbed ((scrubbed 0).dev.plotDigest 511 1)).dev.part 1).ctx)) := rfl

theorem witness_ScrubbingAndFallback : Up (rel {}) ∧ (rel {} fun d => { d with clk := { d.clk with stopped := false } }).dev.clocked = true ∧
    (rel {} fun d => { d with clk := { d.clk with stopped := true } }).dev.clocked = false ∧
    ((rel {}).dev.rel.passMs = [0x40, 0x40, 0x40] ∧ (rel {}).dev.rel.digest = [true, true, true]) ∧ (rel { passOn := true }).dev.rel.passOn = true ∧
    (rel { passOn := true }).dev.rel.fallback = [] ∧ (rel { passOn := true }).dev.start.sfScrubEn = false ∧ (rel {}).dev.rel.passOn = false ∧
    (511 ∈ (rel { fallback := [511], retry := [(511, 0)] }).dev.rel.fallback ∧ (511, 0) ∈ (rel { fallback := [511], retry := [(511, 0)] }).dev.rel.retry) ∧
    (511, 1) ∈ (rel { fallback := [511], retry := [(511, 1)] }).dev.rel.retry ∧
    (let d := (scrubbed 0).dev
     (d.plot 511).inDesign = true ∧ (d.plot 511).part = 1 ∧ 0 < ctxCount (d.part 1).ctx ∧ (d.plot 511).logical ∉ (d.part 1).damaged ∧ 511 ∉ d.rel.fallback ∧
     d.fab.kupsets = [] ∧ onTier ⟨511, 7, 1023, 63⟩ = true ∧ (readStored d ⟨511, 7, 1023, 63⟩ 3 1).1 = .corrected ∧
     (readStored d ⟨511, 0, 0, 0⟩ 0 0x15).1 = .uncorrectable) ∧
    (let d := (scrubbed 0 { fallback := [511] }).dev
     511 ∈ d.rel.fallback ∧ d.plotsOf 1 = [511] ∧ d.rel.fallback ≠ []) ∧
    (let d := (scrubbed 0).dev
     (d.part 1).plots ≠ 0 ∧ (d.plotsOf 1).length = (d.part 1).plots ∧ (d.part 1).damaged = [] ∧ d.rel.digestVote = true ∧ d.fab.kupsets = []) ∧
    511 ∈ (rel {}).dev.rel.canaryLost [⟨511, 127, 0, false⟩] ∧ 0 ∉ (rel {}).dev.rel.canaryLost [⟨0, 0, 0, true⟩] ∧
    Allowed .pf0 (rel { fallback := [511] }) ∧ 510 ∉ (rel { fallback := [511] }).dev.rel.fallback := by
  and_intros <;> first | decide +kernel | rfl | exact .inl rfl

/-- Channel 7 as given, from 4 GiB on. -/
def chan7 (x : Chan) (r : Rel := {}) (q : Part := {}) (f : Dev → Dev := id) : State := rel r fun d =>
  f { d with mem := { d.mem with chans := [(7, x)] }, parts := [(1, q)] }

/-- A written line, and what its last word reads as once some bits of it have changed. -/
def lined : State := chan7 {} {} {} fun d => { d with mem := { d.mem with cells := bytesAt 0x020100000000 64 0 } }

def readLine (d : Dev) (a : Nat) (c : BitVec 80) : Verdict := ((d.upset a c).readWord a).1

/-- A spare bank of tower 0 whose first line is written, still to be copied. -/
def sparing : State := rel { copies := [16] } fun d =>
  { d with keep := { d.keep with regs := [(16, { value := 5 * 2 ^ 28 })] }, mem := { d.mem with cells := bytesAt (64 * bankLine (5 * 2 ^ 28) 0) 64 0 } }

/-- A channel of 1 GiB. -/
def gib1 (st : MState) : Chan := { state := st, mapped := true, user := 16, base := 64 }

theorem witness_RepairsPatrolAndVacating : Allowed .pf0 (rel {}) ∧ ((rel {}).dev.plot 511).state = .free ∧ (rel {}).dev.rel.diagBusy = false ∧
    (rel { diagBusy := true }).dev.rel.diagBusy = true ∧ (busy1.dev.plot 5).state ≠ .free ∧ ((chan7 (gib1 .off)).dev.chan 7).state ≠ .active ∧
    (let d := (chan7 (gib1 .active) {} { ddr := some (64 * 2 ^ 26, 64) }).dev
     (d.part 1).ddr = some (64 * 2 ^ 26, 64) ∧ (d.chan 7).state = .active ∧ 64 * 2 ^ 26 < (d.chan 7).base * 2 ^ 26 + (d.chan 7).user * 2 ^ 26) ∧
    (let d := (chan7 (gib1 .active) {} { placement := some { jrnl := some (64 * 2 ^ 26, 64) } }).dev
     (d.part 1).placement = some { jrnl := some (64 * 2 ^ 26, 64) } ∧ ∀ p < 65, (d.part p).ddr = none) ∧
    (let d := (chan7 (gib1 .active) {} {} fun e => { e with ime := { e.ime with granules := [(79, 5)] } }).dev
     (79, 5) ∈ d.ime.granules ∧ (d.chan 7).base ≤ 79 ∧ 79 < (d.chan 7).base + (d.chan 7).user ∧ ∀ p < 65, (d.part p).ddr = none ∧ (d.part p).placement = none) ∧
    (let d := (chan7 (gib1 .active)).dev
     d.ime.granules = [] ∧ (∀ p < 65, (d.part p).ddr = none ∧ (d.part p).placement = none) ∧ (d.stop 12).state = .on) ∧
    ((chan7 (gib1 .off)).dev.chan 7).state = .off ∧ (∀ y ∈ (rel {}).dev.repairs, repairKind y.2 ≠ 3) ∧
    ((rel {}).dev.keepVal 16 = 0 ∧ ((rel {}).dev.keepReg 16).wcount < 100000) ∧ (1023 < 1024 ∧ 15 < 16 ∧ 63 < 64) ∧
    (rel {}).dev.patrolOf (.bram 512 0 0) = none ∧ (rel {}).dev.patrolOf (.line 0x020100000000) = none ∧
    (chan7 {} {} { patrol := true, marl := some (0x020100000000, 64) }).dev.patrolOf (.line 0x02010000003F) =
      some (3, 0x020100000000, 0x20100000, towerStop 0) ∧
    Intact lined.dev ∧ readLine lined.dev 0x020100000038 1 = .corrected ∧ readLine lined.dev 0x020100000000 0x15 = .uncorrectable ∧
    (readCode (rowLoc 0) (codeword (rowLoc 0) 5 ^^^ 1)).1 = .corrected ∧ (readCode (rowLoc 0) (codeword (rowLoc 0) 5 ^^^ 0x15)).1 = .uncorrectable ∧
    (readChanged (locDdr 7 0) 0 1).1 = .corrected ∧ (readChanged (locDdr 7 0) 0 0x15).1 = .uncorrectable ∧
    255 ∉ (rel {}).dev.rel.copies ∧ 16 ∈ sparing.dev.rel.copies ∧ sparing.dev.mem.upsets = [] ∧ sparing.dev.mem.poison = [] ∧
    sparing.dev.keepVal 16 = 5 * 2 ^ 28 ∧ readLine sparing.dev (64 * bankLine (5 * 2 ^ 28) 0) 0x15 = .uncorrectable ∧
    (let d := (chan7 (gib1 .draining) {} {} fun e => { e with noc := { e.noc with stops := [(12, { state := .drained })] } }).dev
     (d.chan 7).state = .draining ∧ (d.stop 12).state = .drained ∧ (d.chan 7).persist = false ∧ ∀ y ∈ d.repairs, y.2 ≠ 9 * 2 ^ 28 + 7) ∧
    ((chan7 { gib1 .draining with persist := true }).dev.chan 7).persist = true ∧
    (let r := (rel { lifePowered := 2592000, lifeC := 2592000, lifeSum := 984960001 }).dev.rel
     2592000 ≤ r.lifePowered ∧ 380 * (r.lifePowered : Int) < r.lifeSum.toInt ∧ r.lifePowered < 10 * (r.lifeC + r.lifeTrip) ∧ r.lifeEvt = none) ∧
    ¬ 2592000 ≤ (rel { lifePowered := 2591999 }).dev.rel.lifePowered := by
  and_intros <;> first | decide +kernel | rfl | exact .inl rfl

/-! ## Witnesses: the meter -/

/-- A meter die and its bridge. -/
def meter (x : MeterDie) (y : Mtr := {}) (f : Dev → Dev := id) : State := { on fun d => f { d with mtr := y } with die := x }

theorem witness_MeterDieMeasuresAndLogs : (meter {}).die.powered = true ∧ (meter { regs := { calFault := true } }).die.regs.calFault = true ∧
    (meter {}).die.regs.calFault = false ∧ (meter {}).die.regs.clockFault = false ∧ (meter { regs := { clockFault := true } }).die.regs.clockFault = true ∧
    100 ≤ (meter { pulse := 100 }).die.pulse ∧ (meter { pulse := 99 }).die.pulse < 100 ∧ (meter { regs := { seconds := 59 } }).die.regs.seconds.toNat % 60 ≠ 0 ∧
    (meter { regs := { seconds := 60 } }).die.regs.seconds.toNat % 60 = 0 ∧ (meter { badCounts := 256 }).die.badCounts ≠ 0 ∧ (meter { wrMinute := 1 }).die.wrMinute ≠ 0 ∧
    (meter { nonce := some 7 }).die.nonce = some 7 ∧ (meter {}).die.nonce = none ∧ ((leBytes 1 5) ≠ [] ∧ (0x21 : Byte) ≠ 0x20 ∧ (0x21 : Byte) ≠ 0x40) ∧
    (32 ≤ (leBytes 32 9).length ∧ 2 ≤ (leBytes 2 9).length) ∧ (meter { ptr := 0x10 }).die.ptr = 0x10 ∧ (meter { ptr := 0x20 }).die.ptr = 0x20 ∧
    (meter {}).die.dynAddr = none ∧ (meter { dynAddr := some 8 }).die.dynAddr ≠ none ∧ (meter { ibiEn := false, rstat := 2 }).die.rstat = 2 ∧
    (meter { powered := false }).die.powered = false ∧ (meter { powered := false }).die.store.log.length + 3 ≤ 1024 := by
  and_intros <;> first | decide +kernel | rfl

/-- A good count frame. -/
def frame64 : CountFrame := { type := 1, part := 64, seq := 9, dcyc := 3, plotms := 4 }

/-- The bits of a value frame that change its first byte and its CRC to match. -/
def forged : List (Nat × Byte) :=
  let f := (meter {}).die.valueFrame
  let x := crc32c (f.take valueLen) ^^^ crc32c ((changeBytes f [(0, 1)]).take valueLen)
  (0, 1) :: (span valueLen 4).zip (leBytes 4 x.toNat)

/-- A value frame with some bits changed: is it another one, and does it pass its CRC? -/
def carried (u : List (Nat × Byte)) : Bool × Bool :=
  let f := (meter {}).die.valueFrame
  let w := changeBytes f u
  (decide (w ≠ f), valueOk w)

set_option maxRecDepth 20000 in
theorem witness_value_frames : [[], [(0, 1)], forged].map carried = [(false, true), (true, false), (true, true)] := by decide +kernel

theorem witness_MeterBridgeFrames : countOk (frame64.wire ^^^ 1) = false ∧ countOk frame64.wire = true ∧
    countOf frame64.wire = frame64 ∧ crc32c (leBytes 4 7) ≠ 0 ∧ Up (meter {}) ∧ (meter {}).die.powered = true ∧ (meter {} { lost := true }).dev.mtr.lost = true ∧
    BitVec.ofNat 4 (b2n (meter { regs := { tamper := true } }).die.regs.tamper) &&& ~~~(meter {}).dev.mtr.flags ≠ 0 ∧
    ((meter {} { flags := 4 }).dev.mtr.flags.getLsbD 2 = true ∧ (meter {}).die.regs.clockFault = false) ∧
    (meter {} { rxTime := some 5 }).dev.mtr.rxTime ≠ none ∧ ((meter { regs := { wrcount := 3 } }).die.regs.wrcount - (meter {}).dev.mtr.wrPosted).toNat = 3 ∧
    (meter {}).dev.mtr.wrTime = none ∧ (List.replicate 16864 (0 : Byte)).length = 16864 ∧ (∀ o ∈ (meter {}).dev.ops, waitsReadout o = false) ∧
    readout.dev.ops.filter waitsReadout = [{ dop := 0x17, a := 0x101 }] ∧ readout.dev.op 0 0 = some { dop := 0x17, a := 0x101 } ∧ readout.dev.mem.upsets = [] ∧ readout.dev.ime.sealed = false ∧ (meter { powered := false }).die.powered = false ∧
    (meter {}).dev.feat 13 = true ∧ (boot { phase := .running }).dev.feat 13 = false ∧ (meter {}).dev.mtr.sent = [] ∧
    (meter {} { sent := [frame64] }).dev.mtr.sent = frame64 :: [] ∧ (frame64.type = 1 ∧ frame64.part.toNat = 64 ∧ (meter {}).die.cntSeq ≠ some frame64.seq) ∧
    (meter { cntSeq := some 9 }).die.cntSeq = some frame64.seq ∧ (meter {}).dev.mtr.lost = false ∧
    ((meter {} {} fun d => { d with parts := [(64, { dcycInc := 2 ^ 48 })] }).dev.part 64).dcycInc ≠ 0 := by
  and_intros <;> first | decide +kernel | rfl

/-! ## Witnesses: the whole machine -/

theorem witness_global : State.reset.die.regs.log = [] ∧ State.reset.die.regs.logseq = 0 ∧ State.reset.die.powered = true ∧
    goesOn { up with pending := [.meterSecond] } ∧ goesOn sealed0 ∧ sealed0.dev.ime.sealed = true := by
  and_intros <;> first | exact ⟨_, rfl⟩ | decide +kernel
/-! ## Ill-formed operands that the checks refuse -/

theorem test_refuses_thread_65 : (Instr.waittTimeout 65).wellFormed = false := by decide
theorem test_refuses_partition_0 : (Instr.designCycleStart 0).wellFormed = false := by decide
theorem test_refuses_partition_65 : (Instr.designCycleStart 65).wellFormed = false := by decide
theorem test_refuses_plot_512 : (Instr.plotClearingDone 512).wellFormed = false := by decide
theorem test_refuses_pin_864 : (Instr.userclkEdge 864 false).wellFormed = false := by decide
theorem test_refuses_bank_18 : (Instr.iobankWrite .pf0 18 0).wellFormed = false := by decide
theorem test_refuses_channel_8 : (Instr.ddrVacateDone 8).wellFormed = false := by decide
theorem test_refuses_tower_4 : (Instr.powerRailUndervoltage (.vmarl 4) false).wellFormed = false := by decide
theorem test_refuses_unit_12 : (Instr.retrainPause 12).wellFormed = false := by decide
theorem test_refuses_stop_40 : (Instr.fenceHandshakeDone 40).wellFormed = false := by decide
theorem test_refuses_requester_256 : (Instr.arbWatchdogBite 0 256).wellFormed = false := by decide
theorem test_refuses_port_4 : (Instr.norakTrainingRetry 4).wellFormed = false := by decide
theorem test_refuses_ring_2 : (Instr.ringOn .pf0 2).wellFormed = false := by decide
theorem test_refuses_keyid_0 : (Instr.keyidDrained 0).wellFormed = false := by decide
theorem test_refuses_keyid_64 : (Instr.keyidDrained 64).wellFormed = false := by decide
theorem test_refuses_keep_512 : (Instr.keepWrite .pf0 512 0).wellFormed = false := by decide
theorem test_refuses_slot_16 : (Instr.dmaDone 0 16 [] .clean).wellFormed = false := by decide
theorem test_refuses_sensor_368 : (Instr.sensorRecovery 368).wellFormed = false := by decide
theorem test_refuses_power_group_9 : (Instr.powerFaultRecovery 9).wellFormed = false := by decide
theorem test_refuses_domain_8 : (Instr.bandDownTimer 8).wellFormed = false := by decide
theorem test_refuses_binding_4096 : (Instr.ringCutWrite .pf0 4096 0).wellFormed = false := by decide
theorem test_refuses_function_65 : (Named.function 65).ok = false := by decide
theorem test_refuses_stream_5 : (Named.stream 5).ok = false := by decide
theorem test_refuses_substream_3 : (Named.substream 3).ok = false := by decide
theorem test_refuses_vccio_code_4 : (Instr.vccioRestored 0 4).wellFormed = false := by decide
theorem test_refuses_dma_65 : (Instr.drainComplete (.dma 65)).wellFormed = false := by decide
theorem test_refuses_context_8 : (Instr.fallbackSoftwarePass [(⟨0, 8, 0, 0⟩, 0, 1)] []).wellFormed = false := by decide
theorem test_refuses_clod_1024 : (Instr.scrubPassEnd [] [(⟨0, 0, 1024, 0⟩, 0, 1)] [] 0).wellFormed = false := by decide
theorem test_refuses_grain_64 : (Instr.fallbackSoftwarePass [] [(⟨0, 0, 0, 64⟩, 0, 1)]).wellFormed = false := by decide
theorem test_refuses_lane_4096 : (Named.lane 4096).ok = false := by decide
/-- The check values that CRC catalogues give for the digits 1 to 9. -/
theorem test_crcs : crc16 (label "123456789") = 0x29B1 ∧ crc32c (label "123456789") = 0xE3069283 := by decide +kernel
theorem test_refuses_canary_512 : (Instr.scrubPassEnd [⟨512, 0, 0, true⟩] [] [] 0).wellFormed = false := by decide
theorem test_refuses_block_32 : (Instr.patrolRead (.bram 0 32 0) .clean).wellFormed = false := by decide
theorem test_refuses_row_1024 : (Instr.patrolRead (.bram 0 0 1024) .clean).wellFormed = false := by decide
theorem test_refuses_model_port_4096 : (Named.modelPort 4096).ok = false := by decide
theorem test_refuses_loam_port_16 : (Named.loamPort 16).ok = false := by decide
theorem test_refuses_noc_ring_4 : (Instr.sidebandUe 4 ⟨0, 2⟩).wellFormed = false := by decide
theorem test_refuses_arbiter_37 : (Instr.arbWatchdogBite 37 0).wellFormed = false := by decide
theorem test_refuses_arbiter_51 : (Instr.arbWatchdogBite 51 0).wellFormed = false := by decide
theorem test_accepts_bounds : ([.userclkEdge 863 false, .arbWatchdogBite 50 255, .designCycleStart 64, .sensorRecovery 367,
    .keyidDrained 63, .ringCutWrite (.thread 64) 4095 0] : List Instr).all Instr.wellFormed = true := by decide

/-- A second read of a line finds its counter block and its MAC-area line in the caches (R398, R399). -/
theorem test_caches_hit :
    (let d := verified {} |>.dev
     let e := (d.lookups 0 8).1
     let f := e.lookups 0 8
     (e.ime.ccMisses, e.ime.mcMisses, e.ime.ccHits, f.1.ime.ccHits, f.1.ime.mcHits, f.1.ime.ccMisses) = (1, 1, 0, 1, 1, 1) ∧ f.2 = []) := by
  decide +kernel

/-- A write makes the counter block and the MAC-area line dirty, and DDR5 still holds the counter block as it was (R398, R406). -/
theorem test_write_dirties :
    (let d := (verified {} |>.dev).advanceLine 0
     d.lineCounters 0 = (0, 1) ∧ d.inDdr5 (nodeKey 0 0 0) [] = leBytes 64 0 ∧ d.ime.mcDirty = [d.macKey 0]) := by
  decide +kernel
/-! ## Single steps computed by hand from the spec -/

/-- g3 of T0 after an instruction with g1 and g2 as given (and g3 = 0). -/
def res (c : Issue → Instr) (va vb : Word) : Word := ((dev (c (issued 0)) (ctl va vb {})).thr 0).reg 3

/-! R272 -/
theorem test_add_wraps : res (.add · 3 1 2) 0xFFFFFFFFFFFFFFFF 1 = 0 := by decide +kernel
theorem test_sub_wraps : res (.sub · 3 1 2) 0 1 = 0xFFFFFFFFFFFFFFFF := by decide +kernel
theorem test_and : res (.and · 3 1 2) 0xC 0xA = 8 := by decide +kernel
theorem test_or : res (.or · 3 1 2) 0xC 0xA = 0xE := by decide +kernel
theorem test_xor : res (.xor · 3 1 2) 0xC 0xA = 6 := by decide +kernel
theorem test_sll_takes_six_bits : res (.sll · 3 1 2) 1 65 = 2 := by decide +kernel
theorem test_srl_fills_zero : res (.srl · 3 1 2) 0x8000000000000000 63 = 1 := by decide +kernel
theorem test_sra_fills_sign : res (.sra · 3 1 2) 0x8000000000000000 63 = 0xFFFFFFFFFFFFFFFF := by decide +kernel
theorem test_mul_low_half : res (.mul · 3 1 2) 0x100000001 0x100000000 = 0x100000000 := by decide +kernel
theorem test_mulhu_unsigned : res (.mulhu · 3 1 2) 0xFFFFFFFFFFFFFFFF 0xFFFFFFFFFFFFFFFF = 0xFFFFFFFFFFFFFFFE := by decide +kernel
theorem test_divu_by_zero : res (.divu · 3 1 2) 7 0 = 0xFFFFFFFFFFFFFFFF := by decide +kernel
theorem test_divu_unsigned : res (.divu · 3 1 2) 0xFFFFFFFFFFFFFFFE 2 = 0x7FFFFFFFFFFFFFFF := by decide +kernel
theorem test_remu_by_zero : res (.remu · 3 1 2) 7 0 = 7 := by decide +kernel
theorem test_remu : res (.remu · 3 1 2) 23 7 = 2 := by decide +kernel
theorem test_slt_signed : res (.slt · 3 1 2) 0xFFFFFFFFFFFFFFFF 0 = 1 := by decide +kernel
theorem test_sltu_unsigned : res (.sltu · 3 1 2) 0xFFFFFFFFFFFFFFFF 0 = 0 := by decide +kernel
theorem test_popc : res (.popc · 3 1) 0xF00000000000000F 0 = 8 := by decide +kernel
theorem test_clz_of_zero : res (.clz · 3 1) 0 0 = 64 := by decide +kernel
theorem test_clz : res (.clz · 3 1) 0x0000800000000000 0 = 16 := by decide +kernel
theorem test_ctz_of_zero : res (.ctz · 3 1) 0 0 = 64 := by decide +kernel
theorem test_ctz : res (.ctz · 3 1) 0x0000800000000000 0 = 47 := by decide +kernel

/-! R271 -/
theorem test_addi_extends_sign : res (.addi · 3 1 0xFFFF) 5 0 = 4 := by decide +kernel
theorem test_andi_extends_zero : res (.andi · 3 1 0xFFFF) 0xFFFFFFFFFFFFFFFF 0 = 0xFFFF := by decide +kernel
theorem test_ori_extends_zero : res (.ori · 3 1 0x8000) 1 0 = 0x8001 := by decide +kernel
theorem test_xori_extends_zero : res (.xori · 3 1 0x8001) 1 0 = 0x8000 := by decide +kernel
theorem test_slli : res (.slli · 3 1 63) 3 0 = 0x8000000000000000 := by decide +kernel
theorem test_srli : res (.srli · 3 1 63) 0x8000000000000000 0 = 1 := by decide +kernel
theorem test_srai : res (.srai · 3 1 62) 0x8000000000000000 0 = 0xFFFFFFFFFFFFFFFE := by decide +kernel
theorem test_slti_signed : res (.slti · 3 1 0xFFFF) 0 0 = 0 := by decide +kernel
theorem test_sltiu_extends_sign : res (.sltiu · 3 1 0xFFFF) 0xFFFF 0 = 1 := by decide +kernel
theorem test_lui_extends_sign : res (.lui · 3 0x8000) 0 0 = 0xFFFFFFFF80000000 := by decide +kernel
theorem test_shin : ((dev (.shin (issued 0) 1 0x1234) (ctl 0xFFFF000000005678 0 {})).thr 0).reg 1 = 0x56781234 := by decide +kernel
theorem test_g0_stays_zero : ((dev (.addi (issued 0) 0 1 1) (ctl 5 0 {})).thr 0).reg 0 = 0 := by decide +kernel
theorem test_pc_moves_on : ((dev (.add (issued 0) 3 1 2) (ctl 5 0 {})).thr 0).pc = 4 := by decide +kernel

/-! Branches and jumps (R270, R271) -/
theorem test_beq_backwards : ((dev (.beq (issued 0) 1 2 0xFFFF) (thread 0 { state := .run, pc := 0x20 })).thr 0).pc = 0x1C := by decide +kernel
theorem test_bltu_not_taken : ((dev (.bltu (issued 0) 1 2 8) (ctl 0xFFFFFFFFFFFFFFFF 1 {})).thr 0).pc = 4 := by decide +kernel
theorem test_blt_taken : ((dev (.blt (issued 0) 1 2 8) (ctl 0xFFFFFFFFFFFFFFFF 1 {})).thr 0).pc = 0x20 := by decide +kernel
theorem test_bne_not_taken : ((dev (.bne (issued 0) 1 1 8) (ctl 1 2 {})).thr 0).pc = 4 := by decide +kernel
theorem test_bge_equal : ((dev (.bge (issued 0) 1 2 3) (ctl 1 1 {})).thr 0).pc = 0xC := by decide +kernel
theorem test_bgeu : ((dev (.bgeu (issued 0) 1 2 3) (ctl 0xFFFFFFFFFFFFFFFF 1 {})).thr 0).pc = 0xC := by decide +kernel
theorem test_j_backwards : ((dev (.j (issued 0) 0x3FFFFFE) (thread 0 { state := .run, pc := 0x20 })).thr 0).pc = 0x18 := by decide +kernel
theorem test_call_links : let t := (dev (.call (issued 0) 4) (thread 0 { state := .run, pc := 0x20 })).thr 0
    t.reg 31 = 0x24 ∧ t.pc = 0x30 := by decide +kernel
theorem test_jalr_same_register : let t := (dev (.jalr (issued 0) 1 1 8) (ctl 0x100 0 {})).thr 0
    t.reg 1 = 4 ∧ t.pc = 0x108 := by decide +kernel

/-! Memory (R261, R271, R273): little-endian, zero extended -/

/-- T0 with g1 = 0x100 and eight bytes there. -/
def bytes8 : State := ctl 0x100 0x55 {} (bytesAt (seqAddr 0x100) 8 0x8877665544332211)

theorem test_ld : ((dev (.ld (issued 0) 3 1 0 .clean) bytes8).thr 0).reg 3 = 0x8877665544332211 := by decide +kernel
theorem test_lw_high : ((dev (.lw (issued 0) 3 1 4 .clean) bytes8).thr 0).reg 3 = 0x88776655 := by decide +kernel
theorem test_lb : ((dev (.lb (issued 0) 3 1 7 .clean) bytes8).thr 0).reg 3 = 0x88 := by decide +kernel
theorem test_st : cgetBytes (dev (.st (issued 0) 2 1 0) bytes8).mem.cells (seqAddr 0x100) 8 = some (leBytes 8 0x55) := by decide +kernel
theorem test_sw : cgetBytes (dev (.sw (issued 0) 2 1 4 .clean) bytes8).mem.cells (seqAddr 0x100) 8 = some (leBytes 8 0x5544332211) := by decide +kernel
theorem test_sb : cgetBytes (dev (.sb (issued 0) 2 1 1 .clean) bytes8).mem.cells (seqAddr 0x100) 8 = some (leBytes 8 0x8877665544335511) := by decide +kernel
theorem test_swap : let d := dev (.swap (issued 0) 3 1 2 .clean) bytes8
    (d.thr 0).reg 3 = 0x8877665544332211 ∧ cgetBytes d.mem.cells (seqAddr 0x100) 8 = some (leBytes 8 0x55) := by decide +kernel
theorem test_aadd : cgetBytes (dev (.aadd (issued 0) 3 1 2 .clean) bytes8).mem.cells (seqAddr 0x100) 8 =
    some (leBytes 8 0x8877665544332266) := by decide +kernel
theorem test_aand : cgetBytes (dev (.aand (issued 0) 3 1 2 .clean) bytes8).mem.cells (seqAddr 0x100) 8 = some (leBytes 8 0x11) := by decide +kernel
theorem test_aor : cgetBytes (dev (.aor (issued 0) 3 1 2 .clean) bytes8).mem.cells (seqAddr 0x100) 8 =
    some (leBytes 8 0x8877665544332255) := by decide +kernel

/-! The worked example of R289: T7 runs code at 0x2_0000, whose data part ends at 0x2_FFFF -/

/-- T7 as the example's host left it, at the load; T0 has TVEC = 0x1000. -/
def example7 (pc : Word) (g5 : Word) : State := on fun d =>
  let e := (d.updThr 7 fun _ => { state := .run, win := 0x400100020, pc := pc, regs := [(5, g5)] }).updThr 0 fun _ => { state := .run }
  { e with seq := { e.seq with tvec := 0x1000 } }

theorem test_example_addi : ((dev (.addi (issued 7) 5 0 0x40) (example7 0x20000 9)).thr 7).reg 5 = 0x40 := by decide +kernel
theorem test_example_trap : let d := dev (.ld (issued 7) 6 5 0x10 .clean) (example7 0x20004 0x40)
    (d.thr 7).state = .trapped ∧ (d.thr 7).pc = 0x20004 ∧ (d.thr 7).reg 6 = 0 ∧ (d.thr 0).pc = 0x1000 ∧ d.seq.tcause = 0x903 ∧
    d.seq.tthr = 7 ∧ d.seq.tpc = 0x20004 ∧ d.seq.tval = 0x50 ∧ d.seq.trapMode = true := by decide +kernel
theorem test_example_event : let r := tget (dev (.ld (issued 7) 6 5 0x10 .clean) (example7 0x20004 0x40)).evt.pf.slots 0 {}
    r.code = 0x903 ∧ r.source = 0x87 ∧ r.part = 7 ∧ r.cls = 3 ∧ r.detail = 0x20004 := by decide +kernel
theorem test_example_corrected : ((dev (.ori (issued 7) 5 5 0x4040) (example7 0x20004 0x20000)).thr 7).reg 5 = 0x24040 := by decide +kernel
theorem test_lui_of_example : ((dev (.lui (issued 7) 5 2) (example7 0x20000 9)).thr 7).reg 5 = 0x20000 := by decide +kernel

/-! Other worked examples -/

/-- The example of R410: two 128 GiB RDIMMs on a channel, with and without IME_VERIFIED. -/
theorem test_example_layout :
    (dev (.ddr5TrainingDone 0 [dimm 128 false, dimm 128 false] true) (dram [] [])).readReg up.fuse 0x600100 = 0x18034A0CB6 := by decide +kernel
theorem test_example_layout_plain :
    (((dev (.ddr5TrainingDone 0 [dimm 128 false, dimm 128 false] true)
      { dram [] [] with dev := { (dram [] []).dev with boot := { (dram [] []).dev.boot with drv0 := 0x4000 } } }).chan 0).user) = 240 * 16 := by decide +kernel

/-- The example of R461: front end 45, stop 0 at HIGH level 2; its mask lifts at NORMAL and returns at HIGH with COUNT 222. -/
theorem test_example_unmask : ((dev (.arbPriorityWrite (.thread 0) 45 0 false 7)
    (arb 45 0 { high := some true, level := 2, count := 192, masked := true })).arb 45 0).masked = false := by decide +kernel
theorem test_example_mask : ((dev (.arbPriorityWrite (.thread 0) 45 0 true 2)
    (arb 45 0 { high := some false, level := 7, count := 222 })).arb 45 0).masked = true := by decide +kernel

/-- The example of R37: the target falls from 1.00 GHz to 0.90 GHz; the output halves until the spare PLL has locked. -/
theorem test_example_band_b : let d := dev (.gclkTargetChange 144) (on fun x => { x with thm := { x.thm with req := 0xA0, maxA := 0x90 } })
    d.clk.divided = true ∧ d.clk.target = 144 ∧ d.clk.switching = true := by decide +kernel

/-- The example of R585: 420 W are 1 mWh less 420,000 of 14,400,000 parts, then 1 mWh. -/
theorem test_meter_energy : let m := die (.meterSample 420000) (meter { regs := { energy := 7, energyFrac := 13980000 } })
    m.regs.energy = 8 ∧ m.regs.energyFrac = 0 ∧ m.pulse = 1 := by decide +kernel
theorem test_meter_energy_part : (die (.meterSample 420000) (meter { regs := { energy := 7, energyFrac := 13979999 } })).regs.energy = 7 := by decide +kernel

/-- The example of R517: 416 plots of 8 contexts and one marl model of 64 MiB need 278,532 KiB. -/
theorem test_example_snapshot : let pl : Placement := { models := [{ model := 0, width := 8, size := 0x4000000, tier := 2, base := 0x020100000000 }] }
    (ctl 0 0 { state := .frozen, plots := 416, ctx := 3, placement := some pl }).dev.snapNeed 1 = 278532 * 1024 := by decide +kernel

/-! Host, resets and registers -/

theorem test_cold_wrong_key : dev (.rstCold .pf0 0xA4) (ctl 1 2 {}) = (ctl 1 2 {}).dev := by decide +kernel
theorem test_evt_fw_posts : let r := tget (dev (.evt (issued 0) 3 1 2) (ctl 0xF0000001 9 {})).evt.pf.slots 0 {}
    r.code = 0xF000 ∧ r.detail = 9 := by decide +kernel
theorem test_consumer_index : (dev (.evtConsWrite .pf0 5) up).evt.pf.cons = 5 := by decide +kernel
theorem test_ring_group_frozen_while_running : ((dev (.ringGroupWrite .pf0 1 (5 * 2 ^ 40)) busy1).part 1).gen = 0 := by decide +kernel
theorem test_trip_wait_without_trip : dev .tripWaitTimeout up = up.dev := by decide +kernel
theorem test_seal_needs_its_key : (dev (.sealForce .pf0 0x5B) up).ime.sealed = false ∧ (dev (.sealForce .pf0 0x5A) up).ime.sealed = true := by decide +kernel
theorem test_step_takes_the_front : step { up with pending := [.meterTamper, .meterSecond] } = exec .meterTamper { up with pending := [.meterSecond] } := rfl
theorem test_idle_step_counts_time : (match step up with | .next t => decide (t.dev.evt.time = 5) | _ => false) = true := by decide +kernel
theorem test_unassigned_code_is_bypass : (dev (.bypass 0xFF) (debug 0 false)).tap.ir = .bypass := by decide +kernel
end Sys2Proof.Tests
end

section
/-! Keep registers (R71 to R75): the equations of a write, a persisted write and a read, what the repair map's rules leave
unchanged, and the proof of KeepRegisterWrites. -/
namespace Sys2Proof.Machine
open Host

/-! ## A command that does one thing -/

/-- A device reached by one of two ways differs where each way does. -/
theorem SameBut.ite {l : List Sect} {d e f : Dev} {p : Prop} [Decidable p] (he : SameBut l d e) (hf : SameBut l d f) :
    SameBut l d (if p then e else f) := by
  split
  · exact he
  · exact hf

/-- What is known of the device that a command leaves is what the command makes. -/
theorem Does.makes {c : Instr} {s : State} {e : Dev} {l : List Sect} {P : Dev → Prop} (h : Does c s e) (hl : SameBut l s.dev e)
    (hP : P e) : Makes c s l P := ⟨_, h, ⟨rfl, rfl, rfl, hl⟩, hP⟩

/-- In a device that is not sealed, PF0 and T0 may write a register that the debug port never writes (R73, R92). -/
theorem byHostOrT0Only_allowed {m : Master} {s : State} (h : Allowed m s) (off : Nat) (body : Dev → Dev) :
    s.dev.byHostOrT0Only m off body = body s.dev := by
  obtain ⟨-, hs, rfl | rfl⟩ := h <;> simp [Dev.byHostOrT0Only, Dev.byHostOrT0, hs]

/-! ## Posting reads and changes no keep register -/

/-- The device with other keep registers. -/
def Dev.withKeep (d : Dev) (k : Keep) : Dev := { d with keep := k }

section Posting
variable (d : Dev) (k : Keep)

theorem withKeep_only : SameBut [.keep] d (d.withKeep k) := set_keep_only d k

@[simp] theorem withKeep_keep : (d.withKeep k).keep = k := rfl
@[simp] theorem withKeep_evt : (d.withKeep k).evt = d.evt := rfl
@[simp] theorem withKeep_msix (f v : Nat) : (d.withKeep k).msix f v = d.msix f v := rfl
@[simp] theorem withKeep_feat (n : Nat) : (d.withKeep k).feat n = d.feat n := rfl
@[simp] theorem withKeep_part (p : Nat) : (d.withKeep k).part p = d.part p := rfl

theorem raise_withKeep (f v : Nat) : (d.withKeep k).raise f v = (d.raise f v).withKeep k := by
  unfold Dev.raise
  rw [withKeep_msix]
  split <;> rfl

theorem raiseAt_withKeep (f : Nat) (v : Option Nat) : (d.withKeep k).raiseAt f v = (d.raiseAt f v).withKeep k := by
  cases v with
  | none => rfl
  | some v => exact raise_withKeep d k f v

theorem postPf_withKeep (r : EvtRec) (v : Option Nat) : (d.withKeep k).postPf r v = (d.postPf r v).withKeep k :=
  raiseAt_withKeep { d with evt := _ } k _ _

theorem postVf_withKeep (r : EvtRec) (w : Option Nat) : (d.withKeep k).postVf r w = (d.postVf r w).withKeep k :=
  raiseAt_withKeep { d with evt := _ } k _ _

theorem postRec_withKeep (r : EvtRec) (v w : Option Nat) : (d.withKeep k).postRec r v w = (d.postRec r v w).withKeep k := by
  unfold Dev.postRec
  simp only [withKeep_feat, withKeep_part, postPf_withKeep, postVf_withKeep]
  exact (apply_ite (Dev.withKeep · k) _ _ _).symm

/-- An event posted after a change of the keep registers is the one posted before it. -/
theorem post_withKeep (code detail part : Nat) :
    (d.withKeep k).post code detail part = (d.post code detail part).withKeep k := postRec_withKeep d k _ _ _

end Posting

/-! ## The repair map's rules -/

/-- The groups of state that the repair map's rules reach (R344, R463, R558, R561). -/
def repairSects : List Sect := [.evt, .fab, .mem, .noc, .rel]

theorem priDefaults_only (d : Dev) (l : List Nat) : SameBut [.noc] d (d.priDefaults l) := set_noc_only d _

theorem applyWhere_only (d : Dev) (due : Nat → Bool) : SameBut [.rel] d (d.applyWhere due) := set_rel_only d _

theorem applyRepairs_only (d : Dev) : SameBut [.rel] d d.applyRepairs := applyWhere_only d _

theorem applyEntry_only (d : Dev) (w : Nat) : SameBut [.rel] d (d.applyEntry w) := set_rel_only d _

theorem failTower_only (d : Dev) (m reason : Nat) : SameBut [.mem, .evt] d (d.failTower m reason) :=
  ((updTower_only d m _).mono (sect_sub rfl)).next (postSrc_only _ _ _ _ _) (sect_sub rfl)

theorem dieOut_only (d : Dev) (w : Nat) : SameBut [.mem, .evt] d (d.dieOut w) :=
  have out := (updTower_only d (bits w 26 2) _).mono (m := [.mem, .evt]) (sect_sub rfl)
  SameBut.ite (out.trans (failTower_only _ _ _)) out

/-- A changed register of the repair map reaches plots, priority registers, towers, the repairs in force and events, and no
other group of state. -/
theorem repairChanged_only (d : Dev) (i old : Nat) : SameBut repairSects d (d.repairChanged i old) := by
  have same := SameBut.refl repairSects
  have plot : ∀ (e : Dev) n f, SameBut repairSects e (e.updPlot n f) := fun e n f => (updPlot_only e n f).mono (sect_sub rfl)
  have set_rel : ∀ (e : Dev) r, SameBut repairSects e { e with rel := r } := fun e r => (set_rel_only e r).mono (sect_sub rfl)
  refine SameBut.ite ?badPlots (SameBut.ite ?entry (same d))
  case badPlots =>
    exact forAll_keeps (fun e n => SameBut.ite (plot e n _)
      (SameBut.ite ((plot e n _).next (priDefaults_only _ _) (sect_sub rfl)) (same e))) _ d
  case entry =>
    have start := (applyRepairs_only d).mono (m := repairSects) (sect_sub rfl)
    have out := fun e w => (dieOut_only e w).mono (m := repairSects) (sect_sub rfl)
    refine SameBut.trans ?spare (SameBut.ite ((out _ _).next (applyEntry_only _ _) (sect_sub rfl)) (same _))
    case spare =>
      refine (start.trans (set_rel _ _)).trans (SameBut.ite (SameBut.ite ?full (set_rel _ _)) (same _))
      exact (postSrc_only _ _ _ _ _).mono (sect_sub rfl)

/-- The repair map is registers 0 to 255 (R556). -/
theorem repairChanged_outside (d : Dev) {i : Nat} (old : Nat) (h : 256 ≤ i) : d.repairChanged i old = d := by
  have h1 : ¬ i < 16 := by omega
  have h2 : ¬ i < 256 := by omega
  simp [Dev.repairChanged, h1, h2]

/-! ## A write -/

/-- Of the keep registers of a device whose register i has come to hold `k`, every other is as it was (R71). -/
theorem keepReg_of_tset {d e : Dev} {i : Nat} {k : KeepReg} (h : e.keep.regs = tset d.keep.regs i k) :
    e.keepReg i = k ∧ ∀ j, j ≠ i → e.keepReg j = d.keepReg j := by
  simp only [Dev.keepReg, h]
  exact ⟨tget_tset_same _ _ _ _, fun j hj => tget_tset_ne _ _ _ _ _ hj.symm⟩

/-- A counted write: register i takes the value, one more write is counted, it persists later, and the 90,000th posts event 0x0A31
(R71, R72). -/
def Dev.keepCounted (d : Dev) (i : Nat) (v : BitVec 32) : Dev :=
  let k := d.keepReg i
  let e := d.withKeep { d.keep with
    regs := tset d.keep.regs i { k with value := v, wcount := k.wcount + 1 }
    persisting := d.keep.persisting.filter (fun x => decide (x.1 ≠ i)) ++ [(i, k.value)] }
  if k.wcount + 1 = 90000 then e.post 0x0A31 i else e

/-- A register that takes no more writes becomes WORN, and event 0x0A30 names it (R72). -/
def Dev.keepWorn (d : Dev) (i : Nat) : Dev :=
  (d.withKeep { d.keep with regs := tset d.keep.regs i { d.keepReg i with worn := true } }).post 0x0A30 i

section Write
variable {d : Dev} {i : Nat} {v : BitVec 32}

theorem keepStore_same (h : (d.keepReg i).value = v) : d.keepStore i v = d := by
  simp [Dev.keepStore, h]

theorem keepStore_worn (hi : i < 512) (h : (d.keepReg i).value ≠ v) (hw : 100000 ≤ (d.keepReg i).wcount) :
    d.keepStore i v = d.keepWorn i := by
  simp [Dev.keepStore, Dev.keepWorn, Dev.withKeep, h, hw, Nat.not_le.2 hi]

theorem keepStore_counts (hi : i < 512) (h : (d.keepReg i).value ≠ v) (hw : (d.keepReg i).wcount < 100000) :
    d.keepStore i v = (d.keepCounted i v).repairChanged i (d.keepReg i).value.toNat := by
  simp [Dev.keepStore, Dev.keepCounted, Dev.withKeep, h, Nat.not_le.2 hw, Nat.not_le.2 hi]

end Write

section
variable (d : Dev) (i : Nat) (v : BitVec 32)

theorem keepWorn_only : SameBut [.keep, .evt] d (d.keepWorn i) :=
  ((withKeep_only d _).mono (sect_sub rfl)).next (post_only _ _ _ _) (sect_sub rfl)

theorem keepWorn_evt : (d.keepWorn i).evt = (d.post 0x0A30 i).evt := by simp [Dev.keepWorn, post_withKeep]

theorem keepWorn_regs : (d.keepWorn i).keep.regs = tset d.keep.regs i { d.keepReg i with worn := true } := by
  simp [Dev.keepWorn, post_withKeep]

theorem keepCounted_only : SameBut [.keep, .evt] d (d.keepCounted i v) :=
  have stored := fun k => (withKeep_only d k).mono (m := [.keep, .evt]) (sect_sub rfl)
  SameBut.ite ((stored _).next (post_only _ _ _ _) (sect_sub rfl)) (stored _)

theorem keepCounted_evt :
    (d.keepCounted i v).evt = if (d.keepReg i).wcount + 1 = 90000 then (d.post 0x0A31 i).evt else d.evt := by
  simp only [Dev.keepCounted, post_withKeep]
  split <;> rfl

theorem keepCounted_regs : (d.keepCounted i v).keep.regs =
    tset d.keep.regs i { d.keepReg i with value := v, wcount := (d.keepReg i).wcount + 1 } := by
  simp only [Dev.keepCounted, post_withKeep]
  split <;> rfl

end

/-! ## The commands -/

section Commands
variable {m : Master} {i : Nat} {v : BitVec 32} {s : State}

/-- KEEP_WRITE of one who may write is the write of the register (R71 to R73). -/
theorem keepWrite_does (h : Allowed m s) (i : Nat) (v : BitVec 32) : Does (.keepWrite m i v) s (s.dev.keepStore i v) := by
  show execKeepWrite m i v s = _
  rw [execKeepWrite, run_out h.1, byHostOrT0Only_allowed h]

/-- A write of the value already stored is no write (R72). -/
theorem keepWrite_stored (h : Allowed m s) (hv : (s.dev.keepReg i).value = v) : exec (.keepWrite m i v) s = .next s := by
  have done := keepWrite_does h i v
  rwa [keepStore_same hv] at done

/-- A write of another value stores it, counts, and lets the repair map's rules act (R71, R72, R558). -/
theorem keepWrite_counts (h : Allowed m s) (hi : i < 512) (hv : (s.dev.keepReg i).value ≠ v)
    (hw : (s.dev.keepReg i).wcount < 100000) :
    Makes (.keepWrite m i v) s [.keep, .evt, .fab, .mem, .noc, .rel] fun e =>
      e.keepReg i = { s.dev.keepReg i with value := v, wcount := (s.dev.keepReg i).wcount + 1 } ∧
      (∀ j, j ≠ i → e.keepReg j = s.dev.keepReg j) ∧
      e = (s.dev.keepCounted i v).repairChanged i (s.dev.keepReg i).value.toNat := by
  have counted := keepCounted_only s.dev i v
  have repaired := repairChanged_only (s.dev.keepCounted i v) i (s.dev.keepReg i).value.toNat
  have kept := repaired .keep (by decide)
  obtain ⟨own, others⟩ := keepReg_of_tset ((congrArg Keep.regs kept).trans (keepCounted_regs s.dev i v))
  have done := keepWrite_does h i v
  rw [keepStore_counts hi hv hw] at done
  exact done.makes ((counted.mono (sect_sub rfl)).next repaired (sect_sub rfl)) ⟨own, others, rfl⟩

/-- A register written 100,000 times takes no value: it becomes WORN, with its event (R72). -/
theorem keepWrite_worn (h : Allowed m s) (hi : i < 512) (hv : (s.dev.keepReg i).value ≠ v)
    (hw : 100000 ≤ (s.dev.keepReg i).wcount) :
    Makes (.keepWrite m i v) s [.keep, .evt] fun e => e.keepReg i = { s.dev.keepReg i with worn := true } ∧
      (∀ j, j ≠ i → e.keepReg j = s.dev.keepReg j) ∧ e.evt = (s.dev.post 0x0A30 i).evt := by
  obtain ⟨own, others⟩ := keepReg_of_tset (keepWorn_regs s.dev i)
  have done := keepWrite_does h i v
  rw [keepStore_worn hi hv hw] at done
  exact done.makes (keepWorn_only s.dev i) ⟨own, others, keepWorn_evt s.dev i⟩

/-- KEEP_PERSISTED ends the register's writes in progress (R71). -/
theorem keepPersisted_does (h : Out s) (i : Nat) : Does (.keepPersisted i) s
    (s.dev.withKeep { s.dev.keep with persisting := s.dev.keep.persisting.filter fun x => decide (x.1 ≠ i) }) :=
  run_out h fun x => x.withKeep { x.keep with persisting := x.keep.persisting.filter fun y => decide (y.1 ≠ i) }

/-- What a read of a keep register leaves in the device (R75). -/
theorem keepRead_fst (d : Dev) (i : Nat) (bad : Bool) : (d.keepRead i bad).1 =
    (if bad then d.post 0x0A32 i else d).withKeep { d.keep with readErr := d.keep.readErr || bad } := by
  cases bad with
  | false => simp [Dev.keepRead, Dev.withKeep]
  | true =>
    rw [Bool.or_true]
    exact post_withKeep d { d.keep with readErr := true } 0x0A32 i 0

/-- What a read of a keep register returns (R75). -/
theorem keepRead_snd (d : Dev) (i : Nat) (bad : Bool) : (d.keepRead i bad).2 = if bad then 0 else (d.keepReg i).value := by
  cases bad <;> rfl

/-- A read changes READERR and the event of an uncorrectable register alone (R75). -/
theorem keepRead_only (d : Dev) (i : Nat) (bad : Bool) : SameBut [.keep, .evt] d (d.keepRead i bad).1 := by
  rw [keepRead_fst]
  exact (SameBut.ite ((post_only _ _ _ _).mono (sect_sub rfl)) (SameBut.refl _ d)).next (withKeep_only _ _) (sect_sub rfl)

/-- KEEP_DATA_n as a read's completion carries it: value, WCOUNT, WORN (R75). -/
def keepData (k : KeepReg) (bad : Bool) : Nat :=
  (if bad then 0 else k.value.toNat) + k.wcount % 2 ^ 17 * 2 ^ 32 + if k.worn then 2 ^ 49 else 0

/-- KEEP_READ through PF0 is the read, and the completion of its value, count and WORN (R71, R75). -/
theorem keepRead_pf0_does (h : Out s) (hi : i < 512) (bad : Bool) : Does (.keepRead .pf0 i bad) s
    { (s.dev.keepRead i bad).1 with pcie := { s.dev.pcie with cpl := some (.data (leBytes 8 (keepData (s.dev.keepReg i) bad))) } } := by
  have same : (s.dev.keepRead i bad).1.pcie = s.dev.pcie := keepRead_only s.dev i bad .pcie (by decide)
  have value : (s.dev.keepRead i bad).2.toNat = if bad then 0 else (s.dev.keepReg i).value.toNat := by
    rw [keepRead_snd]
    cases bad <;> rfl
  have worn : b2n (s.dev.keepReg i).worn * 2 ^ 49 = if (s.dev.keepReg i).worn then 2 ^ 49 else 0 := by
    cases (s.dev.keepReg i).worn <;> rfl
  show execKeepRead .pf0 i bad s = _
  rw [execKeepRead, run_out h, if_neg (Nat.not_le.2 hi)]
  simp only [same, value, worn, keepData]

/-- KEEP_READ of a thread or the debug port is the read; its data is the access's (R71, R75). -/
theorem keepRead_other_does (h : Out s) (hi : i < 512) (bad : Bool) (hp : m ≠ .pf0) (hf : ∀ n, m ≠ .vf n) :
    Does (.keepRead m i bad) s (s.dev.keepRead i bad).1 := by
  show execKeepRead m i bad s = _
  rw [execKeepRead, run_out h, if_neg (Nat.not_le.2 hi)]
  cases m with
  | pf0 => exact absurd rfl hp
  | vf n => exact absurd rfl (hf n)
  | thread n => rfl
  | debug => rfl

end Commands

/-- Settles O17: each clause is the command's own lemma; a counted write reaches the device `keepCounted`, on which the repair
map's rules act and leave it as it is from register 256 on. -/
theorem keepRegisterWrites : Obligations.KeepRegisterWrites := by
  unfold Obligations.KeepRegisterWrites
  intro m i v bad s allowed hi d k
  have out := allowed.1
  have read := keepRead_only d i bad
  refine ⟨keepWrite_stored allowed, fun hv hw => ?counts, keepWrite_worn allowed hi, ?persisted, ?read, ?other⟩
  case counts =>
    obtain ⟨t, ht, only, own, others, he⟩ := keepWrite_counts allowed hi hv hw
    exact ⟨t, ht, only, own, others, d.keepCounted i v, keepCounted_only d i v, keepCounted_evt d i v, he,
      fun h => he.trans (repairChanged_outside _ _ h)⟩
  case persisted => exact (keepPersisted_does out i).makes (withKeep_only _ _) ⟨rfl, rfl, rfl⟩
  case read =>
    refine (keepRead_pf0_does out hi bad).makes ((read.mono (sect_sub rfl)).next (set_pcie_only _ _) (sect_sub rfl)) ⟨?_, ?_, ?_, rfl⟩
    all_goals simp only [d, keepRead_fst, withKeep_keep, withKeep_evt]
    split <;> rfl
  case other => exact fun q hp hf => keepRead_other_does out hi bad hp hf

end Sys2Proof.Machine
end

section
/-! Cut bindings (R483, R484, R501): the bindings that the table enables and their sets, the conditions of R484 as propositions
about the table, and the proof of CutBindingWrites. -/
namespace Sys2Proof.Machine
open Host

/-! ## Tables and runs of numbers -/

theorem tget_of_mem {α : Type} {t : Tab α} {k : Nat} {v : α} (e : α) (h : (t.map (·.1)).Nodup) (hm : (k, v) ∈ t) :
    tget t k e = v := by
  induction t with
  | nil => cases hm
  | cons c r ih =>
    obtain ⟨i, x⟩ := c
    obtain ⟨hi, hr⟩ := List.nodup_cons.1 h
    obtain hk | hk := List.mem_cons.1 hm
    · cases hk
      exact if_pos rfl
    · have hne : i ≠ k := fun hik => hi (hik ▸ List.mem_map_of_mem (f := (·.1)) hk)
      exact (if_neg hne).trans (ih hr hk)

theorem mem_of_tget_ne {α : Type} {t : Tab α} {k : Nat} {e : α} (h : tget t k e ≠ e) : (k, tget t k e) ∈ t := by
  induction t with
  | nil => exact absurd rfl h
  | cons c r ih =>
    obtain ⟨i, x⟩ := c
    by_cases hik : i = k
    · simp [tget, hik]
    · simp only [tget, if_neg hik] at h ⊢
      exact List.mem_cons_of_mem _ (ih h)

theorem mem_span {a n x : Nat} : x ∈ span a n ↔ a ≤ x ∧ x < a + n := by
  induction n generalizing a with
  | zero => simp [span]
  | succ n ih =>
    simp only [span, List.mem_cons, ih]
    omega

/-! ## Bindings and their sets -/

/-- Binding j as the table holds it (R501). -/
def Dev.cut (d : Dev) (j : Nat) : Binding := bindingOf (tget d.ring.cuts j 0)

/-- Binding j is an enabled one, other than b, of the set that a binding is of (R483). -/
def Dev.Mate (d : Dev) (b : Nat) (x : Binding) (j : Nat) : Prop :=
  j ≠ b ∧ (d.cut j).en = true ∧ (d.cut j).part = x.part ∧ (d.cut j).inb = x.inb ∧
    (d.cut j).peer = x.peer ∧ (d.cut j).peerPart = x.peerPart ∧ (d.cut j).round = x.round

/-- A numbered binding has the direction, peer and round of the set that a binding is of (R483). -/
def Binding.sameSet (x : Binding) (e : Nat × Binding) : Bool :=
  decide (e.2.inb = x.inb) && decide (e.2.peer = x.peer) && decide (e.2.peerPart = x.peerPart) && decide (e.2.round = x.round)

/-- SLOT has 12 bits (R501). -/
theorem bindingOf_slot_lt (v : BitVec 64) : (bindingOf v).slot < 4096 := Nat.mod_lt _ (by decide)

section Sets
variable {d : Dev} (keys : (d.ring.cuts.map (·.1)).Nodup) {b : Nat} {x : Binding}
include keys

theorem mem_bindings {p j : Nat} {y : Binding} : (j, y) ∈ d.bindings p ↔ y = d.cut j ∧ y.en = true ∧ y.part = p := by
  simp only [Dev.bindings, List.mem_filter, List.mem_map, Prod.mk.injEq, Bool.and_eq_true, decide_eq_true_eq]
  constructor
  · rintro ⟨⟨⟨i, v⟩, hm, rfl, rfl⟩, on⟩
    exact ⟨congrArg bindingOf (tget_of_mem 0 keys hm).symm, on⟩
  · rintro ⟨rfl, en, hp⟩
    have listed : tget d.ring.cuts j 0 ≠ 0 := fun h0 => by
      rw [Dev.cut, h0] at en
      exact absurd en (by decide)
    exact ⟨⟨_, mem_of_tget_ne listed, rfl, rfl⟩, en, hp⟩

theorem mem_setOf_mate {j : Nat} {y : Binding} (h : (j, y) ∈ d.setOf x.part x.inb x.peer x.peerPart x.round) (hj : j ≠ b) :
    y = d.cut j ∧ d.Mate b x j := by
  obtain ⟨_, -, hs⟩ := List.mem_filterMap.1 h
  obtain ⟨hl, hf⟩ := List.mem_filter.1 (List.mem_of_find?_eq_some hs)
  obtain ⟨rfl, en, hp⟩ := (mem_bindings keys).1 hl
  simp only [Bool.and_eq_true, decide_eq_true_eq] at hf
  obtain ⟨⟨⟨hi, hq⟩, hpp⟩, hr⟩ := hf
  exact ⟨rfl, hj, en, hp, hi, hq, hpp, hr⟩

/-- Each slot that a mate has is in the list of the set. -/
theorem setOf_has_slot {j : Nat} (h : d.Mate b x j) :
    ∃ i, (i, d.cut i) ∈ d.setOf x.part x.inb x.peer x.peerPart x.round ∧ (d.cut i).en = true ∧ (d.cut i).slot = (d.cut j).slot := by
  obtain ⟨-, en, hp, hi, hq, hpp, hr⟩ := h
  have listed : (j, d.cut j) ∈ (d.bindings x.part).filter x.sameSet :=
    List.mem_filter.2 ⟨(mem_bindings keys).2 ⟨rfl, en, hp⟩, by simp [Binding.sameSet, hi, hq, hpp, hr]⟩
  have numbered : (d.cut j).slot ∈ span 0 4096 := mem_span.2 ⟨Nat.zero_le _, (Nat.zero_add 4096).symm ▸ bindingOf_slot_lt _⟩
  cases found : ((d.bindings x.part).filter x.sameSet).find? fun e => decide (e.2.slot = (d.cut j).slot) with
  | none => exact absurd (List.find?_eq_none.1 found _ listed) (by simp)
  | some e =>
    obtain ⟨i, y⟩ := e
    have slot := List.find?_some found
    obtain ⟨rfl, eni, -⟩ := (mem_bindings keys).1 (List.mem_filter.1 (List.mem_of_find?_eq_some found)).1
    exact ⟨i, List.mem_filterMap.2 ⟨_, numbered, found⟩, eni, of_decide_eq_true slot⟩

/-- Some slot of the mates meets a test exactly when a mate's does, where binding b is disabled or its own slot fails the test. -/
theorem setMates_any {f : Nat → Bool} (hb : (d.cut b).en = false ∨ f (d.cut b).slot = false) :
    (d.setMates b x).any (fun e => f e.2.slot) = true ↔ ∃ j, d.Mate b x j ∧ f (d.cut j).slot = true := by
  rw [List.any_eq_true]
  constructor
  · rintro ⟨⟨j, y⟩, hm, hf⟩
    obtain ⟨hs, hj⟩ := List.mem_filter.1 hm
    obtain ⟨rfl, mate⟩ := mem_setOf_mate keys hs (of_decide_eq_true hj)
    exact ⟨j, mate, hf⟩
  · rintro ⟨j, mate, hf⟩
    obtain ⟨i, hs, en, slot⟩ := setOf_has_slot keys mate
    have other : i ≠ b := by
      rintro rfl
      simp [en, slot, hf] at hb
    exact ⟨(i, d.cut i), List.mem_filter.2 ⟨hs, decide_eq_true other⟩, by rwa [slot]⟩

end Sets

/-! ## The conditions of R484 -/

/-- Condition 1: the binding's partition exists, takes part in cut nets, holds a placement and is neither RUNNING nor LOADING. -/
def Dev.MayBind (d : Dev) (x : Binding) : Prop :=
  1 ≤ x.part ∧ x.part ≤ 64 ∧ (d.part x.part).state ≠ .none ∧ (d.part x.part).cut = true ∧ (d.part x.part).placement ≠ none ∧
    (d.part x.part).state ≠ .running ∧ (d.part x.part).state ≠ .loading

/-- Condition 2: the slot below is enabled. -/
def Dev.Linked (d : Dev) (b : Nat) (y : Binding) : Prop := y.slot = 0 ∨ ∃ j, d.Mate b y j ∧ (d.cut j).slot + 1 = y.slot

/-- Condition 3: the carrier block is free. -/
def Dev.BlockFree (d : Dev) (b : Nat) (y : Binding) : Prop :=
  y.marker = true ∨ ((∀ pl, (d.part y.part).placement = some pl → bit (pl.freeMask.getD y.plot 0) y.block = true) ∧
    (d.part y.part).blockTaken y.plot y.block = false ∧
    ∀ j, j ≠ b → (d.cut j).en = true → (d.cut j).part = y.part → (d.cut j).marker = false →
      ¬ ((d.cut j).plot = y.plot ∧ (d.cut j).block = y.block))

/-- Condition 4: a marker is alone in its set. -/
def Dev.Alone (d : Dev) (b : Nat) (y : Binding) : Prop := y.marker = false ∨ (y.slot = 0 ∧ ∀ j, ¬ d.Mate b y j)

theorem bindable_iff {d : Dev} {x : Binding} : d.bindable x.part = true ↔ d.MayBind x := by
  simp [Dev.bindable, Dev.MayBind, Option.isSome_iff_ne_none, and_assoc]

section Conditions
variable {d : Dev} (keys : (d.ring.cuts.map (·.1)).Nodup) {b : Nat} {x y : Binding}
include keys

/-- The model's test of condition 2. -/
theorem unlinked_iff (off : (d.cut b).en = false) :
    (y.slot ≠ 0 ∧ (!(d.setMates b y).any fun e => decide (e.2.slot + 1 = y.slot)) = true) ↔ ¬ d.Linked b y := by
  have below := setMates_any keys (x := y) (f := fun s => decide (s + 1 = y.slot)) (.inl off)
  simp only [decide_eq_true_eq] at below
  rw [Dev.Linked, not_or, ← below, Bool.not_eq_true', Bool.not_eq_true]

/-- The model's test that another binding holds the carrier block. -/
theorem blockBound_iff : ((d.bindings y.part).any fun e =>
      decide (e.1 ≠ b) && !e.2.marker && decide (e.2.plot = y.plot) && decide (e.2.block = y.block)) = true ↔
    ∃ j, j ≠ b ∧ (d.cut j).en = true ∧ (d.cut j).part = y.part ∧ (d.cut j).marker = false ∧
      (d.cut j).plot = y.plot ∧ (d.cut j).block = y.block := by
  simp only [List.any_eq_true, Prod.exists, mem_bindings keys, Bool.and_eq_true, decide_eq_true_eq, Bool.not_eq_true']
  constructor
  · rintro ⟨j, _, ⟨rfl, en, hp⟩, ⟨⟨hj, hm⟩, hl⟩, hk⟩
    exact ⟨j, hj, en, hp, hm, hl, hk⟩
  · rintro ⟨j, hj, en, hp, hm, hl, hk⟩
    exact ⟨j, _, ⟨rfl, en, hp⟩, ⟨⟨hj, hm⟩, hl⟩, hk⟩

/-- The model's test of condition 3, of a partition that holds a placement. -/
theorem blockUsed_iff {pl : Placement} (hpl : (d.part y.part).placement = some pl) :
    ((!y.marker) = true ∧
      ((!bit (((d.part y.part).placement.map fun pl => pl.freeMask.getD y.plot 0).getD 0) y.block) = true ∨
        (d.part y.part).blockTaken y.plot y.block = true ∨
        ((d.bindings y.part).any fun e =>
          decide (e.1 ≠ b) && !e.2.marker && decide (e.2.plot = y.plot) && decide (e.2.block = y.block)) = true)) ↔
    ¬ d.BlockFree b y := by
  rw [blockBound_iff keys, Bool.not_eq_true', Bool.not_eq_true', hpl, Option.map_some, Option.getD_some]
  constructor
  · rintro ⟨carried, used⟩ (marker | ⟨free, untaken, unbound⟩)
    · exact Bool.false_ne_true (carried.symm.trans marker)
    · obtain masked | taken | ⟨j, hj, en, hp, hm, same⟩ := used
      · exact Bool.false_ne_true (masked.symm.trans (free pl hpl))
      · exact Bool.false_ne_true (untaken.symm.trans taken)
      · exact unbound j hj en hp hm same
  · intro h
    obtain ⟨marker, used⟩ := not_or.1 h
    refine ⟨Bool.eq_false_iff.2 marker, Classical.byContradiction fun unused => used ?_⟩
    obtain ⟨free, other⟩ := not_or.1 unused
    obtain ⟨untaken, unbound⟩ := not_or.1 other
    refine ⟨fun pl' hpl' => ?_, Bool.eq_false_iff.2 untaken, fun j hj en hp hm same => unbound ⟨j, hj, en, hp, hm, same⟩⟩
    obtain rfl := Option.some.inj (hpl.symm.trans hpl')
    exact eq_true_of_ne_false free

/-- The model's test of condition 4. -/
theorem accompanied_iff (off : (d.cut b).en = false) :
    (y.marker = true ∧ (y.slot ≠ 0 ∨ (!(d.setMates b y).isEmpty) = true)) ↔ ¬ d.Alone b y := by
  have any := setMates_any keys (x := y) (f := fun _ => true) (.inl off)
  simp only [and_true] at any
  rw [Dev.Alone, not_or, Classical.not_and_iff_not_or_not, Classical.not_forall_not, ← any]
  cases d.setMates b y <;> simp

/-- The model's test that a higher slot of binding b's set is enabled. -/
theorem higher_iff : ((d.setMates b (d.cut b)).any fun e => decide ((d.cut b).slot < e.2.slot)) = true ↔
    ∃ j, d.Mate b (d.cut b) j ∧ (d.cut b).slot < (d.cut j).slot := by
  have above := setMates_any keys (b := b) (x := d.cut b) (f := fun s => decide ((d.cut b).slot < s)) (.inr (by simp))
  simpa only [decide_eq_true_eq] using above

end Conditions

/-! ## The first condition that an enabling write breaks -/

section Faults
variable {d : Dev} (keys : (d.ring.cuts.map (·.1)).Nodup) {b : Nat} {y : Binding} (off : (d.cut b).en = false)

theorem bindFault_not_mayBind (h1 : ¬ d.MayBind y) : d.bindFault b y = some 1 :=
  if_pos (by simpa using mt bindable_iff.1 h1)

include keys off

theorem bindFault_mayBind (h1 : d.MayBind y) :
    (¬ d.Linked b y → d.bindFault b y = some 2) ∧
    (d.Linked b y → ¬ d.BlockFree b y → d.bindFault b y = some 3) ∧
    (d.Linked b y → d.BlockFree b y → ¬ d.Alone b y → d.bindFault b y = some 4) ∧
    (d.Linked b y → d.BlockFree b y → d.Alone b y → d.bindFault b y = none) := by
  have ready : ¬ (!d.bindable y.part) = true := by simp [bindable_iff.2 h1]
  have link := unlinked_iff keys (y := y) off
  obtain ⟨-, -, -, -, placed, -⟩ := h1
  obtain ⟨pl, hpl⟩ := Option.ne_none_iff_exists'.1 placed
  have block := blockUsed_iff keys (b := b) hpl
  have alone := accompanied_iff keys (y := y) off
  simp only [Dev.bindFault]
  rw [if_neg ready]
  refine ⟨fun h2 => ?_, fun h2 h3 => ?_, fun h2 h3 h4 => ?_, fun h2 h3 h4 => ?_⟩
  · rw [if_pos (link.2 h2)]
  · rw [if_neg (fun no => link.1 no h2), if_pos (block.2 h3)]
  · rw [if_neg (fun no => link.1 no h2), if_neg (fun no => block.1 no h3), if_pos (alone.2 h4)]
  · rw [if_neg (fun no => link.1 no h2), if_neg (fun no => block.1 no h3), if_neg (fun no => alone.1 no h4)]

end Faults

/-! ## A write -/

/-- The device with binding b's register as given. -/
def Dev.storeCut (d : Dev) (b : Nat) (w : Word) : Dev := { d with ring := { d.ring with cuts := tset d.ring.cuts b w } }

/-- The bits of RING_CUT_b that a write may set: all but RSVD (R501). -/
def cutFields (v : Word) : Word := v &&& ~~~(0x3FF : Word)

section Write
variable {d : Dev} {b : Nat} {v : Word}

theorem writeCut_outside (hb : 4096 ≤ b) : d.writeCut b v = d := if_pos hb

/-- A write of an enabled binding. -/
theorem writeCut_enabled (hb : b < 4096) (on : (d.cut b).en = true) : d.writeCut b v =
    if v.getLsbD 63 then d
    else if !d.bindable (d.cut b).part then d.refuseCut b 1 (d.cut b).part
    else if (d.setMates b (d.cut b)).any (fun e => decide ((d.cut b).slot < e.2.slot)) then d.refuseCut b 5 (d.cut b).part
    else d.storeCut b (tget d.ring.cuts b 0 &&& 0x7FFFFFFFFFFFFFFF) := by
  unfold Dev.writeCut
  rw [if_neg (Nat.not_le.2 hb)]
  exact if_pos on

/-- A write of a disabled binding. -/
theorem writeCut_disabled (hb : b < 4096) (off : (d.cut b).en = false) : d.writeCut b v =
    if v.getLsbD 63 then
      match d.bindFault b (bindingOf (cutFields v)) with
      | some r => d.refuseCut b r (bindingOf (cutFields v)).part
      | none => d.storeCut b (cutFields v)
    else d.storeCut b (cutFields v) := by
  unfold Dev.writeCut
  rw [if_neg (Nat.not_le.2 hb)]
  exact if_neg (Bool.eq_false_iff.1 off)

end Write

/-! ## The command -/

section Command
variable {m : Master} {b : Nat} {v : Word} {s : State}

/-- RING_CUT_WRITE of one who may write is the write of the register (R501). -/
theorem ringCutWrite_does (h : Allowed m s) (hs : s.dev.rst.svc = none) (b : Nat) (v : Word) :
    Does (.ringCutWrite m b v) s (s.dev.writeCut b v) := by
  obtain ⟨out, sealed, hm⟩ := h
  show execRingCutWrite m b v s = _
  rw [execRingCutWrite, run_out out]
  obtain rfl | rfl := hm <;> simp [Dev.bySvc, Dev.byHostOrT0, sealed, hs]

/-- The command is ignored: it posts event 0x0611 with its reason, and changes nothing else (R484). -/
def CutRefused (c : Instr) (s : State) (b reason part : Nat) : Prop :=
  Makes c s [.evt] fun e => ∃ src, e.evt = (s.dev.postSrc 0x0611 (b + reason * 2 ^ 12) part src).evt

/-- The command stores binding b's register, and changes nothing else. -/
def CutStored (c : Instr) (s : State) (b : Nat) (w : Word) : Prop :=
  Makes c s [.ring] fun e => e.ring = { s.dev.ring with cuts := tset s.dev.ring.cuts b w }

theorem Does.cutRefused {c : Instr} {r p : Nat} (h : Does c s (s.dev.refuseCut b r p)) : CutRefused c s b r p :=
  h.makes (postFree_only _ _ _ _) ⟨_, rfl⟩

theorem Does.cutStored {c : Instr} {w : Word} (h : Does c s (s.dev.storeCut b w)) : CutStored c s b w :=
  h.makes (set_ring_only _ _) rfl

variable (allowed : Allowed m s) (svc : s.dev.rst.svc = none)
include allowed svc

theorem ringCutWrite_outside (hb : 4096 ≤ b) : exec (.ringCutWrite m b v) s = .next s := by
  have done := ringCutWrite_does allowed svc b v
  rwa [writeCut_outside hb] at done

variable (hb : b < 4096)
include hb

/-- A write of an enabled binding does nothing, or disables it: that needs condition 1 and that no higher slot of the set is enabled,
and clears EN alone (R484). -/
theorem ringCutWrite_enabled (keys : (s.dev.ring.cuts.map (·.1)).Nodup) (on : (s.dev.cut b).en = true) :
    let x := s.dev.cut b
    let c := Instr.ringCutWrite m b v
    (v.getLsbD 63 = true → exec c s = .next s) ∧
    (v.getLsbD 63 = false → ¬ s.dev.MayBind x → CutRefused c s b 1 x.part) ∧
    (v.getLsbD 63 = false → s.dev.MayBind x → (∃ j, s.dev.Mate b x j ∧ x.slot < (s.dev.cut j).slot) → CutRefused c s b 5 x.part) ∧
    (v.getLsbD 63 = false → s.dev.MayBind x → (∀ j, s.dev.Mate b x j → (s.dev.cut j).slot ≤ x.slot) →
      CutStored c s b (tget s.dev.ring.cuts b 0 &&& 0x7FFFFFFFFFFFFFFF)) := by
  have done := ringCutWrite_does allowed svc b v
  rw [writeCut_enabled hb on] at done
  have higher := higher_iff keys (b := b)
  refine ⟨fun hv => ?kept, fun hv h1 => ?unready, fun hv h1 h5 => ?below, fun hv h1 h5 => ?top⟩
  case kept => rwa [if_pos hv] at done
  all_goals rw [if_neg (Bool.eq_false_iff.1 hv)] at done
  case unready =>
    rw [if_pos (by simpa using mt bindable_iff.1 h1)] at done
    exact done.cutRefused
  all_goals rw [if_neg (by simp [bindable_iff.2 h1])] at done
  case below =>
    rw [if_pos (higher.2 h5)] at done
    exact done.cutRefused
  case top =>
    rw [if_neg (fun above => have ⟨j, hj, lt⟩ := higher.1 above; Nat.not_lt.2 (h5 j hj) lt)] at done
    exact done.cutStored

theorem ringCutWrite_fields (off : (s.dev.cut b).en = false) (hv : v.getLsbD 63 = false) :
    CutStored (.ringCutWrite m b v) s b (cutFields v) := by
  have done := ringCutWrite_does allowed svc b v
  rw [writeCut_disabled hb off, if_neg (Bool.eq_false_iff.1 hv)] at done
  exact done.cutStored

/-- A write that enables binding b is refused with the first condition it breaks, and stored where there is none (R484). -/
theorem ringCutWrite_enabling (off : (s.dev.cut b).en = false) (hv : v.getLsbD 63 = true) :
    (∀ r, s.dev.bindFault b (bindingOf (cutFields v)) = some r →
      CutRefused (.ringCutWrite m b v) s b r (bindingOf (cutFields v)).part) ∧
    (s.dev.bindFault b (bindingOf (cutFields v)) = none → CutStored (.ringCutWrite m b v) s b (cutFields v)) := by
  have done := ringCutWrite_does allowed svc b v
  rw [writeCut_disabled hb off, if_pos hv] at done
  refine ⟨fun r broken => ?_, fun sound => ?_⟩
  · rw [broken] at done
    exact done.cutRefused
  · rw [sound] at done
    exact done.cutStored

end Command

/-- Settles O50: an enabled binding is kept or disabled; a disabled one takes its fields, or is enabled as `bindFault` answers, whose
answer the conditions of R484 give. -/
theorem cutBindingWrites : Obligations.CutBindingWrites := by
  unfold Obligations.CutBindingWrites
  intro m b v s allowed svc d
  refine ⟨ringCutWrite_outside allowed svc, fun hb keys => ⟨ringCutWrite_enabled allowed svc hb keys, fun off => ?disabled⟩⟩
  case disabled =>
    refine ⟨ringCutWrite_fields allowed svc hb off, fun hv => ?enabling⟩
    obtain ⟨refused, stored⟩ := ringCutWrite_enabling allowed svc hb off hv
    refine ⟨fun h1 => refused 1 (bindFault_not_mayBind h1), fun h1 h2 => ?_, fun h1 h2 h3 => ?_, fun h1 h2 h3 h4 => ?_,
      fun h1 h2 h3 h4 => ?_⟩
    all_goals obtain ⟨f2, f3, f4, sound⟩ := bindFault_mayBind keys off h1
    · exact refused 2 (f2 h2)
    · exact refused 3 (f3 h2 h3)
    · exact refused 4 (f4 h2 h3 h4)
    · exact stored (sound h2 h3 h4)

end Sys2Proof.Machine
end
